-- ==== Sys2Proof/Word.lean ====
section
/-! DEFINITION. The word types of the part and its unit of time. -/

namespace Sys2Proof

/-- A byte of memory. -/
abbrev Byte := BitVec 8

/-- A register word (32 bits). -/
abbrev W32 := BitVec 32

/-- A Reed register, a 64-bit access or a stamp in a register (64 bits). -/
abbrev W64 := BitVec 64

/-- A stamp (R35) as a number: tick × 64 + vernier. -/
abbrev Stamp := Nat

/-- Verniers in a tick (R3, R35). -/
abbrev vnPerTick : Nat := 64

/-- Ticks in a microsecond: a tick is 4 ns (R3). -/
abbrev tkPerUs : Nat := 250

end Sys2Proof
end

