-- ==== Sys2Proof/Syntax.lean ====
section
/-! DEFINITION. The commands the block takes: one constructor per row of spec/opcode_table.json, and the operand types
they need. -/

namespace Sys2Proof

/-- Who makes a register access (R11, R30, R33, R378): Reed core `c`, the Tapster on behalf of a House or Guest
command, the PCIe endpoint, or the debug bus master in an observe or consume access (R13, R500). -/
inductive Req where
  | reed (c : Fin 16)
  | tapster (guest : Bool)
  | pcie
  | debug (consume : Bool)
  deriving DecidableEq, Repr

/-- The active edge of an asynchronous input as the part measures it (R36, R51): the tick before the edge, the vernier step
at or below it, whether it lies strictly past that step's start, and, for an edge 2 vn or less from a tick edge, whether the
arbiter (before VN_CAL, the synchroniser) picks the later of the two ticks. -/
structure Edge where
  tick : Nat
  vn   : Fin 64
  past : Bool
  later : Bool
  deriving DecidableEq, Repr

/-- An edge of an input whose polarity a register selects, and whether it rises (R117, R293). -/
structure PinEdge extends Edge where
  rising : Bool
  deriving DecidableEq, Repr

/-- A command queue a packet is taken from and, for a ring in host memory, the entry's bytes as the host's link answers the read: none where
the read fails (R246, R278). -/
structure PacketSource where
  q    : Fin 4096
  host : Option (List (BitVec 8))
  deriving DecidableEq, Repr

/-- Where a comparator's input stands against the hysteresis band (R89, R94). -/
inductive BandSide where
  | tripSide | inside | releaseSide
  deriving DecidableEq, Repr

/-- What a swap or tie check of a comparator observes (R102, R103): tripped on the first tie level, released on the second;
outputs that differ under the swap. -/
structure CheckObs where
  first  : Bool
  second : Bool
  moved  : Bool
  deriving DecidableEq, Repr

/-- The units of a Reed core whose results become ready later (R350). -/
inductive RUnit where
  | alu0 | alu1 | mul | cmp | lsu | fpu | ctl | qp
  deriving DecidableEq, Repr

/-- What comes with a request on the Damroth link (R493) beside its operation, ADDR and DATA: FLAGS, SEQ, CORE, the zero field, and
the CRC it ends with. -/
structure DmrFrame where
  flags : BitVec 4
  seq   : BitVec 4
  core  : Fin 16
  zero  : BitVec 4
  crc   : BitVec 8
  deriving DecidableEq, Repr


/-- The commands of the block: one constructor per row of the table of operations and events. The operands are the
address, value or instance the row speaks of, and whatever reaches the part from outside with it: the stamp of an edge, the
code of a conversion, the choice of an arbiter. -/
inductive Instr where
  /-- REGISTER_WRITE (R9). A write to a register field that has no row of its own takes effect according to its access code (RW, W1C, W1S, WO), with reserved values handled as the field card gives. -/
  | registerWrite (r : Req) (a : Nat) (wide : Bool) (v : BitVec 64)
  /-- RL_LOW_HALF_READ (R11). A read of the low half of an RL register returns the live low half and latches the live high half into the requester's shadow. -/
  | rlLowHalfRead (r : Req) (a : Nat)
  /-- RL_HIGH_HALF_READ (R11). A read of the high half of an RL register returns that requester's shadow, or 0 if it has made no low-half read since reset. -/
  | rlHighHalfRead (r : Req) (a : Nat)
  /-- RL_64BIT_READ (R11). A single 64-bit read of an RL register returns both halves from one instant and loads the requester's shadow. -/
  | rl64BitRead (r : Req) (a : Nat)
  /-- RC_FIELD_READ (R9). A read of an RC field returns its value and then sets the field back to its reset value. -/
  | rcFieldRead (r : Req) (a : Nat)
  /-- STICKY_READ (R152). A read of AX_STICKY returns every sticky flag and clears them all in one access, without losing a flag set on the same tick. -/
  | stickyRead (r : Req) (x : Fin 72)
  /-- SAMPLE_FENCE (R18). At the sample fence of a group, each member slice has its bracketing conversions marked and its mapped ports captured with a stamp. -/
  | sampleFence (g : Fin 16)
  /-- SLICE_WAKE (R19). When all raw results and captures have been delivered, the slice wakes, reads its parameters applied at the last apply fence and starts its chain. -/
  | sliceWake (x : Fin 72) (t : Nat)
  /-- DEPOSIT (R144). The end of a slice's compute writes duties to the shadow compare registers and the published outputs to the holding copy, and signals completion to the deadline monitor. -/
  | deposit (x : Fin 72) (t : Nat)
  /-- TRACE_STREAM_WRITE (R173). A trace record is streamed to the DRAM buffer at DBASE and WPTR is incremented, or the ring overruns and sets OVR. -/
  | traceStreamWrite (x : Fin 72)
  /-- COMMIT_FENCE (R48). At the commit fence the deadline monitor tests each member slice, commits complete deposits and publishes outputs, or handles a miss. -/
  | commitFence (g : Fin 16) (arb : BitVec 72)
  /-- STAGING_LOCK (R23). 2 tk before each apply fence, the closed buffer of each staging set is frozen for that fence, unless APPLY_HOLD reads 1. -/
  | stagingLock (g : Fin 16)
  /-- APPLY_FENCE (R44). At the apply fence every word of each frozen closed buffer is copied into the live parameters on one tick, and APPLIED_TAG and AX_STAGE_AFSTAMP are updated. -/
  | applyFence (g : Fin 16)
  /-- MIRROR_WRITE (R44). A write to a staging mirror goes into the open buffer and marks the written word. -/
  | mirrorWrite (r : Req) (x : Fin 72) (off : Nat) (wide : Bool) (v : BitVec 64)
  /-- STAGE_CLOSE (R44). A write of AX_STAGE_GEN.CLOSE copies the marked open-buffer words, with TAG, into the closed buffer or into the holding copy. -/
  | stageClose (r : Req) (x : Fin 72) (tag : BitVec 16)
  /-- INTERLOCK_WRITE_LANDS (R25). A write that waited behind the Tapster interlock lands in the mirror at the release, in the next generation. -/
  | interlockWriteLands (x : Fin 72)
  /-- SLICE_GROUP_CHANGE (R528). A write changing AX_CTRL.PG or CV_CTRL.PG moves the staging set and mapped ports to the new group and releases any pending group from the old group's fences. -/
  | sliceGroupChange (r : Req) (x : Fin 72) (pg : Fin 16)
  /-- SLICE_ENABLE (R149). A write of EN = 1 is checked against R148 and, if accepted, the slice wakes first at the first sample fence at least 16 tk later, with zeroed states. -/
  | sliceEnable (r : Req) (x : Fin 72) (v : BitVec 32)
  /-- SLICE_DISABLE (R149). A write of EN = 0 acts on EN alone and takes effect at the slice's next commit fence, or within 1 µs if its group is not running. -/
  | sliceDisable (r : Req) (x : Fin 72) (v : BitVec 32)
  /-- GROUP_ENABLE (R42). A write of TB_PG_CTRL.EN = 1 checks the group's settings and, if they pass, starts the group, otherwise records CFG_ERR. -/
  | groupEnable (r : Req) (g : Fin 16) (v : BitVec 32)
  /-- GROUP_DISABLE (R43). A write of TB_PG_CTRL.EN = 0 stops the group, or is refused with CFG_ERR 4 while a member slice is enabled. -/
  | groupDisable (r : Req) (g : Fin 16) (v : BitVec 32)
  /-- GROUP_TIMING_WRITE (R43). A write to a group timing register is accepted only while EN is 0, otherwise ignored with CFG_ERR 3. -/
  | groupTimingWrite (r : Req) (g : Fin 16) (reg : Fin 5) (v : BitVec 32)
  /-- APPLY_HOLD_WRITE (R47). A write of TB_PG_CTRL.APPLY_HOLD sets or clears the hold on every staging set of the group. -/
  | applyHoldWrite (r : Req) (g : Fin 16) (hold : Bool)
  /-- VERNIER_RECALIBRATION (R36). Every 1,024 tk the vernier delay line is recalibrated against the tick in the background. -/
  | vernierRecalibration
  /-- WINDOW_ENABLE (R55). A write of TB_TW_CTRL.EN = 1 while EN reads 0 latches the window settings and arms it, or fails with BAD_WINDOW. -/
  | windowEnable (r : Req) (w : Fin 64) (v : BitVec 32)
  /-- WINDOW_DISARM (R55). A write of TB_TW_CTRL.EN = 0 disarms the window at once and ends any span without a verdict. -/
  | windowDisarm (r : Req) (w : Fin 64) (v : BitVec 32)
  /-- WINDOW_SPAN_START (R53). In PG mode a new watch span starts at start(k) of each period while the window is armed and its group runs. -/
  | windowSpanStart (w : Fin 64)
  /-- WINDOW_MISSED (R54). With no event stamped before close, the verdict at close + 2 tk is MISSED and ACT is carried out. -/
  | windowMissed (w : Fin 64)
  /-- CONVERSION_HOLD (R61). A converter cell holds its input at a grid instant and starts bit-cycling. -/
  | conversionHold (b : Fin 16) (c : Fin 14)
  /-- CONVERSION_COMPLETE (R60). Bit-cycling ends, the code is corrected and absorbed by the filter cascade, and a sample-instant result is delivered to the owning slice. -/
  | conversionComplete (b : Fin 16) (c : Fin 14) (code : BitVec 12)
  /-- SLOT_FCFG_WRITE (R68). A write of CB_SLOT_FCFG restarts the slot's filter at hold j = 1 after the next sample instant, or at once if unlocked. -/
  | slotFcfgWrite (r : Req) (b : Fin 16) (j : Fin 13) (v : BitVec 32)
  /-- INJ_REQ (R72). A write of CB_INJ_REQ.GO queues an immediate or timed injected conversion on the spare cell, or completes at once with a refusal status. -/
  | injReq (r : Req) (b : Fin 16) (v : BitVec 32)
  /-- INJECTED_CONVERSION_DONE (R73). An injected conversion completes, updates CB_INJ_RES and posts its entry to INJ_Q when enabled. -/
  | injectedConversionDone (b : Fin 16) (t : Nat) (code : BitVec 12)
  /-- BANK_ENABLE (R75). A write of CB_CTRL.EN = 1 starts calibration of all 14 cells in parallel, or is refused while PD_CBb is off. -/
  | bankEnable (r : Req) (b : Fin 16) (v : BitVec 32)
  /-- BANK_READY (R75). At the end of start-up calibration, the good cells take the slots and the spare, and READY sets unless two or more cells are bad. -/
  | bankReady (b : Fin 16) (phase : BitVec 140)
  /-- BANK_DISABLE (R84). An accepted write of CB_CTRL.EN = 0 disables the bank and ends every pending injection with NO_SPARE. -/
  | bankDisable (r : Req) (b : Fin 16) (v : BitVec 32)
  /-- CAL_CMD_STEP (R76). CB_CAL_CMD 0b001 starts one rotation step on slot NEXT. -/
  | calCmdStep (r : Req) (b : Fin 16)
  /-- CAL_CMD_ROTATION (R82). CB_CAL_CMD 0b010 runs 13 rotation steps. -/
  | calCmdRotation (r : Req) (b : Fin 16)
  /-- CAL_CMD_STOP (R83). CB_CAL_CMD 0b011 stops rotation after the current step and clears AUTO. -/
  | calCmdStop (r : Req) (b : Fin 16)
  /-- CAL_GAP_EXPIRY (R82). Under AUTO, the expiry of GAP after a step starts the next rotation step. -/
  | calGapExpiry (b : Fin 16)
  /-- ROTATION_OVERLAP_END (R76). After 64 compared pairs, the mean difference is judged against MATCH, moving to handover or to spare recalibration. -/
  | rotationOverlapEnd (b : Fin 16)
  /-- CELL_CALIBRATION_DONE (R74). A cell's 816 calibration conversions end, OFS and GAIN are set, and the cell becomes the spare or is marked bad. -/
  | cellCalibrationDone (b : Fin 16) (c : Fin 14) (z : Int) (p : Int) (n : Int)
  /-- COMPARATOR_INPUT_CROSSING (R91). The input leaving the hysteresis band changes RAW and, outside a blank and when resolved, OUT. -/
  | comparatorInputCrossing (c : Fin 256) (e : Edge) (trip : Bool)
  /-- BLANK_END (R93). At the end of a blank OUT takes the current RAW, a trip there is flagged BLANKED, and a masked trip sets BLANK_HIT. -/
  | blankEnd (c : Fin 256)
  /-- COMPARATOR_SETTLED (R94). At the first evaluation after the settle time, OUT resolves to tripped or not tripped, or stays INIT when the input is inside the band. -/
  | comparatorSettled (c : Fin 256) (n : BandSide)
  /-- COMPARATOR_ENABLE (R108). A CMP_CTRL write of EN = 1 powers the comparator and starts its settle time, unless refused. -/
  | comparatorEnable (r : Req) (c : Fin 256) (v : BitVec 32)
  /-- COMPARATOR_DISABLE (R108). An accepted write of EN = 0 ends the comparator's chop at once and resets UNRES to 1. -/
  | comparatorDisable (r : Req) (c : Fin 256) (v : BitVec 32)
  /-- COMPARATOR_ARM (R108). A write of ARM = 1 enables trip actions, judged against EN and CMP_ACT. -/
  | comparatorArm (r : Req) (c : Fin 256) (v : BitVec 32)
  /-- COMPARATOR_DISARM (R108). A write of ARM = 0 clears ARM at once and unlocks the other fields of the same write. -/
  | comparatorDisarm (r : Req) (c : Fin 256) (v : BitVec 32)
  /-- COMPARATOR_MODE_CHANGE (R108). A change of MODE restarts the settle time of R94. -/
  | comparatorModeChange (r : Req) (c : Fin 256) (v : BitVec 32)
  /-- THRESHOLD_WRITE (R90). A write of CMP_THR.THR goes live at once, or at the owner's commit fence with THR_SYNC, and the DAC settles within 200 ns. -/
  | thresholdWrite (r : Req) (c : Fin 256) (thr : BitVec 10)
  /-- CMP_ACT_WRITE (R97). A write of CMP_ACT is refused whole while armed if it would leave CHOP with LEG 3 on an axis timer. -/
  | cmpActWrite (r : Req) (c : Fin 256) (v : BitVec 32)
  /-- CMP_WINDOW_ENABLE (R100). A write of CMP_WIN_CTRL.EN = 1 forms window WINw from two members, or is refused with CFG_ERR 4. -/
  | cmpWindowEnable (r : Req) (w : Fin 128) (v : BitVec 32)
  /-- CMP_WINDOW_DISABLE (R100). A write of CMP_WIN_CTRL.EN = 0 returns both members to their own settings, and is refused while member 2w is armed. -/
  | cmpWindowDisable (r : Req) (w : Fin 128) (v : BitVec 32)
  /-- SWAP_CHECK (R102). CMP_CHK CMD 0b001 reverses the input pair against the threshold and compares outputs, at once or at the next apply fence. -/
  | swapCheck (r : Req) (c : Fin 256) (v : BitVec 32)
  /-- TIE_CHECK (R103). CMP_CHK CMD 0b010 ties the comparator to levels beyond the threshold on both sides and checks trip and release. -/
  | tieCheck (r : Req) (c : Fin 256) (v : BitVec 32)
  /-- READBACK_CHECK (R105). CMP_CHK CMD 0b011 converts the threshold DAC through an injected conversion and compares it with the expected value. -/
  | readbackCheck (r : Req) (c : Fin 256) (v : BitVec 32)
  /-- CHECK_END (R104). At the end of a swap or tie check, OUT takes the RAW of the reconnected input, and a failure sets CHK_FAIL, posts KIND 2 and may shutter. -/
  | checkEnd (c : Fin 256) (obs : CheckObs)
  /-- AUTO_CHECK_INTERVAL (R106). The expiry of INTV ms starts an automatic swap or tie check at the next apply fence of the owner's group. -/
  | autoCheckInterval (c : Fin 256)
  /-- PORT_ENABLE (R119). A write of PP_CTRL.EN = 1 is checked against the axis-role, domain and LEAD rules and starts capturing. -/
  | portEnable (r : Req) (p : Fin 72) (v : BitVec 32)
  /-- PORT_DISABLE (R126). A write of PP_CTRL.EN = 0 stops the port, and is refused while the mapped slice is enabled. -/
  | portDisable (r : Req) (p : Fin 72) (v : BitVec 32)
  /-- QUADRATURE_EDGE (R115). An accepted A or B edge is stamped and counts ±1, or forms an illegal transition that sets QERR. -/
  | quadratureEdge (p : Fin 72) (e : Edge) (chB : Bool) (level : Bool)
  /-- INDEX_EDGE (R117). An accepted index edge latches count and stamp, raises the index event and may load PP_PRESET. -/
  | indexEdge (p : Fin 72) (e : PinEdge)
  /-- SERIAL_TRANSACTION_START (R118). At S − LEAD the port places the first MA falling edge, the latch instant, or skips the transaction as STALE. -/
  | serialTransactionStart (p : Fin 72)
  /-- SERIAL_START_TIMEOUT (R118). No start bit within ACK_MAX × 100 ns marks the capture TIMEOUT. -/
  | serialStartTimeout (p : Fin 72)
  /-- SERIAL_FRAME_COMPLETE (R120). A finished frame is checked for CRC, nE, nW or idle errors, and a good word updates the 64-bit position. -/
  | serialFrameComplete (p : Fin 72) (word : BitVec 64) (crc : BitVec 16) (nE : Bool) (nW : Bool) (idleOk : Bool)
  /-- LINE_FAULT (R122). A receiver open, short or common-mode fault for 1 µs or more fails the capture with LOS. -/
  | lineFault (p : Fin 72)
  /-- PRESET_WRITE (R121). A write of PP_PRESET while EN is 0 also loads the counter or 64-bit position. -/
  | presetWrite (r : Req) (p : Fin 72) (v : BitVec 64)
  /-- BISS_REGISTER_ACCESS (R124). A write of PP_BISS_CMD.GO starts a register access through the CDM bits, or is refused with ST 3. -/
  | bissRegisterAccess (r : Req) (p : Fin 72) (v : BitVec 32)
  /-- BISS_ACCESS_COMPLETE (R124). A BiSS register access completes within 48 transactions and is reported in PP_BISS_RES. -/
  | bissAccessComplete (p : Fin 72) (st : Fin 3) (data : BitVec 8)
  /-- LIMITER_STOP (R168). AX_LIM_CMD 0b01 triggers the stop profile at the next wake. -/
  | limiterStop (r : Req) (x : Fin 64)
  /-- LIMITER_RELEASE (R170). AX_LIM_CMD 0b10 makes the present position the target and returns to the configured mode, only from STOPPED. -/
  | limiterRelease (r : Req) (x : Fin 64)
  /-- TRACE_SOFTWARE_TRIGGER (R173). A write of AX_TRC_CTRL.SWTRIG = 1 triggers a triggered-mode capture. -/
  | traceSoftwareTrigger (r : Req) (x : Fin 72)
  /-- TRACE_RESTART (R173). A write to MODE, DSZ or DBASE restarts recording with WPTR = 0 and DONE = 0. -/
  | traceRestart (r : Req) (x : Fin 72) (base : Bool) (v : BitVec 32)
  /-- TRACE_SELECT_WRITE (R171). A write of AX_TRC_SEL selects new probe nodes from the next wake and increments SELGEN. -/
  | traceSelectWrite (r : Req) (x : Fin 72) (v : BitVec 32)
  /-- BROKER_RUN (R190). 250 tk before a member channel's staging lock, the broker advances its bus's axes, predicts power and writes FF_B through its own lane. -/
  | brokerRun (c : Fin 8)
  /-- CM_MASS (R201). AX_CM_CTRL GO with SEQ MASS starts the chirp-excited inertia and friction identification. -/
  | cmMass (r : Req) (x : Fin 64)
  /-- CM_RESP (R202). AX_CM_CTRL GO with SEQ RESP starts the 64-bin frequency-response measurement. -/
  | cmResp (r : Req) (x : Fin 64)
  /-- CM_PROPOSE (R203). AX_CM_CTRL GO with SEQ PROPOSE computes a gain proposal into set PSET. -/
  | cmPropose (r : Req) (x : Fin 64)
  /-- CM_FULL (R197). AX_CM_CTRL GO with SEQ FULL runs MASS, then RESP, then PROPOSE. -/
  | cmFull (r : Req) (x : Fin 64)
  /-- CM_APPLY (R210). AX_CM_CTRL GO with SEQ APPLY makes the proposal image active through a bank change. -/
  | cmApply (r : Req) (x : Fin 64) (seed : BitVec 2)
  /-- CM_SELECT (R210). AX_CM_CTRL GO with SEQ SELECT makes gain set GSET active through a bank change. -/
  | cmSelect (r : Req) (x : Fin 64) (gset : Fin 8) (seed : BitVec 2)
  /-- CM_CTRL_ABORT (R200). A write of AX_CM_CTRL.ABORT = 1 aborts the running sequence with CAUSE 12. -/
  | cmCtrlAbort (r : Req) (x : Fin 64)
  /-- CM_SEQUENCE_END (R197). When the record length has run, the Tapster solves the measurement, sets the OK bit and posts KIND 0. -/
  | cmSequenceEnd (x : Fin 64)
  /-- MOVE_INERTIA_ESTIMATE (R207). At arrival or after EST_PER moving periods, J_e is formed and may select a new gain set through a bank change. -/
  | moveInertiaEstimate (x : Fin 64)
  /-- NOTCH_INTERVAL_END (R209). At the end of each NT_INT interval the tracker compares side bins and may move the notch frequency and retune. -/
  | notchIntervalEnd (x : Fin 64)
  /-- CARRIER_EVENT (R219). At each carrier start C_m the leg takes its live compare value for the new carrier period and ends chops whose comparators read not tripped. -/
  | carrierEvent (x : Fin 72) (leg : Fin 4)
  /-- GATE_EDGE (R221). A gate turns on or off at its vernier instant, with dead time, minimum pulse and overrides applied. -/
  | gateEdge (x : Fin 72) (g : Fin 8) (on : Bool)
  /-- GT_CMD_SHUT (R229). AX_GT_CMD SHUT shutters the timer with cause CMD. -/
  | gtCmdShut (r : Req) (x : Fin 72)
  /-- GT_CMD_RELEASE (R232). AX_GT_CMD RELEASE is refused while a level cause holds, or else clears CAUSE and sets RELPEND. -/
  | gtCmdRelease (r : Req) (x : Fin 72)
  /-- STO_SAFE_STATE_ENTRY (R294). A low level on either channel of an STO input puts it in its safe state and drives every selecting timer's gates off within 20 ns. -/
  | stoSafeStateEntry (n : Fin 8) (ch : Bool) (low : Bool) (e : Edge)
  /-- STO_RETURN (R296). Once both channels have been high for RET ms, the input leaves its safe state and its timers stay shuttered with cause STO. -/
  | stoReturn (n : Fin 8)
  /-- STO_DISCREPANCY (R296). Channels that differ for more than DISC ms set DISC and hold the input in its safe state until both are low. -/
  | stoDiscrepancy (n : Fin 8)
  /-- SAFE_OUTPUT_DISAGREE (R297). SAFE_A and SAFE_B paths that disagree for more than 1 µs drive both low and set SPATH. -/
  | safeOutputDisagree
  /-- GATE_FAULT_ASSERT (R237). A gate fault input stable at its active level for FILT × 4 ns is asserted, stamped, and acts as ACT selects. -/
  | gateFaultAssert (x : Fin 72) (n : Fin 2) (e : Edge)
  /-- COMMAND_PACKET_TAKE (R246). The Tapster takes a packet from a command queue, checks opcode, world, target and parameters, and starts or refuses it. -/
  | commandPacketTake (q : PacketSource)
  /-- NOP (R259). Returns SYS_IDENT, the microcode patch version and the active bank. -/
  | tapNop (n : Fin 256)
  /-- READ (R259). Reads one to four words as the Tapster requester. -/
  | tapRead (n : Fin 256)
  /-- WRITE (R259). Writes one to four words as the Tapster requester. -/
  | tapWrite (n : Fin 256)
  /-- TIME (R259). Returns the stamp at execution. -/
  | tapTime (n : Fin 256)
  /-- EMU_DONE (R257). Completes an emulated command, posting its final reply to the source queue's reply queue. -/
  | tapEmuDone (n : Fin 256)
  /-- MC_SWAP (R317). Optionally loads a container and swaps microcode banks, answering from the bank active at the end. -/
  | tapMcSwap (n : Fin 256)
  /-- ENABLE (R260). Writes an AX_CTRL or CV_CTRL image with EN = 1 and is final at the slice's first commit fence. -/
  | tapEnable (n : Fin 256)
  /-- DISABLE (R260). Disables the slice and is final at the disabling commit fence. -/
  | tapDisable (n : Fin 256)
  /-- GEOMETRY (R260). Writes AX_CPR, POLES and AX_ANG_OFS. -/
  | tapGeometry (n : Fin 256)
  /-- SCALES (R260). Writes the scale words and AX_BUS. -/
  | tapScales (n : Fin 256)
  /-- CHAIN (R260). Stages AX_CHAIN and is final at the apply fence. -/
  | tapChain (n : Fin 256)
  /-- MAP (R260). Stages the correction-map words and AX_THERM. -/
  | tapMap (n : Fin 256)
  /-- TIMER (R260). Writes the gate-timer registers, GT_CTRL last. -/
  | tapTimer (n : Fin 256)
  /-- GROUP (R260). Disables, retimes and optionally re-enables a period group, returning CFG_ERR. -/
  | tapGroup (n : Fin 256)
  /-- MOVE (R254). Stages a segment target with the command's tag and replies at apply and at arrival, supersession or interruption. -/
  | tapMove (n : Fin 256)
  /-- STREAM (R261). Stages a stream sample and is final at the apply fence. -/
  | tapStream (n : Fin 256)
  /-- LIMITS (R261). Stages the limiter limits and ASCALE. -/
  | tapLimits (n : Fin 256)
  /-- STOP_CFG (R261). Stages the stop-profile limits and AX_STOP_CTRL. -/
  | tapStopCfg (n : Fin 256)
  /-- LIMMODE (R261). Stages AX_LIM_CTRL. -/
  | tapLimmode (n : Fin 256)
  /-- STOP (R261). Starts the stop profile and is final at STOPPED or when a shutter comes first. -/
  | tapStop (n : Fin 256)
  /-- RELEASE (R261). Releases a limiter in STOPPED, returning the phase before the write. -/
  | tapRelease (n : Fin 256)
  /-- SHUT (R261). Shutters the timer and returns AX_GT_SHSTAMP. -/
  | tapShut (n : Fin 256)
  /-- UNSHUT (R261). Releases the shutter and is final when it ends, or is refused with AX_GT_CAUSE. -/
  | tapUnshut (n : Fin 256)
  /-- STATUS (R261). Returns published limiter, tag, gate and flag values. -/
  | tapStatus (n : Fin 256)
  /-- BANK_WR (R262). Writes words of the inactive coefficient bank. -/
  | tapBankWr (n : Fin 256)
  /-- BANK_RD (R262). Reads words of the active or inactive coefficient bank. -/
  | tapBankRd (n : Fin 256)
  /-- SWAP (R262). Stages an open–swap–close and replies at apply and at the close period's commit fence. -/
  | tapSwap (n : Fin 256)
  /-- IREF (R262). Stages AX_IREF_D and AX_IREF_Q. -/
  | tapIref (n : Fin 256)
  /-- TRC_CFG (R263). Writes the trace control, selection, trigger and base registers. -/
  | tapTrcCfg (n : Fin 256)
  /-- TRC_TRIG (R263). Triggers trace and is final at once or when DONE sets. -/
  | tapTrcTrig (n : Fin 256)
  /-- TRC_STAT (R263). Returns AX_TRC_STAT and WPTR. -/
  | tapTrcStat (n : Fin 256)
  /-- BUS_SET (R264). Stages the bus set-point, auxiliary load and bus limits. -/
  | tapBusSet (n : Fin 256)
  /-- BROKER (R264). Writes CV_BRK and CV_BUS_ACT. -/
  | tapBroker (n : Fin 256)
  /-- STORE (R264). Stages the store voltage window. -/
  | tapStore (n : Fin 256)
  /-- BUS_STAT (R264). Returns broker state, prediction, v_bus and i. -/
  | tapBusStat (n : Fin 256)
  /-- CM_START (R265). Starts a commissioning sequence and is final when ST leaves RUNNING. -/
  | tapCmStart (n : Fin 256)
  /-- CM_ABORT (R265). Aborts the running commissioning sequence. -/
  | tapCmAbort (n : Fin 256)
  /-- CM_POLICY (R265). Writes the commissioning policy words. -/
  | tapCmPolicy (n : Fin 256)
  /-- CM_ADAPT (R265). Writes the adaptation enables, estimate threshold and event queue. -/
  | tapCmAdapt (n : Fin 256)
  /-- CM_RESULT (R265). Returns MASS, resonance or proposal results. -/
  | tapCmResult (n : Fin 256)
  /-- CAL (R266). Writes a CB_CAL_CMD value and is final when the steps end. -/
  | tapCal (n : Fin 256)
  /-- INJECT (R266). Requests an injected conversion and returns its stamp, code, status and cell. -/
  | tapInject (n : Fin 256)
  /-- CMP_CHK (R266). Starts a comparator check and is final when BUSY clears. -/
  | tapCmpChk (n : Fin 256)
  /-- SLICE_RESET (R474). Resets the slice, disabling it and clearing its dynamic state while keeping configuration. -/
  | tapSliceReset (n : Fin 256)
  /-- STICKY (R266). Reads and clears AX_STICKY and AX_DL_STAT.TOTAL. -/
  | tapSticky (n : Fin 256)
  /-- TRIG_AT (R267). Schedules a pulse on a vision trigger output and is final at its edge. -/
  | tapTrigAt (n : Fin 256)
  /-- WINDOW (R267). Writes and arms a time window and is final at its verdict. -/
  | tapWindow (n : Fin 256)
  /-- BATCH_REL (R267). Releases a Tapster hold on a group without closing anything. -/
  | tapBatchRel (n : Fin 256)
  /-- EMULATED_OPCODE (R257). A packet with opcode 0x900–0xBFF is posted whole to the emulation queue and stays in flight. -/
  | emulatedOpcode (n : Fin 256)
  /-- GUEST_OPCODE (R258). An opcode 0xC00–0xFFF runs its guest-page routine, or ends BAD_OPCODE without one. -/
  | guestOpcode (n : Fin 256)
  /-- HELD_REPLY_POST (R249). A reply held in the Tapster for a full reply queue is posted once room appears. -/
  | heldReplyPost
  /-- TAPSTER_HOLD_TIMEOUT (R252). A Tapster-held APPLY_HOLD kept for 1,024 periods is released, HOLDTMO sets and the held replies carry HOLD_TMO. -/
  | tapsterHoldTimeout (g : Fin 16)
  /-- DOORBELL (R273). A write of QM_DB moves a queue index forward, or is refused with BAD_DB or OWN_ERR. -/
  | doorbell (r : Req) (q : Fin 4096) (side : Bool) (index : BitVec 16)
  /-- QUEUE_ENABLE (R272). A write of QM_CFG.EN = 1 sets HEAD = TAIL = 0 and enables the queue, or is refused with CFG_ERR. -/
  | queueEnable (r : Req) (q : Fin 4096) (v : BitVec 32)
  /-- QUEUE_DISABLE (R278). A write of QM_CFG.EN = 0 disables the queue once any entry in progress is complete. -/
  | queueDisable (r : Req) (q : Fin 4096) (v : BitVec 32)
  /-- QUEUE_RECORD_POST (R274). The part writes a record to an OUTPUT queue, then the write-back word, then the notification, or drops it if full or disabled. -/
  | queueRecordPost
  /-- QUEUE_MODERATION_TIMEOUT (R277). When the oldest counted entry has waited TIME × 250 ns, the agent is notified. -/
  | queueModerationTimeout (q : Fin 4096)
  /-- QM_MOD_WRITE (R277). A write of QM_MOD changes moderation, and clearing MASK notifies at once or restarts the timer. -/
  | qmModWrite (r : Req) (q : Fin 4096) (v : BitVec 32)
  /-- PCIE_LINK_DOWN (R283). A PCIe link loss sets LDN and stops all host-memory accesses. -/
  | pcieLinkDown
  /-- PCIE_LINK_UP (R283). PCIe link training completes, and posting to host queues resumes. -/
  | pcieLinkUp (gen : Fin 4) (width : Fin 3)
  /-- ETH_FRAME_RECEIVE (R287). A received Ethernet frame is stamped and written into the next posted receive buffer, or dropped. -/
  | ethFrameReceive (p : Fin 2) (t : Nat) (tc : Fin 8) (frame : List (BitVec 8)) (ok : Bool)
  /-- ETH_FRAME_TRANSMIT (R286). A transmit descriptor's frame is sent when its traffic-class gate allows it to end before closing, and is stamped. -/
  | ethFrameTransmit (p : Fin 2) (tc : Fin 8) (t : Nat) (ok : Bool)
  /-- TUNNEL_FRAME_RECEIVE (R288). A tunnel frame is accepted whole into a command queue as one doorbell, or dropped whole. -/
  | tunnelFrameReceive (src : BitVec 48) (payload : List (BitVec 8))
  /-- PTP_APPLY (R285). A write of OP_ETH_PTP_CMD applies OFS, OFSF and RATE together on one tick. -/
  | ptpApply (r : Req) (p : Fin 2)
  /-- GCL_GATE_CHANGE (R286). At each gate control list interval boundary, the traffic-class gates take the next entry's states. -/
  | gclGateChange (p : Fin 2)
  /-- CAN_FRAME_RECEIVE (R290). A received CAN frame passes the acceptance filters and is delivered to the receive queue, or is discarded. -/
  | canFrameReceive (f : Fin 8) (t : Nat) (id : BitVec 29) (ide : Bool) (info : BitVec 8) (data : List (BitVec 8)) (ok : Bool)
  /-- CAN_FRAME_TRANSMIT (R289). A CAN frame from the transmit queue is sent and its descriptor completed. -/
  | canFrameTransmit (f : Fin 8) (t : Nat) (ok : Bool)
  /-- UART_RECEIVE_END (R289). An idle line of IDLE bit times ends a UART receive buffer. -/
  | uartReceiveEnd (f : Fin 8) (t : Nat) (data : List (BitVec 8)) (ok : Bool)
  /-- UART_TRANSMIT (R289). A UART buffer is sent with DE driven from DE_LEAD before to DE_LAG after. -/
  | uartTransmit (f : Fin 8) (t : Nat)
  /-- VISION_TRIGGER_EDGE (R292). A scheduled vision trigger pulse rises at its stamp and falls after WIDTH. -/
  | visionTriggerEdge (o : Fin 16) (rise : Bool)
  /-- STROBE_EDGE (R293). An active edge on a vision strobe input is stamped and posted to OP_VIS_SQ.QUEUE when enabled. -/
  | strobeEdge (n : Fin 16) (e : PinEdge)
  /-- MICRO_STEP (R307). A Tapster context executes one micro-word: operands, ALU, writes, external operation and next address. -/
  | microStep (n : Fin 272)
  /-- XOP_LD (R305). Reads 32 bits at the ALU result into D. -/
  | xopLd (n : Fin 272)
  /-- XOP_ST (R305). Writes D at the ALU result. -/
  | xopSt (n : Fin 272)
  /-- XOP_LDP (R305). Reads 64 bits into D and D + 1. -/
  | xopLdp (n : Fin 272)
  /-- XOP_STP (R305). Writes D and D + 1 as one 64-bit access. -/
  | xopStp (n : Fin 272)
  /-- XOP_STAGE (R305). Writes into the target's staging mirror, taking the interlock and applying FENCE HOLD on the first STAGE. -/
  | xopStage (n : Fin 272)
  /-- XOP_CLOSE (R305). Writes AX_STAGE_GEN with the command's tag, releases the interlock and applies FENCE RELEASE. -/
  | xopClose (n : Fin 272)
  /-- XOP_REPLY (R305). Posts a reply under ACK with the status and DETAIL from the ALU result. -/
  | xopReply (n : Fin 272)
  /-- XOP_POST (R305). Posts Y0–Y7 as a record to a queue, setting XERR if it cannot. -/
  | xopPost (n : Fin 272)
  /-- CONTEXT_RESUME (R306). A context in WAIT resumes when its event occurs, with the stamp in t30–t31 and the event word in t29. -/
  | contextResume (n : Fin 272)
  /-- MC_CMD_LOAD (R314). TAP_MC_CMD LOAD checks, verifies, decrypts and writes a container into the inactive bank. -/
  | mcCmdLoad (r : Req)
  /-- MC_LOAD_COMPLETE (R314). A load ends, setting IVALID when every step passed or recording LDST. -/
  | mcLoadComplete
  /-- MC_CMD_SWAP (R316). TAP_MC_CMD SWAP stops packet taking and waits for commissioning sequences before switching banks. -/
  | mcCmdSwap (r : Req)
  /-- MC_CMD_LOAD_SWAP (R316). TAP_MC_CMD 0b11 loads a container and swaps if the load passes. -/
  | mcCmdLoadSwap (r : Req)
  /-- MC_SWAP_BLOCKED (R316). A swap waiting more than 1 s for commissioning is refused with BLOCKED and packet taking resumes. -/
  | mcSwapBlocked
  /-- MC_INIT_END (R316). The new bank's INIT ends, completing the swap, or faults or overruns and reverts to the old bank. -/
  | mcInitEnd (ok : Bool)
  /-- BUNDLE_EXECUTE (R325). A Reed bundle reads its sources, writes registers and latches, fires triggers and selects the next bundle. -/
  | bundleExecute (c : Fin 16) (item : Fin 8)
  /-- REPEAT (R342). A REPEAT bundle latches its count and runs its body that many times. -/
  | reedRepeat (c : Fin 16) (fld : BitVec 20)
  /-- ADD (R330). ALU trigger: T + O. -/
  | reedAdd (c : Fin 16) (u : Bool) (t : BitVec 64)
  /-- SUB (R330). ALU trigger: T − O. -/
  | reedSub (c : Fin 16) (u : Bool) (t : BitVec 64)
  /-- AND (R330). ALU trigger: T AND O. -/
  | reedAnd (c : Fin 16) (u : Bool) (t : BitVec 64)
  /-- OR (R330). ALU trigger: T OR O. -/
  | reedOr (c : Fin 16) (u : Bool) (t : BitVec 64)
  /-- XOR (R330). ALU trigger: T XOR O. -/
  | reedXor (c : Fin 16) (u : Bool) (t : BitVec 64)
  /-- ANDN (R330). ALU trigger: T AND NOT O. -/
  | reedAndn (c : Fin 16) (u : Bool) (t : BitVec 64)
  /-- SHL (R330). ALU trigger: T shifted left by O. -/
  | reedShl (c : Fin 16) (u : Bool) (t : BitVec 64)
  /-- SHR (R330). ALU trigger: logical right shift. -/
  | reedShr (c : Fin 16) (u : Bool) (t : BitVec 64)
  /-- SAR (R330). ALU trigger: arithmetic right shift. -/
  | reedSar (c : Fin 16) (u : Bool) (t : BitVec 64)
  /-- MIN (R330). ALU trigger: signed minimum. -/
  | reedMin (c : Fin 16) (u : Bool) (t : BitVec 64)
  /-- MAX (R330). ALU trigger: signed maximum. -/
  | reedMax (c : Fin 16) (u : Bool) (t : BitVec 64)
  /-- MINU (R330). ALU trigger: unsigned minimum. -/
  | reedMinu (c : Fin 16) (u : Bool) (t : BitVec 64)
  /-- MAXU (R330). ALU trigger: unsigned maximum. -/
  | reedMaxu (c : Fin 16) (u : Bool) (t : BitVec 64)
  /-- ADDV (R330). ALU trigger: wrapped T + O, raising OVF on signed overflow. -/
  | reedAddv (c : Fin 16) (u : Bool) (t : BitVec 64)
  /-- SUBV (R330). ALU trigger: wrapped T − O, raising OVF on signed overflow. -/
  | reedSubv (c : Fin 16) (u : Bool) (t : BitVec 64)
  /-- MUL (R330). MUL trigger: low 64 bits of T × O. -/
  | reedMul (c : Fin 16) (t : BitVec 64)
  /-- MULHS (R330). MUL trigger: high 64 bits, signed. -/
  | reedMulhs (c : Fin 16) (t : BitVec 64)
  /-- MULHU (R330). MUL trigger: high 64 bits, unsigned. -/
  | reedMulhu (c : Fin 16) (t : BitVec 64)
  /-- DIV (R330). MUL trigger: signed division toward zero, raising DIVZ on zero. -/
  | reedDiv (c : Fin 16) (t : BitVec 64)
  /-- DIVU (R330). MUL trigger: unsigned division. -/
  | reedDivu (c : Fin 16) (t : BitVec 64)
  /-- REM (R330). MUL trigger: remainder of DIV. -/
  | reedRem (c : Fin 16) (t : BitVec 64)
  /-- REMU (R330). MUL trigger: remainder of DIVU. -/
  | reedRemu (c : Fin 16) (t : BitVec 64)
  /-- EQ (R330). CMP trigger: T = O. -/
  | reedEq (c : Fin 16) (t : BitVec 64)
  /-- NE (R330). CMP trigger: T ≠ O. -/
  | reedNe (c : Fin 16) (t : BitVec 64)
  /-- LT (R330). CMP trigger: signed T < O. -/
  | reedLt (c : Fin 16) (t : BitVec 64)
  /-- GE (R330). CMP trigger: signed T ≥ O. -/
  | reedGe (c : Fin 16) (t : BitVec 64)
  /-- LTU (R330). CMP trigger: unsigned T < O. -/
  | reedLtu (c : Fin 16) (t : BitVec 64)
  /-- GEU (R330). CMP trigger: unsigned T ≥ O. -/
  | reedGeu (c : Fin 16) (t : BitVec 64)
  /-- LD8S (R331). Loads 1 byte, sign-extended. -/
  | reedLd8s (c : Fin 16) (t : BitVec 64)
  /-- LD8U (R331). Loads 1 byte, zero-extended. -/
  | reedLd8u (c : Fin 16) (t : BitVec 64)
  /-- LD16S (R331). Loads 2 bytes, sign-extended. -/
  | reedLd16s (c : Fin 16) (t : BitVec 64)
  /-- LD16U (R331). Loads 2 bytes, zero-extended. -/
  | reedLd16u (c : Fin 16) (t : BitVec 64)
  /-- LD32S (R331). Loads 4 bytes, sign-extended. -/
  | reedLd32s (c : Fin 16) (t : BitVec 64)
  /-- LD32U (R331). Loads 4 bytes, zero-extended. -/
  | reedLd32u (c : Fin 16) (t : BitVec 64)
  /-- LD64 (R331). Loads 8 bytes. -/
  | reedLd64 (c : Fin 16) (t : BitVec 64)
  /-- ST8 (R331). Stores 1 byte of SDATA through the store buffer. -/
  | reedSt8 (c : Fin 16) (t : BitVec 64)
  /-- ST16 (R331). Stores 2 bytes of SDATA. -/
  | reedSt16 (c : Fin 16) (t : BitVec 64)
  /-- ST32 (R331). Stores 4 bytes of SDATA. -/
  | reedSt32 (c : Fin 16) (t : BitVec 64)
  /-- ST64 (R331). Stores 8 bytes of SDATA. -/
  | reedSt64 (c : Fin 16) (t : BitVec 64)
  /-- LR64 (R371). Loads 8 bytes and reserves the 64-byte line. -/
  | reedLr64 (c : Fin 16) (t : BitVec 64)
  /-- SC64 (R373). After earlier stores are performed, stores SDATA only if the reservation holds, returning 0 or 1. -/
  | reedSc64 (c : Fin 16) (t : BitVec 64)
  /-- FENCE (R364). An ordering barrier of kind LOAD, DRAIN or FETCH. -/
  | reedFence (c : Fin 16) (t : BitVec 64)
  /-- JMP (R332). Branches to T. -/
  | reedJmp (c : Fin 16) (t : BitVec 64)
  /-- JREL (R332). Branches to PCB + 16 × T. -/
  | reedJrel (c : Fin 16) (t : BitVec 64)
  /-- CALL (R332). Branches to T and links PCB + 16 in lk. -/
  | reedCall (c : Fin 16) (t : BitVec 64)
  /-- CALLR (R332). Branches relative and links PCB + 16 in lk. -/
  | reedCallr (c : Fin 16) (t : BitVec 64)
  /-- FADD (R333). FPU trigger: T + O. -/
  | reedFadd (c : Fin 16) (t : BitVec 64)
  /-- FSUB (R333). FPU trigger: T − O. -/
  | reedFsub (c : Fin 16) (t : BitVec 64)
  /-- FMUL (R333). FPU trigger: T × O. -/
  | reedFmul (c : Fin 16) (t : BitVec 64)
  /-- FDIV (R333). FPU trigger: T ÷ O. -/
  | reedFdiv (c : Fin 16) (t : BitVec 64)
  /-- FSQRT (R333). FPU trigger: square root of T. -/
  | reedFsqrt (c : Fin 16) (t : BitVec 64)
  /-- FMIN (R333). FPU trigger: minimumNumber(T, O). -/
  | reedFmin (c : Fin 16) (t : BitVec 64)
  /-- FMAX (R333). FPU trigger: maximumNumber(T, O). -/
  | reedFmax (c : Fin 16) (t : BitVec 64)
  /-- FCVTIF (R333). FPU trigger: signed integer to binary64. -/
  | reedFcvtif (c : Fin 16) (t : BitVec 64)
  /-- FCVTFI (R333). FPU trigger: binary64 to signed integer toward zero, saturating. -/
  | reedFcvtfi (c : Fin 16) (t : BitVec 64)
  /-- FEQ (R333). FPU trigger: 1 if T = O. -/
  | reedFeq (c : Fin 16) (t : BitVec 64)
  /-- FLT (R333). FPU trigger: 1 if T < O. -/
  | reedFlt (c : Fin 16) (t : BitVec 64)
  /-- FLE (R333). FPU trigger: 1 if T ≤ O. -/
  | reedFle (c : Fin 16) (t : BitVec 64)
  /-- CRD (R334). Reads control register T into the CTL result. -/
  | reedCrd (c : Fin 16) (t : BitVec 64)
  /-- CWR (R337). Writes T to control register CSEL, effective for Sync registers after the next SYNC. -/
  | reedCwr (c : Fin 16) (t : BitVec 64)
  /-- SYNC (R369). Holds the next bundle until earlier results are ready and makes earlier control-register writes take effect. -/
  | reedSync (c : Fin 16)
  /-- MSTONE (R401). Takes a milestone in a safe pair, or acts as SYNC in a split core. -/
  | reedMstone (c : Fin 16)
  /-- SYSCALL (R334). Raises a precise SYSCALL exception after its bundle with the code in T. -/
  | reedSyscall (c : Fin 16) (t : BitVec 64)
  /-- ERET (R389). Returns from an exception, restoring the frame if its target world and level are allowed. -/
  | reedEret (c : Fin 16)
  /-- WFE (R334). Waits until an asynchronous event is pending or a debug halt occurs. -/
  | reedWfe (c : Fin 16)
  /-- BRK (R334). Debug halt when allowed, otherwise a precise BREAK exception. -/
  | reedBrk (c : Fin 16)
  /-- QP_TAIL_DOORBELL (R335). Rings the TAIL doorbell of queue QSEL after earlier stores are performed. -/
  | qpTailDoorbell (c : Fin 16) (t : BitVec 64)
  /-- QP_HEAD_DOORBELL (R335). Rings the HEAD doorbell of queue QSEL after earlier stores are performed. -/
  | qpHeadDoorbell (c : Fin 16) (t : BitVec 64)
  /-- UNIT_RESULT_READY (R350). A unit or load finishes and its result socket becomes valid, releasing any waiting bundle. -/
  | unitResultReady (c : Fin 16) (u : RUnit)
  /-- STORE_PERFORMED (R358). The head store-buffer entry is accepted by its destination and the next entry starts to drain. -/
  | storePerformed (c : Fin 16)
  /-- ARITH_EXCEPTION_DELIVERY (R340). A pending imprecise arithmetic exception is delivered before the first qualifying later bundle. -/
  | arithExceptionDelivery (c : Fin 16)
  /-- ASYNC_EVENT_TAKEN (R382). A pending unmasked asynchronous event is taken at a bundle boundary or an abandoned wait. -/
  | asyncEventTaken (c : Fin 16)
  /-- REPLAY_END (R405). Replay reaches the mismatching bundle and normal execution continues. -/
  | replayEnd (p : Fin 8) (out : Fin 4)
  /-- MILESTONE_TIMER (R401). The expiry of MINT µs since the last milestone makes the pair take a milestone. -/
  | milestoneTimer (p : Fin 8)
  /-- MILESTONE_RESERVATION_WAIT (R401). A milestone that has waited 3 µs for a reservation clears it and is taken. -/
  | milestoneReservationWait (p : Fin 8)
  /-- COMPARATOR_SELF_TEST (R409). Every 1 ms the pair holds issue and injects 96 differing pairs, failing with CMPTEST if a lane does not trip. -/
  | comparatorSelfTest (p : Fin 8) (pass : Bool)
  /-- PAIR_RESTART (R417). SYS_PAIR_CMD RESTART leaves HELD and starts the pair loader. -/
  | pairRestart (r : Req) (p : Fin 8)
  /-- PAIR_RESET_REQUEST (R473). SYS_PAIR_CMD RESET resets the pair, wipes its TCMs and restarts it at its firmware entry. -/
  | pairResetRequest (r : Req) (p : Fin 8)
  /-- SCRUB_READ (R427). The scrubber reads the next word of every memory within SINTV, correcting and reporting errors. -/
  | scrubRead (k : Nat) (upset : Fin 3)
  /-- WIPE_COMPLETE (R434). A memory wipe completes and waiting accesses proceed. -/
  | wipeComplete (w : Fin 14)
  /-- WATCHDOG_KICK (R441). A write to a KICK register advances the two-word kick, completing it or expiring the watchdog on a bad or early kick. -/
  | watchdogKick (r : Req) (w : Fin 9) (v : BitVec 32)
  /-- WATCHDOG_WARN (R441). WARN × 10 µs before expiry by time, the watchdog raises WDWARN to its pair and sets WARNED. -/
  | watchdogWarn (w : Fin 9)
  /-- PAIR_WATCHDOG_EXPIRY (R443). Expiry of a pair watchdog sets PWD and EXP, drives WDO_N and resets and holds the pair. -/
  | pairWatchdogExpiry (p : Fin 8)
  /-- DEVICE_WATCHDOG_EXPIRY (R444). Expiry of the device watchdog sets DWD and starts last orders leading to a warm reset. -/
  | deviceWatchdogExpiry
  /-- DWD_GRACE_END (R444). When the stops read STOPPED or GRACE ms pass, the part makes a warm reset. -/
  | dwdGraceEnd
  /-- EXTF_ASSERT (R439). EXTF_N low for EXTF_FILT × 4 ns sets EXTF and carries out EXTF_ACT on masked axes. -/
  | extfAssert (low : Bool) (e : Edge)
  /-- STOP_TIMEOUT (R440). A supervision stop not at STOPPED within STOPTMO ms shutters its axis with cause STOP. -/
  | stopTimeout (x : Fin 64)
  /-- PF_WARN_INPUT (R447). PF_WARN_N low for PFFILT × 4 ns is detected as a last-orders source. -/
  | pfWarnInput (low : Bool) (e : Edge)
  /-- PF_CRIT_INPUT (R447). PF_CRIT_N low is detected as a last-orders source without filter. -/
  | pfCritInput (low : Bool) (e : Edge)
  /-- SUPPLY_MONITOR_TRIP (R447). PF_VS, VCORE or VANA below threshold is detected as a last-orders source. -/
  | supplyMonitorTrip (src : Fin 3) (low : Bool) (e : Edge)
  /-- LO_RECORD_COMMIT (R453). The record's body, CRC and commit word are written, the buffer becomes valid and LO_DONE rises. -/
  | loRecordCommit
  /-- SNAPSHOT_TIMER (R452). Every SNAP ms the part writes a snapshot record into the older buffer. -/
  | snapshotTimer
  /-- LO_START_CMD (R447). SUP_LO_CMD START starts last orders with source CMD. -/
  | loStartCmd (r : Req)
  /-- LO_END_CMD (R450). SUP_LO_CMD END ends last orders, unless a source still detects. -/
  | loEndCmd (r : Req)
  /-- LO_SNAP_CMD (R452). SUP_LO_CMD SNAP writes a requested snapshot record. -/
  | loSnapCmd (r : Req)
  /-- POWER_GOOD (R458). 1 ms after every rail is in range, PWR_OK is high and RESET_N high, the cold reset is released. -/
  | powerGood (straps : BitVec 4)
  /-- SUPPLY_LOSS (R459). A rail leaving its range holds the part in cold reset, with balls as in cold reset. -/
  | supplyLoss
  /-- RESET_N_ASSERT (R460). RESET_N low for 1 µs or more makes a cold reset. -/
  | resetNAssert
  /-- WARM_RESET_CMD (R475). SYS_RST_CMD with the right key requests a warm reset. -/
  | warmResetCmd (r : Req) (v : BitVec 32)
  /-- VCORE_RETURN (R471). A return of VCORE after last orders with VBAT and RESET_N held is a warm reset, otherwise cold. -/
  | vcoreReturn (kept : Bool)
  /-- TIMEBASE_LOCK (R461). The PLL locks, LOCK sets and the tick counter starts at 0. -/
  | timebaseLock
  /-- VERNIER_CALIBRATED (R461). The first vernier calibration completes and VN_CAL sets. -/
  | vernierCalibrated
  /-- LOCK_LOSS (R462). A missing or off-frequency REFCLK moves the counter to holdover and shutters enabled slices with cause TB. -/
  | lockLoss
  /-- RELOCK (R463). The PLL relocks in frequency, LOCK returns to 1 and HOLD to 0 with no jump in the count. -/
  | relock
  /-- PD_SWITCH_ON (R467). SYS_PD_CMD switches a domain on, returning its state to cold values and wiping its memory. -/
  | pdSwitchOn (r : Req) (d : BitVec 6)
  /-- PD_SWITCH_OFF (R466). SYS_PD_CMD switches a domain off, unless it is fixed or in use. -/
  | pdSwitchOff (r : Req) (d : BitVec 6)
  /-- PD_SWITCH_COMPLETE (R467). A domain switch completes and BUSY clears. -/
  | pdSwitchComplete
  /-- AVS_REFRESH (R468). Every 64,000 tk STEP is refreshed, AVS_UP and AVS_DN are driven and SLOW may set. -/
  | avsRefresh (step : BitVec 10)
  /-- BOOT_ROM (R478). After the on-die wipe, pair P0 runs the boot ROM, chooses a slot, copies sections and loads the microcode. -/
  | bootRom (flash : Bool)
  /-- BOOT_COMPLETE (R478). The boot ROM records pair firmware, sets DONE and starts the pair loaders, or sets ERR. -/
  | bootComplete
  /-- PAIR_LOADER_START (R486). A pair leaving RESET or HELD latches its firmware record, self-tests and copies and hashes its firmware. -/
  | pairLoaderStart (p : Fin 8)
  /-- PAIR_LOADER_END (R486). A matching hash starts the pair at 0x0000_0000, otherwise it enters HELD with PST FAIL. -/
  | pairLoaderEnd (p : Fin 8) (ok : Bool)
  /-- IMG_VERIFY (R487). SYS_IMG_CMD VERIFY authenticates an image in memory and replaces the pair firmware records only if every section passes. -/
  | imgVerify (r : Req)
  /-- IMG_PROGRAM (R488). SYS_IMG_CMD PROGRAM verifies and writes the image into the slot not booted from, header last. -/
  | imgProgram (r : Req)
  /-- IMAGE_ENGINE_COMPLETE (R487). The image engine finishes and reports ST and SECT. -/
  | imageEngineComplete (flash : Bool)
  /-- LC_TRANSITION (R485). SYS_LC_CMD TRANSITION blows life-cycle fuses and makes a cold reset, or is refused. -/
  | lcTransition (r : Req) (v : BitVec 32)
  /-- LC_KEY (R485). SYS_LC_CMD KEY programs an owner key slot or KIMG. -/
  | lcKey (r : Req) (v : BitVec 32)
  /-- LC_REVOKE (R485). SYS_LC_CMD REVOKE revokes an owner key slot. -/
  | lcRevoke (r : Req) (v : BitVec 32)
  /-- LC_FLOOR (R485). SYS_LC_CMD FLOOR raises an image or microcode security floor. -/
  | lcFloor (r : Req) (v : BitVec 32)
  /-- RECOVERY_IMAGE_BOOT (R483). The boot ROM boots an image written into shared SRAM through the Damroth link. -/
  | recoveryImageBoot (a : Nat)
  /-- EXTEST (R492). TAP instruction EXTEST holds the part in cold reset and drives the balls from the boundary cells. -/
  | extest
  /-- IDCODE (R492). TAP instruction IDCODE selects the identification register, 0x1645_0A53. -/
  | idcode
  /-- SAMPLE_PRELOAD (R492). TAP instruction SAMPLE/PRELOAD samples or preloads the boundary cells. -/
  | samplePreload (cells : List Bool)
  /-- BYPASS (R492). TAP instruction BYPASS, and every other code, selects the bypass register. -/
  | bypass
  /-- DMR_RD32 (R499). Damroth RD32 reads 32 bits as the debug bus master, observe or consume. -/
  | dmrRd32 (f : DmrFrame) (a : BitVec 32)
  /-- DMR_WR32 (R499). Damroth WR32 writes 32 bits as the debug bus master with full effect. -/
  | dmrWr32 (f : DmrFrame) (a : BitVec 32) (v : BitVec 32)
  /-- DMR_RD64 (R499). Damroth RD64 reads 64 bits in one access. -/
  | dmrRd64 (f : DmrFrame) (a : BitVec 32)
  /-- DMR_REGRD (R504). Damroth REGRD reads a halted core's register state. -/
  | dmrRegrd (f : DmrFrame) (a : BitVec 32)
  /-- DMR_REGWR (R504). Damroth REGWR writes a halted core's register state. -/
  | dmrRegwr (f : DmrFrame) (a : BitVec 32) (v : BitVec 32)
  /-- SESSION_OPEN (R497). DBG_SESS.OPEN authenticates a Field session against an owner key and draws a new nonce. -/
  | sessionOpen
  /-- SESSION_CLOSE (R498). DBG_SESS.CLOSE closes the session and releases every halt made through the link. -/
  | sessionClose
  /-- SESSION_TIMEOUT (R497). 10 s without a good frame closes the session. -/
  | sessionTimeout
  /-- DEBUG_HALT (R503). DBG_CMD HALT stops a core, pair, Tapster or slice under the halt rules. -/
  | debugHalt (t : BitVec 8)
  /-- BREAKPOINT_MATCH (R502). A bundle-address breakpoint match halts the core before the bundle issues. -/
  | breakpointMatch (c : Fin 16)
  /-- DEBUG_RESUME (R509). DBG_CMD RESUME releases its target. -/
  | debugResume (t : BitVec 8)
  /-- DEBUG_STEP (R506). DBG_CMD STEP runs one bundle or one slice period and halts again. -/
  | debugStep (t : BitVec 8)
  /-- FEED_GO (R505). DBG_FEED_GO runs the fed bundle once at the halted world and level, or refuses it. -/
  | feedGo (item : Fin 8)
  /-- TEST_EN_ASSERT (R460). TEST_EN reading high holds the part in cold reset with CAUSE 2 until it reads low again. -/
  | testEnAssert (low : Bool)
  /-- GATE_FAULT_DEASSERT (R230). A gate fault input that stops being asserted clears AX_GT_STAT.FLT and lets the SHPAT 1 low-side short and a shutter release act again. -/
  | gateFaultDeassert (x : Fin 72) (n : Fin 2)
  /-- ETH_LINK_CHANGE (R284). An Ethernet port's PCS gains or loses link, after auto-negotiation where it applies, and OP_ETH_STAT.LINK changes. -/
  | ethLinkChange (p : Fin 2) (up : Bool)
  deriving DecidableEq, Repr

end Sys2Proof
end

