-- ==== Sys2Proof/Config.lean ====
section
/-! DEFINITION. What an implementation of the part fixes, and the values the spec leaves open. Every free value is a
constant with no body: nothing can be proved of it. -/

namespace Sys2Proof.Config

/-- A fresh free value, by the counter `Mach.fresh` (log entry 2). Nothing constrains it. -/
opaque free : Nat → Nat

/-- The jerk a time-optimal stop uses where several keep it time-optimal (R530), by the limits, the state and the periods left. -/
opaque stopJerk : List Int → List Int → Nat → Nat

/-- The fused device number (R490, SYS_DEVID). -/
opaque devid : BitVec 64

/-- Sign and fraction of a quiet NaN an FPU operation gives (R333 leaves them open), by operation and operands. -/
opaque nan : Nat → BitVec 64 → BitVec 64 → BitVec 64

/-- Whether tininess is detected after rounding (IEEE 754-2019 leaves it to the implementation). -/
opaque tinyAfterRounding : Bool

/-- Whether FCVTFI raises NX where its result is not exact. -/
opaque cvtReportsInexact : Bool

/-- Whether FLT and FLE raise NV on a quiet NaN. -/
opaque orderSignalsQuiet : Bool

/-- SHA-384, as the spec names it and does not write it out (log entry 57). -/
opaque sha384 : List (BitVec 8) → List (BitVec 8)

/-- Whether an ECDSA P-384 signature (third argument, r then s) of a message (second) verifies under a public key (first, X
then Y) over its SHA-384. -/
opaque ecdsa : List (BitVec 8) → List (BitVec 8) → List (BitVec 8) → Bool

/-- AES-256-GCM: key, nonce, tag, ciphertext; the plaintext where the tag verifies. -/
opaque gcm : List (BitVec 8) → List (BitVec 8) → List (BitVec 8) → List (BitVec 8) → Option (List (BitVec 8))

/-- The public key whose SHA-384 an owner slot holds (R481, R497). -/
opaque pubOf : List (BitVec 8) → List (BitVec 8)

/-- The Saleg root public key and the hash of it the ROM holds (R481). -/
opaque salegPub : List (BitVec 8)
opaque salegHash : List (BitVec 8)

/-- The Saleg key that decrypts vendor containers (R481). -/
opaque salegKey : List (BitVec 8)

end Sys2Proof.Config
end

