-- ==== Sys2Proof/Machine/Cards.lean ====
section
/-! DEFINITION. The register map of the spec, written from its field cards (R8, R9, R10) and its offset tables:
one `Fld` per named field, and one `Card` per 32-bit word with the masks its access codes give. The chapter each
register comes from is named in the comment above its fields. -/

namespace Sys2Proof.Machine

/-- The register blocks. `ax` and `cv` are the axis-only and converter-only words of a slice block, `sl` the words
both kinds have (R32); `ctl` numbers the Reed control registers (R336); `dbgc` holds DBG_CSTAT_n (R510). -/
inductive Blk where
  | sys | tb | pg | tw | sl | ax | cv | bank | slot | cell | cmp | cmpw | port | tap | queue
  | pcie | eth | fld | vis | sto | ctl | pair | memb | sup | pwr | boot | dbg | dbgc
  deriving DecidableEq, Repr

/-- A named field: its block, the byte offset of its register (low word) and its bits (0-63). -/
structure Fld where
  blk : Blk
  off : Nat
  hi  : Nat
  lo  : Nat
  deriving DecidableEq, Repr

/-- The same field of the register `d` bytes further on (replicated registers). -/
abbrev Fld.sh (f : Fld) (d : Nat) : Fld := { f with off := f.off + d }

/-- How a 32-bit word takes part in the RL rule R11. -/
inductive RlPart where
  | none | low | high
  deriving DecidableEq, Repr

/-- One 32-bit register word, repeated `n` times every `stride` bytes: reset value, readable bits, and the bits of each
access code of R9. `staged` marks a word written through the staging mirror (R44, R150, R153). -/
structure Card where
  off : Nat
  n : Nat
  stride : Nat
  rst : BitVec 32
  rd : BitVec 32
  rw : BitVec 32
  w1c : BitVec 32
  w1s : BitVec 32
  rc : BitVec 32
  rl : RlPart
  staged : Bool
  deriving DecidableEq, Repr

/-- Whether a word can be read and holds nothing a write acts on: a write of it is ignored (R9). -/
def Card.readOnly (c : Card) : Bool := c.rw ||| c.w1c ||| c.w1s = 0 && c.rd ≠ 0

-- SYS_IDENT (00_scope.md), offset 0x0
abbrev SYS_IDENT.PART : Fld := ⟨.sys, 0x0, 31, 16⟩
abbrev SYS_IDENT.FAMILY : Fld := ⟨.sys, 0x0, 15, 8⟩
abbrev SYS_IDENT.MAJOR : Fld := ⟨.sys, 0x0, 7, 4⟩
abbrev SYS_IDENT.MINOR : Fld := ⟨.sys, 0x0, 3, 0⟩
-- TB_STATUS (02_timebase_and_fences.md), offset 0x0
abbrev TB_STATUS.LOCK : Fld := ⟨.tb, 0x0, 31, 31⟩
abbrev TB_STATUS.VN_CAL : Fld := ⟨.tb, 0x0, 30, 30⟩
abbrev TB_STATUS.RSVW : Fld := ⟨.tb, 0x0, 0, 0⟩
-- TB_NOW (02_timebase_and_fences.md), offset 0x8
abbrev TB_NOW.TICK : Fld := ⟨.tb, 0x8, 63, 6⟩
abbrev TB_NOW.VN : Fld := ⟨.tb, 0x8, 5, 0⟩
-- TB_EVQ (02_timebase_and_fences.md), offset 0x10
abbrev TB_EVQ.EN : Fld := ⟨.tb, 0x10, 31, 31⟩
abbrev TB_EVQ.QUEUE : Fld := ⟨.tb, 0x10, 11, 0⟩
-- TB_PG_PERIOD (02_timebase_and_fences.md), offset 0x0
abbrev TB_PG_PERIOD.P : Fld := ⟨.pg, 0x0, 17, 0⟩
-- TB_PG_PHASE (02_timebase_and_fences.md), offset 0x4
abbrev TB_PG_PHASE.PHASE : Fld := ⟨.pg, 0x4, 17, 0⟩
-- TB_PG_SF (02_timebase_and_fences.md), offset 0x8
abbrev TB_PG_SF.SV : Fld := ⟨.pg, 0x8, 29, 24⟩
abbrev TB_PG_SF.OFS : Fld := ⟨.pg, 0x8, 17, 0⟩
-- TB_PG_CF (02_timebase_and_fences.md), offset 0xC
abbrev TB_PG_CF.OFS : Fld := ⟨.pg, 0xC, 17, 0⟩
-- TB_PG_AF (02_timebase_and_fences.md), offset 0x10
abbrev TB_PG_AF.OFS : Fld := ⟨.pg, 0x10, 17, 0⟩
-- TB_PG_CTRL (02_timebase_and_fences.md), offset 0x14
abbrev TB_PG_CTRL.EN : Fld := ⟨.pg, 0x14, 31, 31⟩
abbrev TB_PG_CTRL.APPLY_HOLD : Fld := ⟨.pg, 0x14, 30, 30⟩
-- TB_PG_STAT (02_timebase_and_fences.md), offset 0x18
abbrev TB_PG_STAT.RUN : Fld := ⟨.pg, 0x18, 31, 31⟩
abbrev TB_PG_STAT.MISS : Fld := ⟨.pg, 0x18, 30, 30⟩
abbrev TB_PG_STAT.DELIV_LATE : Fld := ⟨.pg, 0x18, 29, 29⟩
abbrev TB_PG_STAT.EDGE : Fld := ⟨.pg, 0x18, 28, 28⟩
abbrev TB_PG_STAT.CFG_ERR : Fld := ⟨.pg, 0x18, 26, 24⟩
abbrev TB_PG_STAT.MISS_SLICE : Fld := ⟨.pg, 0x18, 22, 16⟩
abbrev TB_PG_STAT.MISS_CNT : Fld := ⟨.pg, 0x18, 7, 0⟩
-- TB_PG_SLACK (02_timebase_and_fences.md), offset 0x1C
abbrev TB_PG_SLACK.MIN_SLICE : Fld := ⟨.pg, 0x1C, 22, 16⟩
abbrev TB_PG_SLACK.MIN : Fld := ⟨.pg, 0x1C, 15, 0⟩
-- TB_PG_COUNT (02_timebase_and_fences.md), offset 0x20
abbrev TB_PG_COUNT.K : Fld := ⟨.pg, 0x20, 63, 0⟩
-- AX_STAGE_GEN (02_timebase_and_fences.md), offset 0xFF80
abbrev AX_STAGE_GEN.CLOSE : Fld := ⟨.sl, 0xFF80, 31, 31⟩
abbrev AX_STAGE_GEN.TAG : Fld := ⟨.sl, 0xFF80, 15, 0⟩
-- AX_STAGE_STAT (02_timebase_and_fences.md), offset 0xFF84
abbrev AX_STAGE_STAT.OPEN_DIRTY : Fld := ⟨.sl, 0xFF84, 31, 31⟩
abbrev AX_STAGE_STAT.PENDING : Fld := ⟨.sl, 0xFF84, 30, 30⟩
abbrev AX_STAGE_STAT.LOCKED : Fld := ⟨.sl, 0xFF84, 29, 29⟩
abbrev AX_STAGE_STAT.TAP_LOCK : Fld := ⟨.sl, 0xFF84, 28, 28⟩
abbrev AX_STAGE_STAT.APPLIED_TAG : Fld := ⟨.sl, 0xFF84, 15, 0⟩
-- AX_STAGE_AFSTAMP (02_timebase_and_fences.md), offset 0xFF88
abbrev AX_STAGE_AFSTAMP.STAMP : Fld := ⟨.sl, 0xFF88, 63, 0⟩
-- TB_TW_CTRL (02_timebase_and_fences.md), offset 0x0
abbrev TB_TW_CTRL.EN : Fld := ⟨.tw, 0x0, 31, 31⟩
abbrev TB_TW_CTRL.MODE : Fld := ⟨.tw, 0x0, 30, 30⟩
abbrev TB_TW_CTRL.PG : Fld := ⟨.tw, 0x0, 27, 24⟩
abbrev TB_TW_CTRL.ACT : Fld := ⟨.tw, 0x0, 21, 20⟩
abbrev TB_TW_CTRL.AXIS : Fld := ⟨.tw, 0x0, 17, 12⟩
abbrev TB_TW_CTRL.SRC : Fld := ⟨.tw, 0x0, 9, 0⟩
-- TB_TW_RESULT (02_timebase_and_fences.md), offset 0x4
abbrev TB_TW_RESULT.VERDICT : Fld := ⟨.tw, 0x4, 31, 29⟩
abbrev TB_TW_RESULT.ARB : Fld := ⟨.tw, 0x4, 28, 28⟩
abbrev TB_TW_RESULT.ARB_DIR : Fld := ⟨.tw, 0x4, 27, 27⟩
abbrev TB_TW_RESULT.FAILS : Fld := ⟨.tw, 0x4, 7, 0⟩
-- TB_TW_OPEN (02_timebase_and_fences.md), offset 0x8
abbrev TB_TW_OPEN.BOUND : Fld := ⟨.tw, 0x8, 63, 0⟩
-- TB_TW_CLOSE (02_timebase_and_fences.md), offset 0x10
abbrev TB_TW_CLOSE.BOUND : Fld := ⟨.tw, 0x10, 63, 0⟩
-- TB_TW_STAMP (02_timebase_and_fences.md), offset 0x18
abbrev TB_TW_STAMP.STAMP : Fld := ⟨.tw, 0x18, 63, 0⟩
-- CB_CTRL (03_current_converters.md), offset 0x0
abbrev CB_CTRL.EN : Fld := ⟨.bank, 0x0, 31, 31⟩
abbrev CB_CTRL.INJ_QEN : Fld := ⟨.bank, 0x0, 30, 30⟩
abbrev CB_CTRL.INJ_Q : Fld := ⟨.bank, 0x0, 11, 0⟩
-- CB_STAT (03_current_converters.md), offset 0x4
abbrev CB_STAT.READY : Fld := ⟨.bank, 0x4, 31, 31⟩
abbrev CB_STAT.NO_SPARE : Fld := ⟨.bank, 0x4, 30, 30⟩
abbrev CB_STAT.CAL_BUSY : Fld := ⟨.bank, 0x4, 29, 29⟩
abbrev CB_STAT.CFG_ERR : Fld := ⟨.bank, 0x4, 26, 24⟩
abbrev CB_STAT.MATCH_FAIL : Fld := ⟨.bank, 0x4, 2, 2⟩
abbrev CB_STAT.INJ_DROP : Fld := ⟨.bank, 0x4, 1, 1⟩
abbrev CB_STAT.RSVW : Fld := ⟨.bank, 0x4, 0, 0⟩
-- CB_CAL_CTRL (03_current_converters.md), offset 0x8
abbrev CB_CAL_CTRL.AUTO : Fld := ⟨.bank, 0x8, 31, 31⟩
abbrev CB_CAL_CTRL.GAP : Fld := ⟨.bank, 0x8, 23, 16⟩
abbrev CB_CAL_CTRL.MATCH : Fld := ⟨.bank, 0x8, 7, 0⟩
-- CB_CAL_CMD (03_current_converters.md), offset 0xC
abbrev CB_CAL_CMD.CMD : Fld := ⟨.bank, 0xC, 2, 0⟩
-- CB_CAL_STAT (03_current_converters.md), offset 0x10
abbrev CB_CAL_STAT.SLOT : Fld := ⟨.bank, 0x10, 31, 28⟩
abbrev CB_CAL_STAT.PHASE : Fld := ⟨.bank, 0x10, 26, 24⟩
abbrev CB_CAL_STAT.NEXT : Fld := ⟨.bank, 0x10, 23, 20⟩
abbrev CB_CAL_STAT.SPARE : Fld := ⟨.bank, 0x10, 19, 16⟩
abbrev CB_CAL_STAT.BAD : Fld := ⟨.bank, 0x10, 13, 0⟩
-- CB_CAL_CNT (03_current_converters.md), offset 0x14
abbrev CB_CAL_CNT.STEPS : Fld := ⟨.bank, 0x14, 31, 16⟩
abbrev CB_CAL_CNT.FAIL : Fld := ⟨.bank, 0x14, 7, 0⟩
-- CB_INJ_REQ (03_current_converters.md), offset 0x18
abbrev CB_INJ_REQ.GO : Fld := ⟨.bank, 0x18, 31, 31⟩
abbrev CB_INJ_REQ.TIMED : Fld := ⟨.bank, 0x18, 30, 30⟩
abbrev CB_INJ_REQ.PG : Fld := ⟨.bank, 0x18, 27, 24⟩
abbrev CB_INJ_REQ.SRC : Fld := ⟨.bank, 0x18, 19, 16⟩
abbrev CB_INJ_REQ.CMP : Fld := ⟨.bank, 0x18, 15, 8⟩
abbrev CB_INJ_REQ.TAG : Fld := ⟨.bank, 0x18, 7, 0⟩
-- CB_INJ_RES (03_current_converters.md), offset 0x1C
abbrev CB_INJ_RES.VALID : Fld := ⟨.bank, 0x1C, 31, 31⟩
abbrev CB_INJ_RES.ST : Fld := ⟨.bank, 0x1C, 30, 28⟩
abbrev CB_INJ_RES.SRC : Fld := ⟨.bank, 0x1C, 27, 24⟩
abbrev CB_INJ_RES.TAG : Fld := ⟨.bank, 0x1C, 23, 16⟩
abbrev CB_INJ_RES.CODE : Fld := ⟨.bank, 0x1C, 15, 0⟩
-- CB_INJ_STAT (03_current_converters.md), offset 0x20
abbrev CB_INJ_STAT.PEND : Fld := ⟨.bank, 0x20, 2, 0⟩
-- CB_SLOT_FCFG (03_current_converters.md), offset 0x0
abbrev CB_SLOT_FCFG.MODE : Fld := ⟨.slot, 0x0, 31, 31⟩
abbrev CB_SLOT_FCFG.ORDER : Fld := ⟨.slot, 0x0, 29, 28⟩
abbrev CB_SLOT_FCFG.WLEN : Fld := ⟨.slot, 0x0, 13, 0⟩
-- CB_SLOT_STAT (03_current_converters.md), offset 0x4
abbrev CB_SLOT_STAT.SETTLED : Fld := ⟨.slot, 0x4, 31, 31⟩
abbrev CB_SLOT_STAT.LOCKED : Fld := ⟨.slot, 0x4, 30, 30⟩
abbrev CB_SLOT_STAT.LOCK_ERR : Fld := ⟨.slot, 0x4, 29, 29⟩
abbrev CB_SLOT_STAT.OVR : Fld := ⟨.slot, 0x4, 28, 28⟩
abbrev CB_SLOT_STAT.M : Fld := ⟨.slot, 0x4, 19, 16⟩
abbrev CB_SLOT_STAT.CELL : Fld := ⟨.slot, 0x4, 3, 0⟩
-- CB_SLOT_RES (03_current_converters.md), offset 0x8
abbrev CB_SLOT_RES.FLT : Fld := ⟨.slot, 0x8, 31, 16⟩
abbrev CB_SLOT_RES.RAW : Fld := ⟨.slot, 0x8, 15, 0⟩
-- CB_SLOT_GRID (03_current_converters.md), offset 0xC
abbrev CB_SLOT_GRID.N : Fld := ⟨.slot, 0xC, 30, 16⟩
abbrev CB_SLOT_GRID.W : Fld := ⟨.slot, 0xC, 13, 0⟩
-- CB_SLOT_LIVE (03_current_converters.md), offset 0x10
abbrev CB_SLOT_LIVE.CODE : Fld := ⟨.slot, 0x10, 15, 0⟩
-- CB_CELL_OFS (03_current_converters.md), offset 0x0
abbrev CB_CELL_OFS.OFS : Fld := ⟨.cell, 0x0, 15, 0⟩
-- CB_CELL_GAIN (03_current_converters.md), offset 0x4
abbrev CB_CELL_GAIN.GAIN : Fld := ⟨.cell, 0x4, 15, 0⟩
-- CB_CELL_ROLE (03_current_converters.md), offset 0x8
abbrev CB_CELL_ROLE.ROLE : Fld := ⟨.cell, 0x8, 31, 30⟩
abbrev CB_CELL_ROLE.SLOT : Fld := ⟨.cell, 0x8, 27, 24⟩
-- CMP_CTRL (04_comparators_and_windows.md), offset 0x0
abbrev CMP_CTRL.EN : Fld := ⟨.cmp, 0x0, 31, 31⟩
abbrev CMP_CTRL.ARM : Fld := ⟨.cmp, 0x0, 30, 30⟩
abbrev CMP_CTRL.MODE : Fld := ⟨.cmp, 0x0, 29, 28⟩
abbrev CMP_CTRL.DIR : Fld := ⟨.cmp, 0x0, 27, 27⟩
abbrev CMP_CTRL.INIT : Fld := ⟨.cmp, 0x0, 26, 26⟩
abbrev CMP_CTRL.THR_SYNC : Fld := ⟨.cmp, 0x0, 25, 25⟩
abbrev CMP_CTRL.INSEL : Fld := ⟨.cmp, 0x0, 3, 0⟩
-- CMP_THR (04_comparators_and_windows.md), offset 0x4
abbrev CMP_THR.LIVE : Fld := ⟨.cmp, 0x4, 25, 16⟩
abbrev CMP_THR.THR : Fld := ⟨.cmp, 0x4, 9, 0⟩
-- CMP_CHAT (04_comparators_and_windows.md), offset 0x8
abbrev CMP_CHAT.BLEN : Fld := ⟨.cmp, 0x8, 23, 16⟩
abbrev CMP_CHAT.BSRC : Fld := ⟨.cmp, 0x8, 10, 8⟩
abbrev CMP_CHAT.HYST : Fld := ⟨.cmp, 0x8, 1, 0⟩
-- CMP_ACT (04_comparators_and_windows.md), offset 0xC
abbrev CMP_ACT.CHOP : Fld := ⟨.cmp, 0xC, 31, 31⟩
abbrev CMP_ACT.SHUT : Fld := ⟨.cmp, 0xC, 30, 30⟩
abbrev CMP_ACT.EVT : Fld := ⟨.cmp, 0xC, 29, 29⟩
abbrev CMP_ACT.LO : Fld := ⟨.cmp, 0xC, 28, 28⟩
abbrev CMP_ACT.EVREL : Fld := ⟨.cmp, 0xC, 27, 27⟩
abbrev CMP_ACT.FAILSHUT : Fld := ⟨.cmp, 0xC, 26, 26⟩
abbrev CMP_ACT.OWN : Fld := ⟨.cmp, 0xC, 22, 16⟩
abbrev CMP_ACT.LEG : Fld := ⟨.cmp, 0xC, 13, 12⟩
abbrev CMP_ACT.EVQ : Fld := ⟨.cmp, 0xC, 11, 0⟩
-- CMP_STAT (04_comparators_and_windows.md), offset 0x10
abbrev CMP_STAT.OUT : Fld := ⟨.cmp, 0x10, 31, 31⟩
abbrev CMP_STAT.UNRES : Fld := ⟨.cmp, 0x10, 30, 30⟩
abbrev CMP_STAT.RAW : Fld := ⟨.cmp, 0x10, 29, 29⟩
abbrev CMP_STAT.CHOPPING : Fld := ⟨.cmp, 0x10, 28, 28⟩
abbrev CMP_STAT.TRIP : Fld := ⟨.cmp, 0x10, 27, 27⟩
abbrev CMP_STAT.BLANK_HIT : Fld := ⟨.cmp, 0x10, 26, 26⟩
abbrev CMP_STAT.CHK_FAIL : Fld := ⟨.cmp, 0x10, 25, 25⟩
abbrev CMP_STAT.EVDROP : Fld := ⟨.cmp, 0x10, 24, 24⟩
abbrev CMP_STAT.ARB : Fld := ⟨.cmp, 0x10, 23, 23⟩
abbrev CMP_STAT.ARB_DIR : Fld := ⟨.cmp, 0x10, 22, 22⟩
abbrev CMP_STAT.CFG_ERR : Fld := ⟨.cmp, 0x10, 18, 16⟩
abbrev CMP_STAT.RSVW : Fld := ⟨.cmp, 0x10, 0, 0⟩
-- CMP_CNT (04_comparators_and_windows.md), offset 0x14
abbrev CMP_CNT.TRIPS : Fld := ⟨.cmp, 0x14, 15, 0⟩
-- CMP_STAMP (04_comparators_and_windows.md), offset 0x18
abbrev CMP_STAMP.STAMP : Fld := ⟨.cmp, 0x18, 63, 0⟩
-- CMP_CHK (04_comparators_and_windows.md), offset 0x20
abbrev CMP_CHK.PG : Fld := ⟨.cmp, 0x20, 11, 8⟩
abbrev CMP_CHK.WHEN : Fld := ⟨.cmp, 0x20, 4, 4⟩
abbrev CMP_CHK.CMD : Fld := ⟨.cmp, 0x20, 2, 0⟩
-- CMP_CHK_RES (04_comparators_and_windows.md), offset 0x24
abbrev CMP_CHK_RES.ST : Fld := ⟨.cmp, 0x24, 31, 28⟩
abbrev CMP_CHK_RES.BUSY : Fld := ⟨.cmp, 0x24, 27, 27⟩
abbrev CMP_CHK_RES.CODE : Fld := ⟨.cmp, 0x24, 15, 0⟩
-- CMP_CHK_CFG (04_comparators_and_windows.md), offset 0x28
abbrev CMP_CHK_CFG.AUTO : Fld := ⟨.cmp, 0x28, 31, 30⟩
abbrev CMP_CHK_CFG.INTV : Fld := ⟨.cmp, 0x28, 23, 16⟩
abbrev CMP_CHK_CFG.RB_TOL : Fld := ⟨.cmp, 0x28, 7, 0⟩
-- CMP_WIN_CTRL (04_comparators_and_windows.md), offset 0x80
abbrev CMP_WIN_CTRL.EN : Fld := ⟨.cmpw, 0x80, 31, 31⟩
abbrev CMP_WIN_CTRL.SENSE : Fld := ⟨.cmpw, 0x80, 30, 30⟩
-- CMP_WIN_STAT (04_comparators_and_windows.md), offset 0x84
abbrev CMP_WIN_STAT.OUT : Fld := ⟨.cmpw, 0x84, 31, 31⟩
abbrev CMP_WIN_STAT.UNRES : Fld := ⟨.cmpw, 0x84, 30, 30⟩
abbrev CMP_WIN_STAT.TRIP : Fld := ⟨.cmpw, 0x84, 29, 29⟩
abbrev CMP_WIN_STAT.TRIPS : Fld := ⟨.cmpw, 0x84, 15, 0⟩
-- PP_CTRL (05_position_ports.md), offset 0x0
abbrev PP_CTRL.EN : Fld := ⟨.port, 0x0, 31, 31⟩
abbrev PP_CTRL.IF : Fld := ⟨.port, 0x0, 29, 28⟩
abbrev PP_CTRL.EXTRAP : Fld := ⟨.port, 0x0, 27, 27⟩
abbrev PP_CTRL.GRAY : Fld := ⟨.port, 0x0, 26, 26⟩
abbrev PP_CTRL.IDX : Fld := ⟨.port, 0x0, 25, 24⟩
-- PP_MAP (05_position_ports.md), offset 0x4
abbrev PP_MAP.ROLE : Fld := ⟨.port, 0x4, 31, 30⟩
abbrev PP_MAP.AXIS : Fld := ⟨.port, 0x4, 22, 16⟩
abbrev PP_MAP.PG : Fld := ⟨.port, 0x4, 3, 0⟩
-- PP_STAT (05_position_ports.md), offset 0x8
abbrev PP_STAT.VALID : Fld := ⟨.port, 0x8, 31, 31⟩
abbrev PP_STAT.LOSS : Fld := ⟨.port, 0x8, 30, 30⟩
abbrev PP_STAT.RUN : Fld := ⟨.port, 0x8, 29, 29⟩
abbrev PP_STAT.LOS : Fld := ⟨.port, 0x8, 28, 28⟩
abbrev PP_STAT.FAILED : Fld := ⟨.port, 0x8, 27, 27⟩
abbrev PP_STAT.IDX_SKIP : Fld := ⟨.port, 0x8, 26, 26⟩
abbrev PP_STAT.WARN : Fld := ⟨.port, 0x8, 25, 25⟩
abbrev PP_STAT.LAST : Fld := ⟨.port, 0x8, 23, 20⟩
abbrev PP_STAT.CFG_ERR : Fld := ⟨.port, 0x8, 18, 16⟩
abbrev PP_STAT.RUNFAIL : Fld := ⟨.port, 0x8, 15, 12⟩
abbrev PP_STAT.RSVW : Fld := ⟨.port, 0x8, 0, 0⟩
-- PP_QCFG (05_position_ports.md), offset 0xC
abbrev PP_QCFG.ZPOL : Fld := ⟨.port, 0xC, 5, 5⟩
abbrev PP_QCFG.DIR : Fld := ⟨.port, 0xC, 4, 4⟩
abbrev PP_QCFG.FILT : Fld := ⟨.port, 0xC, 2, 0⟩
-- PP_SCFG (05_position_ports.md), offset 0x10
abbrev PP_SCFG.DLEN : Fld := ⟨.port, 0x10, 29, 24⟩
abbrev PP_SCFG.ACK_MAX : Fld := ⟨.port, 0x10, 23, 16⟩
abbrev PP_SCFG.MAPER : Fld := ⟨.port, 0x10, 11, 0⟩
-- PP_SLEAD (05_position_ports.md), offset 0x14
abbrev PP_SLEAD.LEAD : Fld := ⟨.port, 0x14, 17, 0⟩
-- PP_CRC (05_position_ports.md), offset 0x18
abbrev PP_CRC.LEN : Fld := ⟨.port, 0x18, 31, 28⟩
abbrev PP_CRC.POLY : Fld := ⟨.port, 0x18, 15, 0⟩
-- PP_FAIL (05_position_ports.md), offset 0x1C
abbrev PP_FAIL.ACT : Fld := ⟨.port, 0x1C, 29, 28⟩
abbrev PP_FAIL.EVQ : Fld := ⟨.port, 0x1C, 23, 12⟩
abbrev PP_FAIL.LIMIT : Fld := ⟨.port, 0x1C, 3, 0⟩
-- PP_POS (05_position_ports.md), offset 0x20
abbrev PP_POS.POS : Fld := ⟨.port, 0x20, 63, 0⟩
-- PP_STAMP (05_position_ports.md), offset 0x28
abbrev PP_STAMP.STAMP : Fld := ⟨.port, 0x28, 63, 0⟩
-- PP_EDGE (05_position_ports.md), offset 0x30
abbrev PP_EDGE.STAMP : Fld := ⟨.port, 0x30, 63, 0⟩
-- PP_IDX_POS (05_position_ports.md), offset 0x40
abbrev PP_IDX_POS.POS : Fld := ⟨.port, 0x40, 63, 0⟩
-- PP_IDX_STAMP (05_position_ports.md), offset 0x48
abbrev PP_IDX_STAMP.STAMP : Fld := ⟨.port, 0x48, 63, 0⟩
-- PP_PRESET (05_position_ports.md), offset 0x50
abbrev PP_PRESET.VAL : Fld := ⟨.port, 0x50, 63, 0⟩
-- PP_DELTA (05_position_ports.md), offset 0x38
abbrev PP_DELTA.DELTA : Fld := ⟨.port, 0x38, 31, 0⟩
-- PP_SEQ (05_position_ports.md), offset 0x3C
abbrev PP_SEQ.SEQ : Fld := ⟨.port, 0x3C, 15, 0⟩
-- PP_BISS_CMD (05_position_ports.md), offset 0x60
abbrev PP_BISS_CMD.GO : Fld := ⟨.port, 0x60, 31, 31⟩
abbrev PP_BISS_CMD.WR : Fld := ⟨.port, 0x60, 30, 30⟩
abbrev PP_BISS_CMD.ID : Fld := ⟨.port, 0x60, 26, 24⟩
abbrev PP_BISS_CMD.ADDR : Fld := ⟨.port, 0x60, 22, 16⟩
abbrev PP_BISS_CMD.DATA : Fld := ⟨.port, 0x60, 7, 0⟩
-- PP_BISS_RES (05_position_ports.md), offset 0x64
abbrev PP_BISS_RES.DONE : Fld := ⟨.port, 0x64, 31, 31⟩
abbrev PP_BISS_RES.ST : Fld := ⟨.port, 0x64, 30, 28⟩
abbrev PP_BISS_RES.DATA : Fld := ⟨.port, 0x64, 7, 0⟩
-- AX_CTRL (06_loop_slice_datapath.md), offset 0x0
abbrev AX_CTRL.EN : Fld := ⟨.ax, 0x0, 31, 31⟩
abbrev AX_CTRL.MODE : Fld := ⟨.ax, 0x0, 29, 28⟩
abbrev AX_CTRL.ISRC : Fld := ⟨.ax, 0x0, 27, 27⟩
abbrev AX_CTRL.PFAIL : Fld := ⟨.ax, 0x0, 26, 26⟩
abbrev AX_CTRL.BSEL : Fld := ⟨.ax, 0x0, 25, 25⟩
abbrev AX_CTRL.PG : Fld := ⟨.ax, 0x0, 19, 16⟩
abbrev AX_CTRL.GCH : Fld := ⟨.ax, 0x0, 10, 8⟩
-- CV_CTRL (06_loop_slice_datapath.md), offset 0x0
abbrev CV_CTRL.EN : Fld := ⟨.cv, 0x0, 31, 31⟩
abbrev CV_CTRL.MODE : Fld := ⟨.cv, 0x0, 29, 28⟩
abbrev CV_CTRL.ISRC : Fld := ⟨.cv, 0x0, 27, 27⟩
abbrev CV_CTRL.BSEL : Fld := ⟨.cv, 0x0, 25, 25⟩
abbrev CV_CTRL.PG : Fld := ⟨.cv, 0x0, 19, 16⟩
abbrev CV_CTRL.LEGS : Fld := ⟨.cv, 0x0, 13, 12⟩
-- AX_CHAIN (06_loop_slice_datapath.md), offset 0x4
abbrev AX_CHAIN.BQ : Fld := ⟨.ax, 0x4, 7, 4⟩
abbrev AX_CHAIN.FF : Fld := ⟨.ax, 0x4, 3, 3⟩
abbrev AX_CHAIN.VL : Fld := ⟨.ax, 0x4, 2, 2⟩
abbrev AX_CHAIN.PL : Fld := ⟨.ax, 0x4, 1, 1⟩
abbrev AX_CHAIN.CM : Fld := ⟨.ax, 0x4, 0, 0⟩
-- AX_CPR (06_loop_slice_datapath.md), offset 0x8
abbrev AX_CPR.CPR : Fld := ⟨.ax, 0x8, 47, 0⟩
-- AX_POLE (06_loop_slice_datapath.md), offset 0x10
abbrev AX_POLE.POLES : Fld := ⟨.ax, 0x10, 6, 0⟩
-- AX_ANG_OFS (06_loop_slice_datapath.md), offset 0x14
abbrev AX_ANG_OFS.V : Fld := ⟨.ax, 0x14, 31, 0⟩
-- AX_ISCALE (06_loop_slice_datapath.md), offset 0x18
abbrev AX_ISCALE.EXP : Fld := ⟨.sl, 0x18, 28, 24⟩
abbrev AX_ISCALE.MANT : Fld := ⟨.sl, 0x18, 19, 0⟩
-- AX_VSCALE (06_loop_slice_datapath.md), offset 0x1C
abbrev AX_VSCALE.EXP : Fld := ⟨.sl, 0x1C, 28, 24⟩
abbrev AX_VSCALE.MANT : Fld := ⟨.sl, 0x1C, 19, 0⟩
-- AX_PSCALE (06_loop_slice_datapath.md), offset 0x20
abbrev AX_PSCALE.EXP : Fld := ⟨.ax, 0x20, 28, 24⟩
abbrev AX_PSCALE.MANT : Fld := ⟨.ax, 0x20, 19, 0⟩
-- AX_WSCALE (06_loop_slice_datapath.md), offset 0x24
abbrev AX_WSCALE.EXP : Fld := ⟨.ax, 0x24, 28, 24⟩
abbrev AX_WSCALE.MANT : Fld := ⟨.ax, 0x24, 19, 0⟩
-- AX_EXP (06_loop_slice_datapath.md), offset 0x28
abbrev AX_EXP.VE : Fld := ⟨.ax, 0x28, 27, 24⟩
abbrev AX_EXP.CM : Fld := ⟨.ax, 0x28, 23, 20⟩
abbrev AX_EXP.PL : Fld := ⟨.ax, 0x28, 19, 16⟩
abbrev AX_EXP.VL : Fld := ⟨.ax, 0x28, 15, 12⟩
abbrev AX_EXP.BQ : Fld := ⟨.ax, 0x28, 11, 8⟩
abbrev AX_EXP.FF : Fld := ⟨.ax, 0x28, 7, 4⟩
abbrev AX_EXP.DQ : Fld := ⟨.ax, 0x28, 3, 0⟩
-- CV_EXP (06_loop_slice_datapath.md), offset 0x28
abbrev CV_EXP.CV : Fld := ⟨.cv, 0x28, 3, 0⟩
-- AX_BUS (06_loop_slice_datapath.md), offset 0x2C
abbrev AX_BUS.BUSCH : Fld := ⟨.ax, 0x2C, 3, 0⟩
-- AX_VBUS_FIX (06_loop_slice_datapath.md), offset 0x30
abbrev AX_VBUS_FIX.EXP : Fld := ⟨.ax, 0x30, 28, 24⟩
abbrev AX_VBUS_FIX.MANT : Fld := ⟨.ax, 0x30, 19, 0⟩
-- AX_MAP (06_loop_slice_datapath.md), offset 0x34
abbrev AX_MAP.MODE : Fld := ⟨.ax, 0x34, 31, 30⟩
abbrev AX_MAP.PAGE : Fld := ⟨.ax, 0x34, 29, 24⟩
abbrev AX_MAP.YAXIS : Fld := ⟨.ax, 0x34, 21, 16⟩
abbrev AX_MAP.LX : Fld := ⟨.ax, 0x34, 7, 4⟩
abbrev AX_MAP.LY : Fld := ⟨.ax, 0x34, 3, 0⟩
-- AX_MAP_XORG (06_loop_slice_datapath.md), offset 0x38
abbrev AX_MAP_XORG.V : Fld := ⟨.ax, 0x38, 63, 0⟩
-- AX_MAP_XSTEP (06_loop_slice_datapath.md), offset 0x40
abbrev AX_MAP_XSTEP.V : Fld := ⟨.ax, 0x40, 31, 0⟩
-- AX_MAP_YORG (06_loop_slice_datapath.md), offset 0x44
abbrev AX_MAP_YORG.V : Fld := ⟨.ax, 0x44, 63, 0⟩
-- AX_MAP_YSTEP (06_loop_slice_datapath.md), offset 0x4C
abbrev AX_MAP_YSTEP.V : Fld := ⟨.ax, 0x4C, 31, 0⟩
-- AX_IREF_D (06_loop_slice_datapath.md), offset 0x50
abbrev AX_IREF_D.EXP : Fld := ⟨.ax, 0x50, 28, 24⟩
abbrev AX_IREF_D.MANT : Fld := ⟨.ax, 0x50, 19, 0⟩
-- AX_IREF_Q (06_loop_slice_datapath.md), offset 0x54
abbrev AX_IREF_Q.EXP : Fld := ⟨.ax, 0x54, 28, 24⟩
abbrev AX_IREF_Q.MANT : Fld := ⟨.ax, 0x54, 19, 0⟩
-- AX_THERM (06_loop_slice_datapath.md), offset 0x58
abbrev AX_THERM.EXP : Fld := ⟨.ax, 0x58, 28, 24⟩
abbrev AX_THERM.MANT : Fld := ⟨.ax, 0x58, 19, 0⟩
-- BK_KP_D (06_loop_slice_datapath.md), offset 0x2000 + 4096 i, i < 2
abbrev BK_KP_D.EXP : Fld := ⟨.ax, 0x2000, 28, 24⟩
abbrev BK_KP_D.MANT : Fld := ⟨.ax, 0x2000, 19, 0⟩
-- BK_KI_D (06_loop_slice_datapath.md), offset 0x2004 + 4096 i, i < 2
abbrev BK_KI_D.EXP : Fld := ⟨.ax, 0x2004, 28, 24⟩
abbrev BK_KI_D.MANT : Fld := ⟨.ax, 0x2004, 19, 0⟩
-- BK_KP_Q (06_loop_slice_datapath.md), offset 0x2008 + 4096 i, i < 2
abbrev BK_KP_Q.EXP : Fld := ⟨.ax, 0x2008, 28, 24⟩
abbrev BK_KP_Q.MANT : Fld := ⟨.ax, 0x2008, 19, 0⟩
-- BK_KI_Q (06_loop_slice_datapath.md), offset 0x200C + 4096 i, i < 2
abbrev BK_KI_Q.EXP : Fld := ⟨.ax, 0x200C, 28, 24⟩
abbrev BK_KI_Q.MANT : Fld := ⟨.ax, 0x200C, 19, 0⟩
-- BK_XD (06_loop_slice_datapath.md), offset 0x2010 + 4096 i, i < 2
abbrev BK_XD.EXP : Fld := ⟨.ax, 0x2010, 28, 24⟩
abbrev BK_XD.MANT : Fld := ⟨.ax, 0x2010, 19, 0⟩
-- BK_XQ (06_loop_slice_datapath.md), offset 0x2014 + 4096 i, i < 2
abbrev BK_XQ.EXP : Fld := ⟨.ax, 0x2014, 28, 24⟩
abbrev BK_XQ.MANT : Fld := ⟨.ax, 0x2014, 19, 0⟩
-- BK_PSIW (06_loop_slice_datapath.md), offset 0x2018 + 4096 i, i < 2
abbrev BK_PSIW.EXP : Fld := ⟨.ax, 0x2018, 28, 24⟩
abbrev BK_PSIW.MANT : Fld := ⟨.ax, 0x2018, 19, 0⟩
-- BK_VDQ_MAX (06_loop_slice_datapath.md), offset 0x201C + 4096 i, i < 2
abbrev BK_VDQ_MAX.EXP : Fld := ⟨.ax, 0x201C, 28, 24⟩
abbrev BK_VDQ_MAX.MANT : Fld := ⟨.ax, 0x201C, 19, 0⟩
-- BK_MOD_MAX (06_loop_slice_datapath.md), offset 0x2020 + 4096 i, i < 2
abbrev BK_MOD_MAX.EXP : Fld := ⟨.ax, 0x2020, 28, 24⟩
abbrev BK_MOD_MAX.MANT : Fld := ⟨.ax, 0x2020, 19, 0⟩
-- BK_ADV (06_loop_slice_datapath.md), offset 0x2024 + 4096 i, i < 2
abbrev BK_ADV.EXP : Fld := ⟨.ax, 0x2024, 28, 24⟩
abbrev BK_ADV.MANT : Fld := ⟨.ax, 0x2024, 19, 0⟩
-- BK_DMIN (06_loop_slice_datapath.md), offset 0x2028 + 4096 i, i < 2
abbrev BK_DMIN.EXP : Fld := ⟨.ax, 0x2028, 28, 24⟩
abbrev BK_DMIN.MANT : Fld := ⟨.ax, 0x2028, 19, 0⟩
-- BK_DMAX (06_loop_slice_datapath.md), offset 0x202C + 4096 i, i < 2
abbrev BK_DMAX.EXP : Fld := ⟨.ax, 0x202C, 28, 24⟩
abbrev BK_DMAX.MANT : Fld := ⟨.ax, 0x202C, 19, 0⟩
-- BK_IMAX (06_loop_slice_datapath.md), offset 0x2030 + 4096 i, i < 2
abbrev BK_IMAX.EXP : Fld := ⟨.ax, 0x2030, 28, 24⟩
abbrev BK_IMAX.MANT : Fld := ⟨.ax, 0x2030, 19, 0⟩
-- BK_ZLIM (06_loop_slice_datapath.md), offset 0x2034 + 4096 i, i < 2
abbrev BK_ZLIM.EXP : Fld := ⟨.ax, 0x2034, 28, 24⟩
abbrev BK_ZLIM.MANT : Fld := ⟨.ax, 0x2034, 19, 0⟩
-- BK_KT_INV (06_loop_slice_datapath.md), offset 0x2038 + 4096 i, i < 2
abbrev BK_KT_INV.EXP : Fld := ⟨.ax, 0x2038, 28, 24⟩
abbrev BK_KT_INV.MANT : Fld := ⟨.ax, 0x2038, 19, 0⟩
-- BK_KP_V (06_loop_slice_datapath.md), offset 0x2040 + 4096 i, i < 2
abbrev BK_KP_V.EXP : Fld := ⟨.ax, 0x2040, 28, 24⟩
abbrev BK_KP_V.MANT : Fld := ⟨.ax, 0x2040, 19, 0⟩
-- BK_KI_V (06_loop_slice_datapath.md), offset 0x2044 + 4096 i, i < 2
abbrev BK_KI_V.EXP : Fld := ⟨.ax, 0x2044, 28, 24⟩
abbrev BK_KI_V.MANT : Fld := ⟨.ax, 0x2044, 19, 0⟩
-- BK_TLIM (06_loop_slice_datapath.md), offset 0x2048 + 4096 i, i < 2
abbrev BK_TLIM.EXP : Fld := ⟨.ax, 0x2048, 28, 24⟩
abbrev BK_TLIM.MANT : Fld := ⟨.ax, 0x2048, 19, 0⟩
-- BK_KP_P (06_loop_slice_datapath.md), offset 0x204C + 4096 i, i < 2
abbrev BK_KP_P.EXP : Fld := ⟨.ax, 0x204C, 28, 24⟩
abbrev BK_KP_P.MANT : Fld := ⟨.ax, 0x204C, 19, 0⟩
-- BK_KI_P (06_loop_slice_datapath.md), offset 0x2050 + 4096 i, i < 2
abbrev BK_KI_P.EXP : Fld := ⟨.ax, 0x2050, 28, 24⟩
abbrev BK_KI_P.MANT : Fld := ⟨.ax, 0x2050, 19, 0⟩
-- BK_VLIM (06_loop_slice_datapath.md), offset 0x2054 + 4096 i, i < 2
abbrev BK_VLIM.EXP : Fld := ⟨.ax, 0x2054, 28, 24⟩
abbrev BK_VLIM.MANT : Fld := ⟨.ax, 0x2054, 19, 0⟩
-- BK_KVF (06_loop_slice_datapath.md), offset 0x2058 + 4096 i, i < 2
abbrev BK_KVF.EXP : Fld := ⟨.ax, 0x2058, 28, 24⟩
abbrev BK_KVF.MANT : Fld := ⟨.ax, 0x2058, 19, 0⟩
-- BK_KA (06_loop_slice_datapath.md), offset 0x2060 + 4096 i, i < 2
abbrev BK_KA.EXP : Fld := ⟨.ax, 0x2060, 28, 24⟩
abbrev BK_KA.MANT : Fld := ⟨.ax, 0x2060, 19, 0⟩
-- BK_KFV (06_loop_slice_datapath.md), offset 0x2064 + 4096 i, i < 2
abbrev BK_KFV.EXP : Fld := ⟨.ax, 0x2064, 28, 24⟩
abbrev BK_KFV.MANT : Fld := ⟨.ax, 0x2064, 19, 0⟩
-- BK_KFC (06_loop_slice_datapath.md), offset 0x2068 + 4096 i, i < 2
abbrev BK_KFC.EXP : Fld := ⟨.ax, 0x2068, 28, 24⟩
abbrev BK_KFC.MANT : Fld := ⟨.ax, 0x2068, 19, 0⟩
-- BK_RVBAND (06_loop_slice_datapath.md), offset 0x206C + 4096 i, i < 2
abbrev BK_RVBAND.EXP : Fld := ⟨.ax, 0x206C, 28, 24⟩
abbrev BK_RVBAND.MANT : Fld := ⟨.ax, 0x206C, 19, 0⟩
-- BK_B0_A (06_loop_slice_datapath.md), offset 0x2080 + 32 i, i < 4
abbrev BK_B0_A.EXP : Fld := ⟨.ax, 0x2080, 28, 24⟩
abbrev BK_B0_A.MANT : Fld := ⟨.ax, 0x2080, 19, 0⟩
-- BK_B0_B (06_loop_slice_datapath.md), offset 0x3080 + 32 i, i < 4
abbrev BK_B0_B.EXP : Fld := ⟨.ax, 0x3080, 28, 24⟩
abbrev BK_B0_B.MANT : Fld := ⟨.ax, 0x3080, 19, 0⟩
-- BK_B1_A (06_loop_slice_datapath.md), offset 0x2084 + 32 i, i < 4
abbrev BK_B1_A.EXP : Fld := ⟨.ax, 0x2084, 28, 24⟩
abbrev BK_B1_A.MANT : Fld := ⟨.ax, 0x2084, 19, 0⟩
-- BK_B1_B (06_loop_slice_datapath.md), offset 0x3084 + 32 i, i < 4
abbrev BK_B1_B.EXP : Fld := ⟨.ax, 0x3084, 28, 24⟩
abbrev BK_B1_B.MANT : Fld := ⟨.ax, 0x3084, 19, 0⟩
-- BK_B2_A (06_loop_slice_datapath.md), offset 0x2088 + 32 i, i < 4
abbrev BK_B2_A.EXP : Fld := ⟨.ax, 0x2088, 28, 24⟩
abbrev BK_B2_A.MANT : Fld := ⟨.ax, 0x2088, 19, 0⟩
-- BK_B2_B (06_loop_slice_datapath.md), offset 0x3088 + 32 i, i < 4
abbrev BK_B2_B.EXP : Fld := ⟨.ax, 0x3088, 28, 24⟩
abbrev BK_B2_B.MANT : Fld := ⟨.ax, 0x3088, 19, 0⟩
-- BK_A1_A (06_loop_slice_datapath.md), offset 0x208C + 32 i, i < 4
abbrev BK_A1_A.EXP : Fld := ⟨.ax, 0x208C, 28, 24⟩
abbrev BK_A1_A.MANT : Fld := ⟨.ax, 0x208C, 19, 0⟩
-- BK_A1_B (06_loop_slice_datapath.md), offset 0x308C + 32 i, i < 4
abbrev BK_A1_B.EXP : Fld := ⟨.ax, 0x308C, 28, 24⟩
abbrev BK_A1_B.MANT : Fld := ⟨.ax, 0x308C, 19, 0⟩
-- BK_A2_A (06_loop_slice_datapath.md), offset 0x2090 + 32 i, i < 4
abbrev BK_A2_A.EXP : Fld := ⟨.ax, 0x2090, 28, 24⟩
abbrev BK_A2_A.MANT : Fld := ⟨.ax, 0x2090, 19, 0⟩
-- BK_A2_B (06_loop_slice_datapath.md), offset 0x3090 + 32 i, i < 4
abbrev BK_A2_B.EXP : Fld := ⟨.ax, 0x3090, 28, 24⟩
abbrev BK_A2_B.MANT : Fld := ⟨.ax, 0x3090, 19, 0⟩
-- CB_KP_VB (06_loop_slice_datapath.md), offset 0x2000 + 4096 i, i < 2
abbrev CB_KP_VB.EXP : Fld := ⟨.cv, 0x2000, 28, 24⟩
abbrev CB_KP_VB.MANT : Fld := ⟨.cv, 0x2000, 19, 0⟩
-- CB_KI_VB (06_loop_slice_datapath.md), offset 0x2004 + 4096 i, i < 2
abbrev CB_KI_VB.EXP : Fld := ⟨.cv, 0x2004, 28, 24⟩
abbrev CB_KI_VB.MANT : Fld := ⟨.cv, 0x2004, 19, 0⟩
-- CB_KP_I (06_loop_slice_datapath.md), offset 0x2008 + 4096 i, i < 2
abbrev CB_KP_I.EXP : Fld := ⟨.cv, 0x2008, 28, 24⟩
abbrev CB_KP_I.MANT : Fld := ⟨.cv, 0x2008, 19, 0⟩
-- CB_KI_I (06_loop_slice_datapath.md), offset 0x200C + 4096 i, i < 2
abbrev CB_KI_I.EXP : Fld := ⟨.cv, 0x200C, 28, 24⟩
abbrev CB_KI_I.MANT : Fld := ⟨.cv, 0x200C, 19, 0⟩
-- CB_IMAX_SRC (06_loop_slice_datapath.md), offset 0x2010 + 4096 i, i < 2
abbrev CB_IMAX_SRC.EXP : Fld := ⟨.cv, 0x2010, 28, 24⟩
abbrev CB_IMAX_SRC.MANT : Fld := ⟨.cv, 0x2010, 19, 0⟩
-- CB_IMAX_SNK (06_loop_slice_datapath.md), offset 0x2014 + 4096 i, i < 2
abbrev CB_IMAX_SNK.EXP : Fld := ⟨.cv, 0x2014, 28, 24⟩
abbrev CB_IMAX_SNK.MANT : Fld := ⟨.cv, 0x2014, 19, 0⟩
-- CB_DMIN (06_loop_slice_datapath.md), offset 0x2018 + 4096 i, i < 2
abbrev CB_DMIN.EXP : Fld := ⟨.cv, 0x2018, 28, 24⟩
abbrev CB_DMIN.MANT : Fld := ⟨.cv, 0x2018, 19, 0⟩
-- CB_DMAX (06_loop_slice_datapath.md), offset 0x201C + 4096 i, i < 2
abbrev CB_DMAX.EXP : Fld := ⟨.cv, 0x201C, 28, 24⟩
abbrev CB_DMAX.MANT : Fld := ⟨.cv, 0x201C, 19, 0⟩
-- CB_D_FF (06_loop_slice_datapath.md), offset 0x2020 + 4096 i, i < 2
abbrev CB_D_FF.EXP : Fld := ⟨.cv, 0x2020, 28, 24⟩
abbrev CB_D_FF.MANT : Fld := ⟨.cv, 0x2020, 19, 0⟩
-- CB_KB (06_loop_slice_datapath.md), offset 0x2024 + 4096 i, i < 2
abbrev CB_KB.EXP : Fld := ⟨.cv, 0x2024, 28, 24⟩
abbrev CB_KB.MANT : Fld := ⟨.cv, 0x2024, 19, 0⟩
-- CB_V_ON (06_loop_slice_datapath.md), offset 0x2028 + 4096 i, i < 2
abbrev CB_V_ON.EXP : Fld := ⟨.cv, 0x2028, 28, 24⟩
abbrev CB_V_ON.MANT : Fld := ⟨.cv, 0x2028, 19, 0⟩
-- AX_STICKY (06_loop_slice_datapath.md), offset 0x8000
abbrev AX_STICKY.DLMISS : Fld := ⟨.ax, 0x8000, 31, 31⟩
abbrev AX_STICKY.LIMITED : Fld := ⟨.ax, 0x8000, 30, 30⟩
abbrev AX_STICKY.OVF_VE : Fld := ⟨.ax, 0x8000, 23, 23⟩
abbrev AX_STICKY.OVF_CM : Fld := ⟨.ax, 0x8000, 22, 22⟩
abbrev AX_STICKY.OVF_PL : Fld := ⟨.ax, 0x8000, 21, 21⟩
abbrev AX_STICKY.OVF_VL : Fld := ⟨.ax, 0x8000, 20, 20⟩
abbrev AX_STICKY.OVF_BQ : Fld := ⟨.ax, 0x8000, 19, 19⟩
abbrev AX_STICKY.OVF_FF : Fld := ⟨.ax, 0x8000, 18, 18⟩
abbrev AX_STICKY.OVF_DQ : Fld := ⟨.ax, 0x8000, 17, 17⟩
abbrev AX_STICKY.CLMP_PL : Fld := ⟨.ax, 0x8000, 12, 12⟩
abbrev AX_STICKY.CLMP_VL : Fld := ⟨.ax, 0x8000, 11, 11⟩
abbrev AX_STICKY.ILIM : Fld := ⟨.ax, 0x8000, 10, 10⟩
abbrev AX_STICKY.VSAT : Fld := ⟨.ax, 0x8000, 9, 9⟩
abbrev AX_STICKY.DCLIP : Fld := ⟨.ax, 0x8000, 8, 8⟩
abbrev AX_STICKY.ZSEQ : Fld := ⟨.ax, 0x8000, 4, 4⟩
abbrev AX_STICKY.POS_HOLD : Fld := ⟨.ax, 0x8000, 3, 3⟩
abbrev AX_STICKY.MAP_OOR : Fld := ⟨.ax, 0x8000, 2, 2⟩
abbrev AX_STICKY.VBUS_LOW : Fld := ⟨.ax, 0x8000, 1, 1⟩
-- CV_STICKY (06_loop_slice_datapath.md), offset 0x8000
abbrev CV_STICKY.DLMISS : Fld := ⟨.cv, 0x8000, 31, 31⟩
abbrev CV_STICKY.CLMP_V : Fld := ⟨.cv, 0x8000, 21, 21⟩
abbrev CV_STICKY.OVF_CV : Fld := ⟨.cv, 0x8000, 17, 17⟩
abbrev CV_STICKY.ILIM : Fld := ⟨.cv, 0x8000, 10, 10⟩
abbrev CV_STICKY.DCLIP : Fld := ⟨.cv, 0x8000, 8, 8⟩
-- AX_STATE (06_loop_slice_datapath.md), offset 0x8004
abbrev AX_STATE.RUN : Fld := ⟨.sl, 0x8004, 31, 31⟩
abbrev AX_STATE.BANK : Fld := ⟨.sl, 0x8004, 30, 30⟩
abbrev AX_STATE.CFG_ERR : Fld := ⟨.sl, 0x8004, 18, 16⟩
abbrev AX_STATE.RSVW : Fld := ⟨.sl, 0x8004, 0, 0⟩
-- AX_OUT_ID (06_loop_slice_datapath.md), offset 0x8010
abbrev AX_OUT_ID.EXP : Fld := ⟨.sl, 0x8010, 28, 24⟩
abbrev AX_OUT_ID.MANT : Fld := ⟨.sl, 0x8010, 19, 0⟩
-- AX_OUT_IQ (06_loop_slice_datapath.md), offset 0x8014
abbrev AX_OUT_IQ.EXP : Fld := ⟨.sl, 0x8014, 28, 24⟩
abbrev AX_OUT_IQ.MANT : Fld := ⟨.sl, 0x8014, 19, 0⟩
-- AX_OUT_VD (06_loop_slice_datapath.md), offset 0x8018
abbrev AX_OUT_VD.EXP : Fld := ⟨.ax, 0x8018, 28, 24⟩
abbrev AX_OUT_VD.MANT : Fld := ⟨.ax, 0x8018, 19, 0⟩
-- AX_OUT_VQ (06_loop_slice_datapath.md), offset 0x801C
abbrev AX_OUT_VQ.EXP : Fld := ⟨.ax, 0x801C, 28, 24⟩
abbrev AX_OUT_VQ.MANT : Fld := ⟨.ax, 0x801C, 19, 0⟩
-- AX_OUT_IDREF (06_loop_slice_datapath.md), offset 0x8020
abbrev AX_OUT_IDREF.EXP : Fld := ⟨.sl, 0x8020, 28, 24⟩
abbrev AX_OUT_IDREF.MANT : Fld := ⟨.sl, 0x8020, 19, 0⟩
-- AX_OUT_IQREF (06_loop_slice_datapath.md), offset 0x8024
abbrev AX_OUT_IQREF.EXP : Fld := ⟨.ax, 0x8024, 28, 24⟩
abbrev AX_OUT_IQREF.MANT : Fld := ⟨.ax, 0x8024, 19, 0⟩
-- AX_OUT_VFB (06_loop_slice_datapath.md), offset 0x8028
abbrev AX_OUT_VFB.EXP : Fld := ⟨.ax, 0x8028, 28, 24⟩
abbrev AX_OUT_VFB.MANT : Fld := ⟨.ax, 0x8028, 19, 0⟩
-- AX_OUT_TAU (06_loop_slice_datapath.md), offset 0x802C
abbrev AX_OUT_TAU.EXP : Fld := ⟨.ax, 0x802C, 28, 24⟩
abbrev AX_OUT_TAU.MANT : Fld := ⟨.ax, 0x802C, 19, 0⟩
-- AX_OUT_DAB (06_loop_slice_datapath.md), offset 0x8030
abbrev AX_OUT_DAB.V : Fld := ⟨.sl, 0x8030, 31, 0⟩
-- AX_OUT_DC (06_loop_slice_datapath.md), offset 0x8034
abbrev AX_OUT_DC.V : Fld := ⟨.ax, 0x8034, 15, 0⟩
-- AX_OUT_THETA (06_loop_slice_datapath.md), offset 0x8038
abbrev AX_OUT_THETA.V : Fld := ⟨.ax, 0x8038, 31, 0⟩
-- AX_OUT_FLAGS (06_loop_slice_datapath.md), offset 0x803C
abbrev AX_OUT_FLAGS.V : Fld := ⟨.sl, 0x803C, 31, 0⟩
-- AX_OUT_PFB (06_loop_slice_datapath.md), offset 0x8040
abbrev AX_OUT_PFB.V : Fld := ⟨.ax, 0x8040, 63, 0⟩
-- AX_LIM_CTRL (07_loop_slice_operation.md), offset 0x6000
abbrev AX_LIM_CTRL.MODE : Fld := ⟨.ax, 0x6000, 31, 30⟩
-- AX_LIM_VMAX (07_loop_slice_operation.md), offset 0x6008
abbrev AX_LIM_VMAX.VAL : Fld := ⟨.ax, 0x6008, 63, 0⟩
-- AX_LIM_AMAX (07_loop_slice_operation.md), offset 0x6010
abbrev AX_LIM_AMAX.VAL : Fld := ⟨.ax, 0x6010, 63, 0⟩
-- AX_LIM_DMAX (07_loop_slice_operation.md), offset 0x6018
abbrev AX_LIM_DMAX.VAL : Fld := ⟨.ax, 0x6018, 63, 0⟩
-- AX_LIM_JMAX (07_loop_slice_operation.md), offset 0x6020
abbrev AX_LIM_JMAX.VAL : Fld := ⟨.ax, 0x6020, 63, 0⟩
-- AX_STOP_DMAX (07_loop_slice_operation.md), offset 0x6030
abbrev AX_STOP_DMAX.VAL : Fld := ⟨.ax, 0x6030, 63, 0⟩
-- AX_STOP_JMAX (07_loop_slice_operation.md), offset 0x6038
abbrev AX_STOP_JMAX.VAL : Fld := ⟨.ax, 0x6038, 63, 0⟩
-- AX_SP_POS (07_loop_slice_operation.md), offset 0x6040
abbrev AX_SP_POS.POS : Fld := ⟨.ax, 0x6040, 63, 0⟩
-- AX_SP_VEL (07_loop_slice_operation.md), offset 0x6048
abbrev AX_SP_VEL.VAL : Fld := ⟨.ax, 0x6048, 63, 0⟩
-- AX_SP_ACC (07_loop_slice_operation.md), offset 0x6050
abbrev AX_SP_ACC.VAL : Fld := ⟨.ax, 0x6050, 63, 0⟩
-- AX_LIM_ASCALE (07_loop_slice_operation.md), offset 0x6028
abbrev AX_LIM_ASCALE.EXP : Fld := ⟨.ax, 0x6028, 28, 24⟩
abbrev AX_LIM_ASCALE.MANT : Fld := ⟨.ax, 0x6028, 19, 0⟩
-- AX_SP_TAG (07_loop_slice_operation.md), offset 0x6058
abbrev AX_SP_TAG.TAG : Fld := ⟨.ax, 0x6058, 15, 0⟩
-- AX_STOP_CTRL (07_loop_slice_operation.md), offset 0x6060
abbrev AX_STOP_CTRL.LO : Fld := ⟨.ax, 0x6060, 31, 31⟩
abbrev AX_STOP_CTRL.END : Fld := ⟨.ax, 0x6060, 30, 30⟩
abbrev AX_STOP_CTRL.PAIR : Fld := ⟨.ax, 0x6060, 3, 0⟩
-- AX_OSC (07_loop_slice_operation.md), offset 0x6080
abbrev AX_OSC.GO : Fld := ⟨.ax, 0x6080, 31, 31⟩
abbrev AX_OSC.SEED : Fld := ⟨.ax, 0x6080, 1, 0⟩
-- AX_LIM_STAT (07_loop_slice_operation.md), offset 0x6100
abbrev AX_LIM_STAT.AT_REST : Fld := ⟨.ax, 0x6100, 31, 31⟩
abbrev AX_LIM_STAT.LOCK : Fld := ⟨.ax, 0x6100, 30, 30⟩
abbrev AX_LIM_STAT.PHASE : Fld := ⟨.ax, 0x6100, 29, 27⟩
-- AX_LIM_OUT_P (07_loop_slice_operation.md), offset 0x6108
abbrev AX_LIM_OUT_P.POS : Fld := ⟨.ax, 0x6108, 63, 0⟩
-- AX_LIM_OUT_V (07_loop_slice_operation.md), offset 0x6110
abbrev AX_LIM_OUT_V.VAL : Fld := ⟨.ax, 0x6110, 63, 0⟩
-- AX_LIM_OUT_A (07_loop_slice_operation.md), offset 0x6118
abbrev AX_LIM_OUT_A.VAL : Fld := ⟨.ax, 0x6118, 63, 0⟩
-- AX_LIM_TAG_A (07_loop_slice_operation.md), offset 0x6120
abbrev AX_LIM_TAG_A.DONE : Fld := ⟨.ax, 0x6120, 31, 16⟩
abbrev AX_LIM_TAG_A.ACTIVE : Fld := ⟨.ax, 0x6120, 15, 0⟩
-- AX_LIM_TAG_S (07_loop_slice_operation.md), offset 0x6124
abbrev AX_LIM_TAG_S.SUPD : Fld := ⟨.ax, 0x6124, 15, 0⟩
-- AX_OSC_STAT (07_loop_slice_operation.md), offset 0x6128
abbrev AX_OSC_STAT.PHASE : Fld := ⟨.ax, 0x6128, 31, 30⟩
abbrev AX_OSC_STAT.COUNT : Fld := ⟨.ax, 0x6128, 15, 0⟩
-- AX_LIM_CMD (07_loop_slice_operation.md), offset 0x6140
abbrev AX_LIM_CMD.CMD : Fld := ⟨.ax, 0x6140, 1, 0⟩
-- AX_DL_CFG (07_loop_slice_operation.md), offset 0x8080
abbrev AX_DL_CFG.ACT : Fld := ⟨.sl, 0x8080, 31, 30⟩
abbrev AX_DL_CFG.CONSEC : Fld := ⟨.sl, 0x8080, 11, 8⟩
abbrev AX_DL_CFG.RATE : Fld := ⟨.sl, 0x8080, 7, 0⟩
-- AX_DL_STAT (07_loop_slice_operation.md), offset 0x8084
abbrev AX_DL_STAT.ESC : Fld := ⟨.sl, 0x8084, 31, 31⟩
abbrev AX_DL_STAT.CAUSE : Fld := ⟨.sl, 0x8084, 30, 28⟩
abbrev AX_DL_STAT.WIN : Fld := ⟨.sl, 0x8084, 23, 16⟩
abbrev AX_DL_STAT.RUN : Fld := ⟨.sl, 0x8084, 11, 8⟩
abbrev AX_DL_STAT.TOTAL : Fld := ⟨.sl, 0x8084, 7, 0⟩
-- AX_EVQ (07_loop_slice_operation.md), offset 0x8088
abbrev AX_EVQ.KMASK : Fld := ⟨.sl, 0x8088, 29, 24⟩
abbrev AX_EVQ.QUEUE : Fld := ⟨.sl, 0x8088, 11, 0⟩
-- AX_TRC_CTRL (07_loop_slice_operation.md), offset 0xA000
abbrev AX_TRC_CTRL.MODE : Fld := ⟨.sl, 0xA000, 31, 30⟩
abbrev AX_TRC_CTRL.SWTRIG : Fld := ⟨.sl, 0xA000, 29, 29⟩
abbrev AX_TRC_CTRL.DSZ : Fld := ⟨.sl, 0xA000, 28, 24⟩
abbrev AX_TRC_CTRL.DEC : Fld := ⟨.sl, 0xA000, 23, 16⟩
abbrev AX_TRC_CTRL.POST : Fld := ⟨.sl, 0xA000, 9, 0⟩
-- AX_TRC_SEL (07_loop_slice_operation.md), offset 0xA004
abbrev AX_TRC_SEL.N3 : Fld := ⟨.sl, 0xA004, 31, 24⟩
abbrev AX_TRC_SEL.N2 : Fld := ⟨.sl, 0xA004, 23, 16⟩
abbrev AX_TRC_SEL.N1 : Fld := ⟨.sl, 0xA004, 15, 8⟩
abbrev AX_TRC_SEL.N0 : Fld := ⟨.sl, 0xA004, 7, 0⟩
-- AX_TRC_TRIG (07_loop_slice_operation.md), offset 0xA008
abbrev AX_TRC_TRIG.MASK : Fld := ⟨.sl, 0xA008, 31, 0⟩
-- AX_TRC_DBASE (07_loop_slice_operation.md), offset 0xA010
abbrev AX_TRC_DBASE.DBASE : Fld := ⟨.sl, 0xA010, 31, 0⟩
-- AX_TRC_STAT (07_loop_slice_operation.md), offset 0xA014
abbrev AX_TRC_STAT.DONE : Fld := ⟨.sl, 0xA014, 31, 31⟩
abbrev AX_TRC_STAT.OVR : Fld := ⟨.sl, 0xA014, 30, 30⟩
abbrev AX_TRC_STAT.TRIGD : Fld := ⟨.sl, 0xA014, 29, 29⟩
abbrev AX_TRC_STAT.SELGEN : Fld := ⟨.sl, 0xA014, 7, 0⟩
-- AX_TRC_WPTR (07_loop_slice_operation.md), offset 0xA018
abbrev AX_TRC_WPTR.WPTR : Fld := ⟨.sl, 0xA018, 31, 0⟩
-- AX_CPL_CTRL (08_coupling_and_energy.md), offset 0x6200
abbrev AX_CPL_CTRL.EN : Fld := ⟨.ax, 0x6200, 31, 31⟩
abbrev AX_CPL_CTRL.EVQ : Fld := ⟨.ax, 0x6200, 11, 0⟩
-- AX_CPL_SEL (08_coupling_and_energy.md), offset 0x6210 + 8 i, i < 8
abbrev AX_CPL_SEL.QTY : Fld := ⟨.ax, 0x6210, 10, 8⟩
abbrev AX_CPL_SEL.SRC : Fld := ⟨.ax, 0x6210, 5, 0⟩
-- AX_CPL_GAIN (08_coupling_and_energy.md), offset 0x6214 + 8 i, i < 8
abbrev AX_CPL_GAIN.EXP : Fld := ⟨.ax, 0x6214, 28, 24⟩
abbrev AX_CPL_GAIN.MANT : Fld := ⟨.ax, 0x6214, 19, 0⟩
-- AX_GAN_CTRL (08_coupling_and_energy.md), offset 0x6280
abbrev AX_GAN_CTRL.EN : Fld := ⟨.ax, 0x6280, 31, 31⟩
abbrev AX_GAN_CTRL.ACT : Fld := ⟨.ax, 0x6280, 29, 28⟩
abbrev AX_GAN_CTRL.MASTER : Fld := ⟨.ax, 0x6280, 5, 0⟩
-- AX_GAN_KP (08_coupling_and_energy.md), offset 0x6284
abbrev AX_GAN_KP.EXP : Fld := ⟨.ax, 0x6284, 28, 24⟩
abbrev AX_GAN_KP.MANT : Fld := ⟨.ax, 0x6284, 19, 0⟩
-- AX_GAN_KI (08_coupling_and_energy.md), offset 0x6288
abbrev AX_GAN_KI.EXP : Fld := ⟨.ax, 0x6288, 28, 24⟩
abbrev AX_GAN_KI.MANT : Fld := ⟨.ax, 0x6288, 19, 0⟩
-- AX_GAN_KD (08_coupling_and_energy.md), offset 0x628C
abbrev AX_GAN_KD.EXP : Fld := ⟨.ax, 0x628C, 28, 24⟩
abbrev AX_GAN_KD.MANT : Fld := ⟨.ax, 0x628C, 19, 0⟩
-- AX_GAN_YLIM (08_coupling_and_energy.md), offset 0x6290
abbrev AX_GAN_YLIM.EXP : Fld := ⟨.ax, 0x6290, 28, 24⟩
abbrev AX_GAN_YLIM.MANT : Fld := ⟨.ax, 0x6290, 19, 0⟩
-- AX_GAN_PSCALE (08_coupling_and_energy.md), offset 0x6294
abbrev AX_GAN_PSCALE.EXP : Fld := ⟨.ax, 0x6294, 28, 24⟩
abbrev AX_GAN_PSCALE.MANT : Fld := ⟨.ax, 0x6294, 19, 0⟩
-- AX_GAN_OFS (08_coupling_and_energy.md), offset 0x6298
abbrev AX_GAN_OFS.V : Fld := ⟨.ax, 0x6298, 63, 0⟩
-- AX_GAN_TRIP (08_coupling_and_energy.md), offset 0x62A0
abbrev AX_GAN_TRIP.V : Fld := ⟨.ax, 0x62A0, 63, 0⟩
-- AX_ENV_CTRL (08_coupling_and_energy.md), offset 0x62C0
abbrev AX_ENV_CTRL.EN : Fld := ⟨.ax, 0x62C0, 31, 31⟩
abbrev AX_ENV_CTRL.STOP : Fld := ⟨.ax, 0x62C0, 30, 30⟩
abbrev AX_ENV_CTRL.HARD : Fld := ⟨.ax, 0x62C0, 29, 29⟩
abbrev AX_ENV_CTRL.PARTNER : Fld := ⟨.ax, 0x62C0, 5, 0⟩
-- AX_ENV_OFS (08_coupling_and_energy.md), offset 0x62C8
abbrev AX_ENV_OFS.V : Fld := ⟨.ax, 0x62C8, 63, 0⟩
-- AX_ENV_GAP (08_coupling_and_energy.md), offset 0x62D0
abbrev AX_ENV_GAP.V : Fld := ⟨.ax, 0x62D0, 63, 0⟩
-- AX_ENV_HARD (08_coupling_and_energy.md), offset 0x62D8
abbrev AX_ENV_HARD.V : Fld := ⟨.ax, 0x62D8, 63, 0⟩
-- AX_CPL_STAT (08_coupling_and_energy.md), offset 0x6300
abbrev AX_CPL_STAT.GAN_ON : Fld := ⟨.ax, 0x6300, 31, 31⟩
abbrev AX_CPL_STAT.ENV_ON : Fld := ⟨.ax, 0x6300, 30, 30⟩
abbrev AX_CPL_STAT.YAW_TRIP : Fld := ⟨.ax, 0x6300, 2, 2⟩
abbrev AX_CPL_STAT.ENV_STOP : Fld := ⟨.ax, 0x6300, 1, 1⟩
abbrev AX_CPL_STAT.ENV_HARD : Fld := ⟨.ax, 0x6300, 0, 0⟩
-- AX_GAN_ERR (08_coupling_and_energy.md), offset 0x6308
abbrev AX_GAN_ERR.V : Fld := ⟨.ax, 0x6308, 63, 0⟩
-- AX_ENV_SEP (08_coupling_and_energy.md), offset 0x6310
abbrev AX_ENV_SEP.V : Fld := ⟨.ax, 0x6310, 63, 0⟩
-- AX_PWR_KJ (08_coupling_and_energy.md), offset 0x6340
abbrev AX_PWR_KJ.EXP : Fld := ⟨.ax, 0x6340, 28, 24⟩
abbrev AX_PWR_KJ.MANT : Fld := ⟨.ax, 0x6340, 19, 0⟩
-- AX_PWR_KV (08_coupling_and_energy.md), offset 0x6344
abbrev AX_PWR_KV.EXP : Fld := ⟨.ax, 0x6344, 28, 24⟩
abbrev AX_PWR_KV.MANT : Fld := ⟨.ax, 0x6344, 19, 0⟩
-- AX_PWR_KC (08_coupling_and_energy.md), offset 0x6348
abbrev AX_PWR_KC.EXP : Fld := ⟨.ax, 0x6348, 28, 24⟩
abbrev AX_PWR_KC.MANT : Fld := ⟨.ax, 0x6348, 19, 0⟩
-- AX_PWR_KR (08_coupling_and_energy.md), offset 0x634C
abbrev AX_PWR_KR.EXP : Fld := ⟨.ax, 0x634C, 28, 24⟩
abbrev AX_PWR_KR.MANT : Fld := ⟨.ax, 0x634C, 19, 0⟩
-- CV_VREF (08_coupling_and_energy.md), offset 0x6000
abbrev CV_VREF.EXP : Fld := ⟨.cv, 0x6000, 28, 24⟩
abbrev CV_VREF.MANT : Fld := ⟨.cv, 0x6000, 19, 0⟩
-- CV_FFB (08_coupling_and_energy.md), offset 0x6004
abbrev CV_FFB.EXP : Fld := ⟨.cv, 0x6004, 28, 24⟩
abbrev CV_FFB.MANT : Fld := ⟨.cv, 0x6004, 19, 0⟩
-- CV_PAUX (08_coupling_and_energy.md), offset 0x6008
abbrev CV_PAUX.EXP : Fld := ⟨.cv, 0x6008, 28, 24⟩
abbrev CV_PAUX.MANT : Fld := ⟨.cv, 0x6008, 19, 0⟩
-- CV_BUS_VMAX (08_coupling_and_energy.md), offset 0x6010
abbrev CV_BUS_VMAX.EXP : Fld := ⟨.cv, 0x6010, 28, 24⟩
abbrev CV_BUS_VMAX.MANT : Fld := ⟨.cv, 0x6010, 19, 0⟩
-- CV_BUS_VMIN (08_coupling_and_energy.md), offset 0x6014
abbrev CV_BUS_VMIN.EXP : Fld := ⟨.cv, 0x6014, 28, 24⟩
abbrev CV_BUS_VMIN.MANT : Fld := ⟨.cv, 0x6014, 19, 0⟩
-- CV_ST_SCALE (08_coupling_and_energy.md), offset 0x6018
abbrev CV_ST_SCALE.EXP : Fld := ⟨.cv, 0x6018, 28, 24⟩
abbrev CV_ST_SCALE.MANT : Fld := ⟨.cv, 0x6018, 19, 0⟩
-- CV_ST_VMAX (08_coupling_and_energy.md), offset 0x601C
abbrev CV_ST_VMAX.EXP : Fld := ⟨.cv, 0x601C, 28, 24⟩
abbrev CV_ST_VMAX.MANT : Fld := ⟨.cv, 0x601C, 19, 0⟩
-- CV_ST_VMIN (08_coupling_and_energy.md), offset 0x6020
abbrev CV_ST_VMIN.EXP : Fld := ⟨.cv, 0x6020, 28, 24⟩
abbrev CV_ST_VMIN.MANT : Fld := ⟨.cv, 0x6020, 19, 0⟩
-- CV_GRID_KP (08_coupling_and_energy.md), offset 0x6030
abbrev CV_GRID_KP.EXP : Fld := ⟨.cv, 0x6030, 28, 24⟩
abbrev CV_GRID_KP.MANT : Fld := ⟨.cv, 0x6030, 19, 0⟩
-- CV_GRID_KI (08_coupling_and_energy.md), offset 0x6034
abbrev CV_GRID_KI.EXP : Fld := ⟨.cv, 0x6034, 28, 24⟩
abbrev CV_GRID_KI.MANT : Fld := ⟨.cv, 0x6034, 19, 0⟩
-- CV_GRID_WNOM (08_coupling_and_energy.md), offset 0x6038
abbrev CV_GRID_WNOM.EXP : Fld := ⟨.cv, 0x6038, 28, 24⟩
abbrev CV_GRID_WNOM.MANT : Fld := ⟨.cv, 0x6038, 19, 0⟩
-- CV_GRID_SCALE (08_coupling_and_energy.md), offset 0x603C
abbrev CV_GRID_SCALE.EXP : Fld := ⟨.cv, 0x603C, 28, 24⟩
abbrev CV_GRID_SCALE.MANT : Fld := ⟨.cv, 0x603C, 19, 0⟩
-- CV_GRID_MIN (08_coupling_and_energy.md), offset 0x6040
abbrev CV_GRID_MIN.EXP : Fld := ⟨.cv, 0x6040, 28, 24⟩
abbrev CV_GRID_MIN.MANT : Fld := ⟨.cv, 0x6040, 19, 0⟩
-- CV_BRK (08_coupling_and_energy.md), offset 0x6080
abbrev CV_BRK.EN : Fld := ⟨.cv, 0x6080, 31, 31⟩
abbrev CV_BRK.STORE : Fld := ⟨.cv, 0x6080, 30, 30⟩
abbrev CV_BRK.REGEN : Fld := ⟨.cv, 0x6080, 29, 29⟩
abbrev CV_BRK.PRIO : Fld := ⟨.cv, 0x6080, 25, 24⟩
abbrev CV_BRK.BUSID : Fld := ⟨.cv, 0x6080, 21, 20⟩
abbrev CV_BRK.HOR : Fld := ⟨.cv, 0x6080, 19, 16⟩
abbrev CV_BRK.EVQ : Fld := ⟨.cv, 0x6080, 11, 0⟩
-- CV_BUS_ACT (08_coupling_and_energy.md), offset 0x6084
abbrev CV_BUS_ACT.ACT : Fld := ⟨.cv, 0x6084, 31, 30⟩
-- CV_BRK_STAT (08_coupling_and_energy.md), offset 0x6100
abbrev CV_BRK_STAT.RUN : Fld := ⟨.cv, 0x6100, 31, 31⟩
abbrev CV_BRK_STAT.SHORT : Fld := ⟨.cv, 0x6100, 30, 30⟩
abbrev CV_BRK_STAT.BUS_OV : Fld := ⟨.cv, 0x6100, 29, 29⟩
abbrev CV_BRK_STAT.BUS_UV : Fld := ⟨.cv, 0x6100, 28, 28⟩
abbrev CV_BRK_STAT.GRID_LOCK : Fld := ⟨.cv, 0x6100, 27, 27⟩
abbrev CV_BRK_STAT.GRID_LOSS : Fld := ⟨.cv, 0x6100, 26, 26⟩
abbrev CV_BRK_STAT.ST_FULL : Fld := ⟨.cv, 0x6100, 25, 25⟩
abbrev CV_BRK_STAT.ST_EMPTY : Fld := ⟨.cv, 0x6100, 24, 24⟩
abbrev CV_BRK_STAT.STFAIL : Fld := ⟨.cv, 0x6100, 23, 23⟩
abbrev CV_BRK_STAT.HOLD : Fld := ⟨.cv, 0x6100, 22, 22⟩
-- CV_PRED (08_coupling_and_energy.md), offset 0x6108
abbrev CV_PRED.EXP : Fld := ⟨.cv, 0x6108, 28, 24⟩
abbrev CV_PRED.MANT : Fld := ⟨.cv, 0x6108, 19, 0⟩
-- CV_GRID_TH (08_coupling_and_energy.md), offset 0x610C
abbrev CV_GRID_TH.V : Fld := ⟨.cv, 0x610C, 31, 0⟩
-- AX_CM_CTRL (09_self_commissioning.md), offset 0x6400
abbrev AX_CM_CTRL.GO : Fld := ⟨.ax, 0x6400, 31, 31⟩
abbrev AX_CM_CTRL.ABORT : Fld := ⟨.ax, 0x6400, 30, 30⟩
abbrev AX_CM_CTRL.SEQ : Fld := ⟨.ax, 0x6400, 27, 24⟩
abbrev AX_CM_CTRL.GSET : Fld := ⟨.ax, 0x6400, 18, 16⟩
abbrev AX_CM_CTRL.SEED : Fld := ⟨.ax, 0x6400, 15, 14⟩
-- AX_CM_STAT (09_self_commissioning.md), offset 0x6404
abbrev AX_CM_STAT.ST : Fld := ⟨.ax, 0x6404, 31, 29⟩
abbrev AX_CM_STAT.SEQ : Fld := ⟨.ax, 0x6404, 27, 24⟩
abbrev AX_CM_STAT.CAUSE : Fld := ⟨.ax, 0x6404, 23, 20⟩
abbrev AX_CM_STAT.MASS_OK : Fld := ⟨.ax, 0x6404, 11, 11⟩
abbrev AX_CM_STAT.RESP_OK : Fld := ⟨.ax, 0x6404, 10, 10⟩
abbrev AX_CM_STAT.PROP_OK : Fld := ⟨.ax, 0x6404, 9, 9⟩
abbrev AX_CM_STAT.CLIPPED : Fld := ⟨.ax, 0x6404, 8, 8⟩
abbrev AX_CM_STAT.POL_DENY : Fld := ⟨.ax, 0x6404, 7, 7⟩
abbrev AX_CM_STAT.NRES : Fld := ⟨.ax, 0x6404, 2, 0⟩
-- AX_CM_EXC (09_self_commissioning.md), offset 0x6408
abbrev AX_CM_EXC.TYPE : Fld := ⟨.ax, 0x6408, 31, 31⟩
abbrev AX_CM_EXC.ORDER : Fld := ⟨.ax, 0x6408, 29, 28⟩
abbrev AX_CM_EXC.HOLD : Fld := ⟨.ax, 0x6408, 27, 24⟩
abbrev AX_CM_EXC.AVG : Fld := ⟨.ax, 0x6408, 23, 20⟩
-- AX_CM_AMP (09_self_commissioning.md), offset 0x640C
abbrev AX_CM_AMP.EXP : Fld := ⟨.ax, 0x640C, 28, 24⟩
abbrev AX_CM_AMP.MANT : Fld := ⟨.ax, 0x640C, 19, 0⟩
-- AX_CM_F0 (09_self_commissioning.md), offset 0x6410
abbrev AX_CM_F0.V : Fld := ⟨.ax, 0x6410, 31, 0⟩
-- AX_CM_F1 (09_self_commissioning.md), offset 0x6414
abbrev AX_CM_F1.V : Fld := ⟨.ax, 0x6414, 31, 0⟩
-- AX_CM_TLEN (09_self_commissioning.md), offset 0x6418
abbrev AX_CM_TLEN.V : Fld := ⟨.ax, 0x6418, 31, 0⟩
-- AX_CM_STROKE (09_self_commissioning.md), offset 0x6420
abbrev AX_CM_STROKE.V : Fld := ⟨.ax, 0x6420, 63, 0⟩
-- AX_CM_J (09_self_commissioning.md), offset 0x6440
abbrev AX_CM_J.EXP : Fld := ⟨.ax, 0x6440, 28, 24⟩
abbrev AX_CM_J.MANT : Fld := ⟨.ax, 0x6440, 19, 0⟩
-- AX_CM_B (09_self_commissioning.md), offset 0x6444
abbrev AX_CM_B.EXP : Fld := ⟨.ax, 0x6444, 28, 24⟩
abbrev AX_CM_B.MANT : Fld := ⟨.ax, 0x6444, 19, 0⟩
-- AX_CM_C (09_self_commissioning.md), offset 0x6448
abbrev AX_CM_C.EXP : Fld := ⟨.ax, 0x6448, 28, 24⟩
abbrev AX_CM_C.MANT : Fld := ⟨.ax, 0x6448, 19, 0⟩
-- AX_CM_G (09_self_commissioning.md), offset 0x644C
abbrev AX_CM_G.EXP : Fld := ⟨.ax, 0x644C, 28, 24⟩
abbrev AX_CM_G.MANT : Fld := ⟨.ax, 0x644C, 19, 0⟩
-- AX_CM_FIT (09_self_commissioning.md), offset 0x6450
abbrev AX_CM_FIT.EXP : Fld := ⟨.ax, 0x6450, 28, 24⟩
abbrev AX_CM_FIT.MANT : Fld := ⟨.ax, 0x6450, 19, 0⟩
-- AX_CM_RES_F (09_self_commissioning.md), offset 0x6460 + 16 i, i < 4
abbrev AX_CM_RES_F.V : Fld := ⟨.ax, 0x6460, 31, 0⟩
-- AX_CM_RES_ZETA (09_self_commissioning.md), offset 0x6464 + 16 i, i < 4
abbrev AX_CM_RES_ZETA.EXP : Fld := ⟨.ax, 0x6464, 28, 24⟩
abbrev AX_CM_RES_ZETA.MANT : Fld := ⟨.ax, 0x6464, 19, 0⟩
-- AX_CM_RES_PEAK (09_self_commissioning.md), offset 0x6468 + 16 i, i < 4
abbrev AX_CM_RES_PEAK.EXP : Fld := ⟨.ax, 0x6468, 28, 24⟩
abbrev AX_CM_RES_PEAK.MANT : Fld := ⟨.ax, 0x6468, 19, 0⟩
-- AX_CM_FV (09_self_commissioning.md), offset 0x64A0
abbrev AX_CM_FV.V : Fld := ⟨.ax, 0x64A0, 31, 0⟩
-- AX_CM_PM (09_self_commissioning.md), offset 0x64A4
abbrev AX_CM_PM.EXP : Fld := ⟨.ax, 0x64A4, 28, 24⟩
abbrev AX_CM_PM.MANT : Fld := ⟨.ax, 0x64A4, 19, 0⟩
-- AX_CM_GM (09_self_commissioning.md), offset 0x64A8
abbrev AX_CM_GM.EXP : Fld := ⟨.ax, 0x64A8, 28, 24⟩
abbrev AX_CM_GM.MANT : Fld := ⟨.ax, 0x64A8, 19, 0⟩
-- AX_CM_POL (09_self_commissioning.md), offset 0x6500
abbrev AX_CM_POL.APPROVE : Fld := ⟨.ax, 0x6500, 31, 30⟩
abbrev AX_CM_POL.CLIPOK : Fld := ⟨.ax, 0x6500, 29, 29⟩
abbrev AX_CM_POL.NT_AUTO : Fld := ⟨.ax, 0x6500, 28, 28⟩
abbrev AX_CM_POL.GS_AUTO : Fld := ⟨.ax, 0x6500, 27, 27⟩
abbrev AX_CM_POL.PSET : Fld := ⟨.ax, 0x6500, 26, 24⟩
abbrev AX_CM_POL.SETS : Fld := ⟨.ax, 0x6500, 23, 16⟩
abbrev AX_CM_POL.NOTCH_MASK : Fld := ⟨.ax, 0x6500, 11, 8⟩
-- AX_CM_POL_AMAX (09_self_commissioning.md), offset 0x6504
abbrev AX_CM_POL_AMAX.EXP : Fld := ⟨.ax, 0x6504, 28, 24⟩
abbrev AX_CM_POL_AMAX.MANT : Fld := ⟨.ax, 0x6504, 19, 0⟩
-- AX_CM_POL_STROKE (09_self_commissioning.md), offset 0x6508
abbrev AX_CM_POL_STROKE.V : Fld := ⟨.ax, 0x6508, 63, 0⟩
-- AX_CM_POL_FVMIN (09_self_commissioning.md), offset 0x6510
abbrev AX_CM_POL_FVMIN.V : Fld := ⟨.ax, 0x6510, 31, 0⟩
-- AX_CM_POL_FVMAX (09_self_commissioning.md), offset 0x6514
abbrev AX_CM_POL_FVMAX.V : Fld := ⟨.ax, 0x6514, 31, 0⟩
-- AX_CM_POL_PM (09_self_commissioning.md), offset 0x6518
abbrev AX_CM_POL_PM.EXP : Fld := ⟨.ax, 0x6518, 28, 24⟩
abbrev AX_CM_POL_PM.MANT : Fld := ⟨.ax, 0x6518, 19, 0⟩
-- AX_CM_POL_GM (09_self_commissioning.md), offset 0x651C
abbrev AX_CM_POL_GM.EXP : Fld := ⟨.ax, 0x651C, 28, 24⟩
abbrev AX_CM_POL_GM.MANT : Fld := ⟨.ax, 0x651C, 19, 0⟩
-- AX_CM_POL_RESM (09_self_commissioning.md), offset 0x6520
abbrev AX_CM_POL_RESM.EXP : Fld := ⟨.ax, 0x6520, 28, 24⟩
abbrev AX_CM_POL_RESM.MANT : Fld := ⟨.ax, 0x6520, 19, 0⟩
-- AX_CM_POL_NDEPTH (09_self_commissioning.md), offset 0x6524
abbrev AX_CM_POL_NDEPTH.EXP : Fld := ⟨.ax, 0x6524, 28, 24⟩
abbrev AX_CM_POL_NDEPTH.MANT : Fld := ⟨.ax, 0x6524, 19, 0⟩
-- AX_CM_POL_STEP (09_self_commissioning.md), offset 0x6528
abbrev AX_CM_POL_STEP.EXP : Fld := ⟨.ax, 0x6528, 28, 24⟩
abbrev AX_CM_POL_STEP.MANT : Fld := ⟨.ax, 0x6528, 19, 0⟩
-- AX_CM_POL_NTLO (09_self_commissioning.md), offset 0x652C
abbrev AX_CM_POL_NTLO.V : Fld := ⟨.ax, 0x652C, 31, 0⟩
-- AX_CM_POL_NTHI (09_self_commissioning.md), offset 0x6530
abbrev AX_CM_POL_NTHI.V : Fld := ⟨.ax, 0x6530, 31, 0⟩
-- AX_CM_ADAPT (09_self_commissioning.md), offset 0x6540
abbrev AX_CM_ADAPT.NT_EN : Fld := ⟨.ax, 0x6540, 31, 31⟩
abbrev AX_CM_ADAPT.NT_BQ : Fld := ⟨.ax, 0x6540, 29, 28⟩
abbrev AX_CM_ADAPT.NT_INT : Fld := ⟨.ax, 0x6540, 27, 20⟩
abbrev AX_CM_ADAPT.NT_STEP : Fld := ⟨.ax, 0x6540, 19, 16⟩
abbrev AX_CM_ADAPT.MI_EN : Fld := ⟨.ax, 0x6540, 15, 15⟩
abbrev AX_CM_ADAPT.MI_EARLY : Fld := ⟨.ax, 0x6540, 14, 14⟩
abbrev AX_CM_ADAPT.EST_PER : Fld := ⟨.ax, 0x6540, 13, 8⟩
abbrev AX_CM_ADAPT.JHYS : Fld := ⟨.ax, 0x6540, 7, 4⟩
abbrev AX_CM_ADAPT.SEED : Fld := ⟨.ax, 0x6540, 3, 2⟩
-- AX_CM_MI_SAMIN (09_self_commissioning.md), offset 0x6544
abbrev AX_CM_MI_SAMIN.EXP : Fld := ⟨.ax, 0x6544, 28, 24⟩
abbrev AX_CM_MI_SAMIN.MANT : Fld := ⟨.ax, 0x6544, 19, 0⟩
-- AX_CM_MI_EST (09_self_commissioning.md), offset 0x6548
abbrev AX_CM_MI_EST.EXP : Fld := ⟨.ax, 0x6548, 28, 24⟩
abbrev AX_CM_MI_EST.MANT : Fld := ⟨.ax, 0x6548, 19, 0⟩
-- AX_CM_NT_F (09_self_commissioning.md), offset 0x654C
abbrev AX_CM_NT_F.V : Fld := ⟨.ax, 0x654C, 31, 0⟩
-- AX_CM_EVQ (09_self_commissioning.md), offset 0x6550
abbrev AX_CM_EVQ.EN : Fld := ⟨.ax, 0x6550, 31, 31⟩
abbrev AX_CM_EVQ.QUEUE : Fld := ⟨.ax, 0x6550, 11, 0⟩
-- AX_GS_JLO (09_self_commissioning.md), offset 0x6560 + 8 i, i < 8
abbrev AX_GS_JLO.EXP : Fld := ⟨.ax, 0x6560, 28, 24⟩
abbrev AX_GS_JLO.MANT : Fld := ⟨.ax, 0x6560, 19, 0⟩
-- AX_GS_JHI (09_self_commissioning.md), offset 0x6564 + 8 i, i < 8
abbrev AX_GS_JHI.EXP : Fld := ⟨.ax, 0x6564, 28, 24⟩
abbrev AX_GS_JHI.MANT : Fld := ⟨.ax, 0x6564, 19, 0⟩
-- AX_GS_STAT (09_self_commissioning.md), offset 0x65A0
abbrev AX_GS_STAT.BUSY : Fld := ⟨.ax, 0x65A0, 31, 31⟩
abbrev AX_GS_STAT.CUR : Fld := ⟨.ax, 0x65A0, 27, 24⟩
abbrev AX_GS_STAT.COUNT : Fld := ⟨.ax, 0x65A0, 23, 16⟩
abbrev AX_GS_STAT.NOSET : Fld := ⟨.ax, 0x65A0, 15, 15⟩
abbrev AX_GS_STAT.INVALID : Fld := ⟨.ax, 0x65A0, 14, 14⟩
-- AX_CM_FR_RE (09_self_commissioning.md), offset 0x6600 + 8 i, i < 64
abbrev AX_CM_FR_RE.EXP : Fld := ⟨.ax, 0x6600, 28, 24⟩
abbrev AX_CM_FR_RE.MANT : Fld := ⟨.ax, 0x6600, 19, 0⟩
-- AX_CM_FR_IM (09_self_commissioning.md), offset 0x6604 + 8 i, i < 64
abbrev AX_CM_FR_IM.EXP : Fld := ⟨.ax, 0x6604, 28, 24⟩
abbrev AX_CM_FR_IM.MANT : Fld := ⟨.ax, 0x6604, 19, 0⟩
-- AX_GS_SET (09_self_commissioning.md), offset 0x6800 + 4 i, i < 512
abbrev AX_GS_SET.EXP : Fld := ⟨.ax, 0x6800, 28, 24⟩
abbrev AX_GS_SET.MANT : Fld := ⟨.ax, 0x6800, 19, 0⟩
-- AX_GT_CTRL (10_gate_outputs.md), offset 0x4000
abbrev AX_GT_CTRL.OE : Fld := ⟨.sl, 0x4000, 31, 31⟩
abbrev AX_GT_CTRL.UPD : Fld := ⟨.sl, 0x4000, 30, 30⟩
abbrev AX_GT_CTRL.CMODE : Fld := ⟨.sl, 0x4000, 29, 29⟩
abbrev AX_GT_CTRL.SHPAT : Fld := ⟨.sl, 0x4000, 28, 28⟩
abbrev AX_GT_CTRL.HALTPAT : Fld := ⟨.sl, 0x4000, 27, 26⟩
abbrev AX_GT_CTRL.INTLV : Fld := ⟨.sl, 0x4000, 25, 25⟩
abbrev AX_GT_CTRL.STOSEL : Fld := ⟨.sl, 0x4000, 19, 16⟩
-- AX_GT_TC (10_gate_outputs.md), offset 0x4004
abbrev AX_GT_TC.TC : Fld := ⟨.sl, 0x4004, 22, 0⟩
-- AX_GT_CPH (10_gate_outputs.md), offset 0x4008
abbrev AX_GT_CPH.CPH : Fld := ⟨.sl, 0x4008, 22, 0⟩
-- AX_GT_POL (10_gate_outputs.md), offset 0x400C
abbrev AX_GT_POL.POL : Fld := ⟨.sl, 0x400C, 7, 0⟩
-- AX_GT_LEG (10_gate_outputs.md), offset 0x4010 + 4 i, i < 3
abbrev AX_GT_LEG.CHOPST : Fld := ⟨.sl, 0x4010, 29, 28⟩
abbrev AX_GT_LEG.MINP : Fld := ⟨.sl, 0x4010, 23, 12⟩
abbrev AX_GT_LEG.DT : Fld := ⟨.sl, 0x4010, 11, 0⟩
-- AX_GT_LEG3 (10_gate_outputs.md), offset 0x401C
abbrev AX_GT_LEG3.CHOPST : Fld := ⟨.cv, 0x401C, 29, 28⟩
abbrev AX_GT_LEG3.MINP : Fld := ⟨.cv, 0x401C, 23, 12⟩
abbrev AX_GT_LEG3.DT : Fld := ⟨.cv, 0x401C, 11, 0⟩
-- AX_GT_SHD_AB (10_gate_outputs.md), offset 0x4020
abbrev AX_GT_SHD_AB.D_B : Fld := ⟨.sl, 0x4020, 31, 16⟩
abbrev AX_GT_SHD_AB.D_A : Fld := ⟨.sl, 0x4020, 15, 0⟩
-- AX_GT_SHD_CD (10_gate_outputs.md), offset 0x4024
abbrev AX_GT_SHD_CD.D_B : Fld := ⟨.sl, 0x4024, 31, 16⟩
abbrev AX_GT_SHD_CD.D_A : Fld := ⟨.sl, 0x4024, 15, 0⟩
-- AX_GT_LIVE_AB (10_gate_outputs.md), offset 0x4028
abbrev AX_GT_LIVE_AB.D_B : Fld := ⟨.sl, 0x4028, 31, 16⟩
abbrev AX_GT_LIVE_AB.D_A : Fld := ⟨.sl, 0x4028, 15, 0⟩
-- AX_GT_LIVE_CD (10_gate_outputs.md), offset 0x402C
abbrev AX_GT_LIVE_CD.D_B : Fld := ⟨.sl, 0x402C, 31, 16⟩
abbrev AX_GT_LIVE_CD.D_A : Fld := ⟨.sl, 0x402C, 15, 0⟩
-- AX_GT_STAT (10_gate_outputs.md), offset 0x4030
abbrev AX_GT_STAT.RUN : Fld := ⟨.sl, 0x4030, 31, 31⟩
abbrev AX_GT_STAT.SHUT : Fld := ⟨.sl, 0x4030, 30, 30⟩
abbrev AX_GT_STAT.STO : Fld := ⟨.sl, 0x4030, 29, 29⟩
abbrev AX_GT_STAT.HALT : Fld := ⟨.sl, 0x4030, 28, 28⟩
abbrev AX_GT_STAT.RELPEND : Fld := ⟨.sl, 0x4030, 27, 27⟩
abbrev AX_GT_STAT.MINP_HIT : Fld := ⟨.sl, 0x4030, 26, 26⟩
abbrev AX_GT_STAT.REL_REFUSED : Fld := ⟨.sl, 0x4030, 25, 25⟩
abbrev AX_GT_STAT.CHOP : Fld := ⟨.sl, 0x4030, 23, 20⟩
abbrev AX_GT_STAT.FLT : Fld := ⟨.sl, 0x4030, 17, 16⟩
abbrev AX_GT_STAT.FLT_SEEN : Fld := ⟨.sl, 0x4030, 9, 8⟩
-- AX_GT_CAUSE (10_gate_outputs.md), offset 0x4034
abbrev AX_GT_CAUSE.CAUSE : Fld := ⟨.sl, 0x4034, 10, 0⟩
-- AX_GT_CMD (10_gate_outputs.md), offset 0x4038
abbrev AX_GT_CMD.CMD : Fld := ⟨.sl, 0x4038, 1, 0⟩
-- AX_GT_EVQ (10_gate_outputs.md), offset 0x403C
abbrev AX_GT_EVQ.EN : Fld := ⟨.sl, 0x403C, 31, 31⟩
abbrev AX_GT_EVQ.QUEUE : Fld := ⟨.sl, 0x403C, 11, 0⟩
-- AX_GT_FLT (10_gate_outputs.md), offset 0x4040 + 4 i, i < 2
abbrev AX_GT_FLT.EN : Fld := ⟨.sl, 0x4040, 31, 31⟩
abbrev AX_GT_FLT.POL : Fld := ⟨.sl, 0x4040, 30, 30⟩
abbrev AX_GT_FLT.ACT : Fld := ⟨.sl, 0x4040, 29, 28⟩
abbrev AX_GT_FLT.FILT : Fld := ⟨.sl, 0x4040, 21, 16⟩
-- AX_GT_SHSTAMP (10_gate_outputs.md), offset 0x4048
abbrev AX_GT_SHSTAMP.STAMP : Fld := ⟨.sl, 0x4048, 63, 0⟩
-- AX_GT_FSTAMP (10_gate_outputs.md), offset 0x4050
abbrev AX_GT_FSTAMP.STAMP : Fld := ⟨.sl, 0x4050, 63, 0⟩
-- TAP_EMUQ (11_command_packets.md), offset 0x100
abbrev TAP_EMUQ.EN : Fld := ⟨.tap, 0x100, 31, 31⟩
abbrev TAP_EMUQ.QUEUE : Fld := ⟨.tap, 0x100, 11, 0⟩
-- TAP_CSTAT (11_command_packets.md), offset 0x104
abbrev TAP_CSTAT.RDROP : Fld := ⟨.tap, 0x104, 31, 31⟩
abbrev TAP_CSTAT.EDROP : Fld := ⟨.tap, 0x104, 30, 30⟩
abbrev TAP_CSTAT.HOLDTMO : Fld := ⟨.tap, 0x104, 29, 29⟩
abbrev TAP_CSTAT.INFLIGHT : Fld := ⟨.tap, 0x104, 24, 16⟩
abbrev TAP_CSTAT.HELD : Fld := ⟨.tap, 0x104, 8, 0⟩
-- TAP_MC_STAT (13_tapster_microcode.md), offset 0x0
abbrev TAP_MC_STAT.READY : Fld := ⟨.tap, 0x0, 31, 31⟩
abbrev TAP_MC_STAT.BANK : Fld := ⟨.tap, 0x0, 30, 30⟩
abbrev TAP_MC_STAT.IVALID : Fld := ⟨.tap, 0x0, 29, 29⟩
abbrev TAP_MC_STAT.SWAP : Fld := ⟨.tap, 0x0, 28, 28⟩
abbrev TAP_MC_STAT.LOAD : Fld := ⟨.tap, 0x0, 27, 27⟩
abbrev TAP_MC_STAT.LDST : Fld := ⟨.tap, 0x0, 26, 24⟩
abbrev TAP_MC_STAT.SWST : Fld := ⟨.tap, 0x0, 23, 21⟩
abbrev TAP_MC_STAT.UFAULT : Fld := ⟨.tap, 0x0, 15, 15⟩
abbrev TAP_MC_STAT.RSVW : Fld := ⟨.tap, 0x0, 13, 13⟩
abbrev TAP_MC_STAT.OLDCTX : Fld := ⟨.tap, 0x0, 8, 0⟩
-- TAP_MC_CMD (13_tapster_microcode.md), offset 0x4
abbrev TAP_MC_CMD.CMD : Fld := ⟨.tap, 0x4, 1, 0⟩
-- TAP_MC_ADDR (13_tapster_microcode.md), offset 0x8
abbrev TAP_MC_ADDR.ADDR : Fld := ⟨.tap, 0x8, 31, 0⟩
-- TAP_MC_LEN (13_tapster_microcode.md), offset 0xC
abbrev TAP_MC_LEN.LEN : Fld := ⟨.tap, 0xC, 31, 0⟩
-- TAP_MC_VER (13_tapster_microcode.md), offset 0x10
abbrev TAP_MC_VER.INACT : Fld := ⟨.tap, 0x10, 31, 16⟩
abbrev TAP_MC_VER.ACT : Fld := ⟨.tap, 0x10, 15, 0⟩
-- TAP_MC_FAULT (13_tapster_microcode.md), offset 0x20
abbrev TAP_MC_FAULT.CAUSE : Fld := ⟨.tap, 0x20, 31, 28⟩
abbrev TAP_MC_FAULT.OPCODE : Fld := ⟨.tap, 0x20, 27, 16⟩
abbrev TAP_MC_FAULT.UADDR : Fld := ⟨.tap, 0x20, 13, 0⟩
-- TAP_MC_FCNT (13_tapster_microcode.md), offset 0x24
abbrev TAP_MC_FCNT.GUEST : Fld := ⟨.tap, 0x24, 31, 16⟩
abbrev TAP_MC_FCNT.VENDOR : Fld := ⟨.tap, 0x24, 15, 0⟩
-- QM_BASE (12_queues_and_outside_ports.md), offset 0x0
abbrev QM_BASE.BASE : Fld := ⟨.queue, 0x0, 63, 6⟩
-- QM_CFG (12_queues_and_outside_ports.md), offset 0x8
abbrev QM_CFG.EN : Fld := ⟨.queue, 0x8, 31, 31⟩
abbrev QM_CFG.SPACE : Fld := ⟨.queue, 0x8, 30, 30⟩
abbrev QM_CFG.WB : Fld := ⟨.queue, 0x8, 29, 29⟩
abbrev QM_CFG.KIND : Fld := ⟨.queue, 0x8, 28, 27⟩
abbrev QM_CFG.ESIZE : Fld := ⟨.queue, 0x8, 26, 26⟩
abbrev QM_CFG.OWNER : Fld := ⟨.queue, 0x8, 25, 25⟩
abbrev QM_CFG.LOG2 : Fld := ⟨.queue, 0x8, 23, 20⟩
-- QM_LINK (12_queues_and_outside_ports.md), offset 0xC
abbrev QM_LINK.AGENT : Fld := ⟨.queue, 0xC, 31, 26⟩
abbrev QM_LINK.VEC : Fld := ⟨.queue, 0xC, 23, 16⟩
abbrev QM_LINK.RQ : Fld := ⟨.queue, 0xC, 11, 0⟩
-- QM_IDX (12_queues_and_outside_ports.md), offset 0x10
abbrev QM_IDX.TAIL : Fld := ⟨.queue, 0x10, 31, 16⟩
abbrev QM_IDX.HEAD : Fld := ⟨.queue, 0x10, 15, 0⟩
-- QM_DB (12_queues_and_outside_ports.md), offset 0x14
abbrev QM_DB.SIDE : Fld := ⟨.queue, 0x14, 31, 31⟩
abbrev QM_DB.INDEX : Fld := ⟨.queue, 0x14, 15, 0⟩
-- QM_MOD (12_queues_and_outside_ports.md), offset 0x18
abbrev QM_MOD.CNT : Fld := ⟨.queue, 0x18, 31, 24⟩
abbrev QM_MOD.MASK : Fld := ⟨.queue, 0x18, 15, 15⟩
abbrev QM_MOD.TIME : Fld := ⟨.queue, 0x18, 11, 0⟩
-- QM_STAT (12_queues_and_outside_ports.md), offset 0x1C
abbrev QM_STAT.FULL : Fld := ⟨.queue, 0x1C, 31, 31⟩
abbrev QM_STAT.DROP : Fld := ⟨.queue, 0x1C, 30, 30⟩
abbrev QM_STAT.BAD_DB : Fld := ⟨.queue, 0x1C, 29, 29⟩
abbrev QM_STAT.OWN_ERR : Fld := ⟨.queue, 0x1C, 28, 28⟩
abbrev QM_STAT.MEM_ERR : Fld := ⟨.queue, 0x1C, 27, 27⟩
abbrev QM_STAT.RSVW : Fld := ⟨.queue, 0x1C, 26, 26⟩
abbrev QM_STAT.PEND : Fld := ⟨.queue, 0x1C, 23, 20⟩
abbrev QM_STAT.CFG_ERR : Fld := ⟨.queue, 0x1C, 18, 16⟩
abbrev QM_STAT.DROPS : Fld := ⟨.queue, 0x1C, 15, 0⟩
-- OP_PCIE_CTRL (12_queues_and_outside_ports.md), offset 0x0
abbrev OP_PCIE_CTRL.LOCK : Fld := ⟨.pcie, 0x0, 31, 31⟩
abbrev OP_PCIE_CTRL.WORLD : Fld := ⟨.pcie, 0x0, 30, 30⟩
-- OP_PCIE_STAT (12_queues_and_outside_ports.md), offset 0x4
abbrev OP_PCIE_STAT.UP : Fld := ⟨.pcie, 0x4, 31, 31⟩
abbrev OP_PCIE_STAT.LDN : Fld := ⟨.pcie, 0x4, 30, 30⟩
abbrev OP_PCIE_STAT.GEN : Fld := ⟨.pcie, 0x4, 19, 16⟩
abbrev OP_PCIE_STAT.WIDTH : Fld := ⟨.pcie, 0x4, 3, 0⟩
-- OP_ETH_CTRL (12_queues_and_outside_ports.md), offset 0x0
abbrev OP_ETH_CTRL.EN : Fld := ⟨.eth, 0x0, 31, 31⟩
abbrev OP_ETH_CTRL.TUN : Fld := ⟨.eth, 0x0, 30, 30⟩
abbrev OP_ETH_CTRL.MODE : Fld := ⟨.eth, 0x0, 29, 28⟩
-- OP_ETH_STAT (12_queues_and_outside_ports.md), offset 0x4
abbrev OP_ETH_STAT.LINK : Fld := ⟨.eth, 0x4, 31, 31⟩
abbrev OP_ETH_STAT.CFG_ERR : Fld := ⟨.eth, 0x4, 18, 16⟩
abbrev OP_ETH_STAT.RSVW : Fld := ⟨.eth, 0x4, 0, 0⟩
-- OP_ETH_MAC (12_queues_and_outside_ports.md), offset 0x8
abbrev OP_ETH_MAC.V : Fld := ⟨.eth, 0x8, 47, 0⟩
-- OP_ETH_PTP_OFS (12_queues_and_outside_ports.md), offset 0x10
abbrev OP_ETH_PTP_OFS.V : Fld := ⟨.eth, 0x10, 63, 0⟩
-- OP_ETH_PTP_RATE (12_queues_and_outside_ports.md), offset 0x18
abbrev OP_ETH_PTP_RATE.V : Fld := ⟨.eth, 0x18, 31, 0⟩
-- OP_ETH_PTP_CMD (12_queues_and_outside_ports.md), offset 0x1C
abbrev OP_ETH_PTP_CMD.APPLY : Fld := ⟨.eth, 0x1C, 0, 0⟩
-- OP_ETH_GCL_CTRL (12_queues_and_outside_ports.md), offset 0x20
abbrev OP_ETH_GCL_CTRL.RUN : Fld := ⟨.eth, 0x20, 31, 31⟩
abbrev OP_ETH_GCL_CTRL.PEND : Fld := ⟨.eth, 0x20, 30, 30⟩
abbrev OP_ETH_GCL_CTRL.LEN : Fld := ⟨.eth, 0x20, 5, 0⟩
-- OP_ETH_GCL_CYCLE (12_queues_and_outside_ports.md), offset 0x24
abbrev OP_ETH_GCL_CYCLE.V : Fld := ⟨.eth, 0x24, 31, 0⟩
-- OP_ETH_GCL_BASE (12_queues_and_outside_ports.md), offset 0x28
abbrev OP_ETH_GCL_BASE.V : Fld := ⟨.eth, 0x28, 63, 0⟩
-- OP_ETH_PTP_OFSF (12_queues_and_outside_ports.md), offset 0x30
abbrev OP_ETH_PTP_OFSF.V : Fld := ⟨.eth, 0x30, 15, 0⟩
-- OP_ETH_GCL (12_queues_and_outside_ports.md), offset 0x100 + 4 i, i < 64
abbrev OP_ETH_GCL.GATES : Fld := ⟨.eth, 0x100, 31, 24⟩
abbrev OP_ETH_GCL.INTV : Fld := ⟨.eth, 0x100, 23, 0⟩
-- OP_FLD_CTRL (12_queues_and_outside_ports.md), offset 0x0
abbrev OP_FLD_CTRL.EN : Fld := ⟨.fld, 0x0, 31, 31⟩
abbrev OP_FLD_CTRL.MODE : Fld := ⟨.fld, 0x0, 29, 28⟩
abbrev OP_FLD_CTRL.DE_LEAD : Fld := ⟨.fld, 0x0, 23, 20⟩
abbrev OP_FLD_CTRL.DE_LAG : Fld := ⟨.fld, 0x0, 19, 16⟩
abbrev OP_FLD_CTRL.PAR : Fld := ⟨.fld, 0x0, 15, 12⟩
abbrev OP_FLD_CTRL.IDLE : Fld := ⟨.fld, 0x0, 7, 0⟩
-- OP_FLD_STAT (12_queues_and_outside_ports.md), offset 0xC
abbrev OP_FLD_STAT.BOFF : Fld := ⟨.fld, 0xC, 31, 31⟩
abbrev OP_FLD_STAT.RSVW : Fld := ⟨.fld, 0xC, 30, 30⟩
abbrev OP_FLD_STAT.CFG_ERR : Fld := ⟨.fld, 0xC, 18, 16⟩
abbrev OP_FLD_STAT.TEC : Fld := ⟨.fld, 0xC, 15, 8⟩
abbrev OP_FLD_STAT.REC : Fld := ⟨.fld, 0xC, 7, 0⟩
-- OP_FLD_FILT (12_queues_and_outside_ports.md), offset 0x40 + 4 i, i < 16
abbrev OP_FLD_FILT.EN : Fld := ⟨.fld, 0x40, 31, 31⟩
abbrev OP_FLD_FILT.IDE : Fld := ⟨.fld, 0x40, 30, 30⟩
abbrev OP_FLD_FILT.ID : Fld := ⟨.fld, 0x40, 28, 0⟩
-- OP_FLD_MASK (12_queues_and_outside_ports.md), offset 0x80 + 4 i, i < 16
abbrev OP_FLD_MASK.MASK : Fld := ⟨.fld, 0x80, 28, 0⟩
-- OP_FLD_NBT (12_queues_and_outside_ports.md), offset 0x4
abbrev OP_FLD_NBT.BRP : Fld := ⟨.fld, 0x4, 31, 24⟩
abbrev OP_FLD_NBT.TSEG1 : Fld := ⟨.fld, 0x4, 23, 16⟩
abbrev OP_FLD_NBT.TSEG2 : Fld := ⟨.fld, 0x4, 14, 8⟩
abbrev OP_FLD_NBT.SJW : Fld := ⟨.fld, 0x4, 6, 0⟩
-- OP_FLD_DBT (12_queues_and_outside_ports.md), offset 0x8
abbrev OP_FLD_DBT.BRP : Fld := ⟨.fld, 0x8, 31, 24⟩
abbrev OP_FLD_DBT.TDC : Fld := ⟨.fld, 0x8, 23, 23⟩
abbrev OP_FLD_DBT.TSEG1 : Fld := ⟨.fld, 0x8, 20, 16⟩
abbrev OP_FLD_DBT.TSEG2 : Fld := ⟨.fld, 0x8, 11, 8⟩
abbrev OP_FLD_DBT.SJW : Fld := ⟨.fld, 0x8, 3, 0⟩
-- OP_FLD_DIV (12_queues_and_outside_ports.md), offset 0x10
abbrev OP_FLD_DIV.DIV : Fld := ⟨.fld, 0x10, 17, 0⟩
-- OP_VIS_TPOL (12_queues_and_outside_ports.md), offset 0x0
abbrev OP_VIS_TPOL.V : Fld := ⟨.vis, 0x0, 15, 0⟩
-- OP_VIS_SEN (12_queues_and_outside_ports.md), offset 0x4
abbrev OP_VIS_SEN.EN : Fld := ⟨.vis, 0x4, 15, 0⟩
abbrev OP_VIS_SEN.EDGE : Fld := ⟨.vis, 0x4, 31, 16⟩
-- OP_VIS_SQ (12_queues_and_outside_ports.md), offset 0x8
abbrev OP_VIS_SQ.EN : Fld := ⟨.vis, 0x8, 31, 31⟩
abbrev OP_VIS_SQ.QUEUE : Fld := ⟨.vis, 0x8, 11, 0⟩
-- OP_VIS_SFILT (12_queues_and_outside_ports.md), offset 0xC
abbrev OP_VIS_SFILT.V : Fld := ⟨.vis, 0xC, 5, 0⟩
-- OP_STO_CFG (12_queues_and_outside_ports.md), offset 0x0
abbrev OP_STO_CFG.SMASK : Fld := ⟨.sto, 0x0, 31, 24⟩
abbrev OP_STO_CFG.DISC : Fld := ⟨.sto, 0x0, 15, 8⟩
abbrev OP_STO_CFG.RET : Fld := ⟨.sto, 0x0, 7, 0⟩
-- OP_STO_STAT (12_queues_and_outside_ports.md), offset 0x4
abbrev OP_STO_STAT.SAFE : Fld := ⟨.sto, 0x4, 31, 24⟩
abbrev OP_STO_STAT.DISC : Fld := ⟨.sto, 0x4, 23, 16⟩
abbrev OP_STO_STAT.SPATH : Fld := ⟨.sto, 0x4, 15, 15⟩
abbrev OP_STO_STAT.CONF : Fld := ⟨.sto, 0x4, 1, 1⟩
abbrev OP_STO_STAT.RSVW : Fld := ⟨.sto, 0x4, 0, 0⟩
-- OP_STO_EVQ (12_queues_and_outside_ports.md), offset 0x8
abbrev OP_STO_EVQ.EN : Fld := ⟨.sto, 0x8, 31, 31⟩
abbrev OP_STO_EVQ.QUEUE : Fld := ⟨.sto, 0x8, 11, 0⟩
-- ST (14_reed_instruction_set.md), offset 0x0
abbrev ST.EM : Fld := ⟨.ctl, 0x0, 31, 31⟩
abbrev ST.PA : Fld := ⟨.ctl, 0x0, 30, 30⟩
abbrev ST.AXP : Fld := ⟨.ctl, 0x0, 29, 29⟩
abbrev ST.WORLD : Fld := ⟨.ctl, 0x0, 5, 5⟩
abbrev ST.LEVEL : Fld := ⟨.ctl, 0x0, 4, 4⟩
-- RCNT (14_reed_instruction_set.md), offset 0x1
abbrev RCNT.V : Fld := ⟨.ctl, 0x4, 31, 0⟩
-- RLEFT (14_reed_instruction_set.md), offset 0x2
abbrev RLEFT.V : Fld := ⟨.ctl, 0x8, 31, 0⟩
-- COREID (14_reed_instruction_set.md), offset 0x3
abbrev COREID.SPLIT : Fld := ⟨.ctl, 0xC, 7, 7⟩
abbrev COREID.PAIR : Fld := ⟨.ctl, 0xC, 6, 4⟩
abbrev COREID.CORE : Fld := ⟨.ctl, 0xC, 3, 0⟩
-- AXF (14_reed_instruction_set.md), offset 0x5
abbrev AXF.OVF : Fld := ⟨.ctl, 0x14, 9, 9⟩
abbrev AXF.DIVZ : Fld := ⟨.ctl, 0x14, 8, 8⟩
abbrev AXF.NV : Fld := ⟨.ctl, 0x14, 4, 4⟩
abbrev AXF.DZ : Fld := ⟨.ctl, 0x14, 3, 3⟩
abbrev AXF.OF : Fld := ⟨.ctl, 0x14, 2, 2⟩
abbrev AXF.UF : Fld := ⟨.ctl, 0x14, 1, 1⟩
abbrev AXF.NX : Fld := ⟨.ctl, 0x14, 0, 0⟩
-- AXE (14_reed_instruction_set.md), offset 0x6
abbrev AXE.OVF : Fld := ⟨.ctl, 0x18, 9, 9⟩
abbrev AXE.DIVZ : Fld := ⟨.ctl, 0x18, 8, 8⟩
abbrev AXE.NV : Fld := ⟨.ctl, 0x18, 4, 4⟩
abbrev AXE.DZ : Fld := ⟨.ctl, 0x18, 3, 3⟩
abbrev AXE.OF : Fld := ⟨.ctl, 0x18, 2, 2⟩
abbrev AXE.UF : Fld := ⟨.ctl, 0x18, 1, 1⟩
abbrev AXE.NX : Fld := ⟨.ctl, 0x18, 0, 0⟩
-- AXADDR (14_reed_instruction_set.md), offset 0x7
abbrev AXADDR.V : Fld := ⟨.ctl, 0x1C, 31, 0⟩
-- HVBR (16_worlds_and_exceptions.md), offset 0x10
abbrev HVBR.BASE : Fld := ⟨.ctl, 0x40, 31, 9⟩
abbrev HVBR.EN : Fld := ⟨.ctl, 0x40, 0, 0⟩
-- GVBR (16_worlds_and_exceptions.md), offset 0x11
abbrev GVBR.BASE : Fld := ⟨.ctl, 0x44, 31, 9⟩
abbrev GVBR.EN : Fld := ⟨.ctl, 0x44, 0, 0⟩
-- HDFH (16_worlds_and_exceptions.md), offset 0x12
abbrev HDFH.V : Fld := ⟨.ctl, 0x48, 31, 4⟩
-- HDFSTK (16_worlds_and_exceptions.md), offset 0x13
abbrev HDFSTK.V : Fld := ⟨.ctl, 0x4C, 31, 4⟩
-- HDFLIM (16_worlds_and_exceptions.md), offset 0x14
abbrev HDFLIM.V : Fld := ⟨.ctl, 0x50, 31, 0⟩
-- GDFH (16_worlds_and_exceptions.md), offset 0x15
abbrev GDFH.V : Fld := ⟨.ctl, 0x54, 31, 4⟩
-- GDFSTK (16_worlds_and_exceptions.md), offset 0x16
abbrev GDFSTK.V : Fld := ⟨.ctl, 0x58, 31, 4⟩
-- GDFLIM (16_worlds_and_exceptions.md), offset 0x17
abbrev GDFLIM.V : Fld := ⟨.ctl, 0x5C, 31, 0⟩
-- SHSTAT (16_worlds_and_exceptions.md), offset 0x18
abbrev SHSTAT.HDFA : Fld := ⟨.ctl, 0x60, 31, 31⟩
abbrev SHSTAT.GDFA : Fld := ⟨.ctl, 0x60, 30, 30⟩
abbrev SHSTAT.RSVW : Fld := ⟨.ctl, 0x60, 29, 29⟩
abbrev SHSTAT.DEPTH : Fld := ⟨.ctl, 0x60, 20, 16⟩
abbrev SHSTAT.TDF : Fld := ⟨.ctl, 0x60, 10, 10⟩
abbrev SHSTAT.TW : Fld := ⟨.ctl, 0x60, 9, 9⟩
abbrev SHSTAT.TL : Fld := ⟨.ctl, 0x60, 8, 8⟩
abbrev SHSTAT.QEV : Fld := ⟨.ctl, 0x60, 6, 0⟩
-- TCM_GB (16_worlds_and_exceptions.md), offset 0x1A
abbrev TCM_GB.OFS : Fld := ⟨.ctl, 0x68, 30, 6⟩
-- SRAM_GB (16_worlds_and_exceptions.md), offset 0x1B
abbrev SRAM_GB.OFS : Fld := ⟨.ctl, 0x6C, 30, 6⟩
-- DRAM_GB (16_worlds_and_exceptions.md), offset 0x1C
abbrev DRAM_GB.OFS : Fld := ⟨.ctl, 0x70, 30, 6⟩
-- UWB (16_worlds_and_exceptions.md), offset 0x20 + 2 i, i < 8
abbrev UWB.BASE : Fld := ⟨.ctl, 0x80, 31, 6⟩
abbrev UWB.EN : Fld := ⟨.ctl, 0x80, 3, 3⟩
abbrev UWB.X : Fld := ⟨.ctl, 0x80, 2, 2⟩
abbrev UWB.W : Fld := ⟨.ctl, 0x80, 1, 1⟩
abbrev UWB.R : Fld := ⟨.ctl, 0x80, 0, 0⟩
-- UWL (16_worlds_and_exceptions.md), offset 0x21 + 2 i, i < 8
abbrev UWL.LIMIT : Fld := ⟨.ctl, 0x84, 31, 6⟩
-- MSCFG (17_paired_execution.md), offset 0x40
abbrev MSCFG.MINT : Fld := ⟨.ctl, 0x100, 6, 0⟩
-- MSSTAT (17_paired_execution.md), offset 0x41
abbrev MSSTAT.SLOT : Fld := ⟨.ctl, 0x104, 31, 31⟩
abbrev MSSTAT.RSVW : Fld := ⟨.ctl, 0x104, 30, 30⟩
abbrev MSSTAT.LOGN : Fld := ⟨.ctl, 0x104, 27, 16⟩
abbrev MSSTAT.UNDON : Fld := ⟨.ctl, 0x104, 12, 0⟩
-- MSCNT (17_paired_execution.md), offset 0x42
abbrev MSCNT.V : Fld := ⟨.ctl, 0x108, 31, 0⟩
-- MMINFO (17_paired_execution.md), offset 0x43
abbrev MMINFO.ITEM : Fld := ⟨.ctl, 0x10C, 27, 24⟩
abbrev MMINFO.FED : Fld := ⟨.ctl, 0x10C, 23, 23⟩
abbrev MMINFO.COUNT : Fld := ⟨.ctl, 0x10C, 15, 0⟩
-- SYS_PAIR_CTRL (17_paired_execution.md), offset 0x0
abbrev SYS_PAIR_CTRL.LOCK : Fld := ⟨.pair, 0x0, 31, 31⟩
abbrev SYS_PAIR_CTRL.SPLIT : Fld := ⟨.pair, 0x0, 30, 30⟩
-- SYS_PAIR_STAT (17_paired_execution.md), offset 0x4
abbrev SYS_PAIR_STAT.STATE : Fld := ⟨.pair, 0x4, 31, 29⟩
abbrev SYS_PAIR_STAT.MODE : Fld := ⟨.pair, 0x4, 28, 28⟩
abbrev SYS_PAIR_STAT.HF : Fld := ⟨.pair, 0x4, 27, 27⟩
abbrev SYS_PAIR_STAT.CLASS : Fld := ⟨.pair, 0x4, 26, 24⟩
abbrev SYS_PAIR_STAT.ITEM : Fld := ⟨.pair, 0x4, 19, 16⟩
abbrev SYS_PAIR_STAT.RSVW : Fld := ⟨.pair, 0x4, 0, 0⟩
-- SYS_PAIR_CMD (17_paired_execution.md), offset 0x8
abbrev SYS_PAIR_CMD.CMD : Fld := ⟨.pair, 0x8, 1, 0⟩
-- SYS_PAIR_MMCNT (17_paired_execution.md), offset 0xC
abbrev SYS_PAIR_MMCNT.TESTS : Fld := ⟨.pair, 0xC, 31, 16⟩
abbrev SYS_PAIR_MMCNT.TRANS : Fld := ⟨.pair, 0xC, 15, 0⟩
-- SYS_PAIR_HFSTAMP (17_paired_execution.md), offset 0x10
abbrev SYS_PAIR_HFSTAMP.STAMP : Fld := ⟨.pair, 0x10, 63, 0⟩
-- SYS_PAIR_MMADDR (17_paired_execution.md), offset 0x18
abbrev SYS_PAIR_MMADDR.ADDR : Fld := ⟨.pair, 0x18, 31, 0⟩
-- SYS_PAIR_SGB (17_paired_execution.md), offset 0x1C
abbrev SYS_PAIR_SGB.OFS : Fld := ⟨.pair, 0x1C, 30, 6⟩
-- SYS_PAIR_DGB (17_paired_execution.md), offset 0x20
abbrev SYS_PAIR_DGB.OFS : Fld := ⟨.pair, 0x20, 30, 6⟩
-- SYS_MEM_CTRL (18_memory_and_correction_map.md), offset 0x0
abbrev SYS_MEM_CTRL.SCRUB : Fld := ⟨.memb, 0x0, 31, 31⟩
abbrev SYS_MEM_CTRL.SINTV : Fld := ⟨.memb, 0x0, 23, 16⟩
-- SYS_MEM_STAT (18_memory_and_correction_map.md), offset 0x4
abbrev SYS_MEM_STAT.WIPE_ONDIE : Fld := ⟨.memb, 0x4, 31, 31⟩
abbrev SYS_MEM_STAT.WIPE_DRAM : Fld := ⟨.memb, 0x4, 30, 30⟩
abbrev SYS_MEM_STAT.WIPE_PAIR : Fld := ⟨.memb, 0x4, 23, 16⟩
abbrev SYS_MEM_STAT.UE : Fld := ⟨.memb, 0x4, 2, 2⟩
abbrev SYS_MEM_STAT.CE : Fld := ⟨.memb, 0x4, 1, 1⟩
abbrev SYS_MEM_STAT.RSVW : Fld := ⟨.memb, 0x4, 0, 0⟩
-- SYS_MEM_CECNT (18_memory_and_correction_map.md), offset 0x8
abbrev SYS_MEM_CECNT.DRAM : Fld := ⟨.memb, 0x8, 31, 24⟩
abbrev SYS_MEM_CECNT.MAP : Fld := ⟨.memb, 0x8, 23, 16⟩
abbrev SYS_MEM_CECNT.SRAM : Fld := ⟨.memb, 0x8, 15, 8⟩
abbrev SYS_MEM_CECNT.TCM : Fld := ⟨.memb, 0x8, 7, 0⟩
-- SYS_MEM_UECNT (18_memory_and_correction_map.md), offset 0xC
abbrev SYS_MEM_UECNT.DRAM : Fld := ⟨.memb, 0xC, 31, 24⟩
abbrev SYS_MEM_UECNT.MAP : Fld := ⟨.memb, 0xC, 23, 16⟩
abbrev SYS_MEM_UECNT.SRAM : Fld := ⟨.memb, 0xC, 15, 8⟩
abbrev SYS_MEM_UECNT.TCM : Fld := ⟨.memb, 0xC, 7, 0⟩
-- SYS_MEM_EADDR (18_memory_and_correction_map.md), offset 0x10
abbrev SYS_MEM_EADDR.ADDR : Fld := ⟨.memb, 0x10, 31, 0⟩
-- SYS_MEM_ESRC (18_memory_and_correction_map.md), offset 0x14
abbrev SYS_MEM_ESRC.MEM : Fld := ⟨.memb, 0x14, 31, 28⟩
abbrev SYS_MEM_ESRC.CORE : Fld := ⟨.memb, 0x14, 27, 24⟩
abbrev SYS_MEM_ESRC.SRC : Fld := ⟨.memb, 0x14, 23, 16⟩
abbrev SYS_MEM_ESRC.POISON : Fld := ⟨.memb, 0x14, 15, 15⟩
-- SYS_MEM_ESTAMP (18_memory_and_correction_map.md), offset 0x18
abbrev SYS_MEM_ESTAMP.STAMP : Fld := ⟨.memb, 0x18, 63, 0⟩
-- SYS_MEM_MAPUSE (18_memory_and_correction_map.md), offset 0x20
abbrev SYS_MEM_MAPUSE.USE : Fld := ⟨.memb, 0x20, 63, 0⟩
-- SYS_MEM_EVQ (18_memory_and_correction_map.md), offset 0x28
abbrev SYS_MEM_EVQ.EN : Fld := ⟨.memb, 0x28, 31, 31⟩
abbrev SYS_MEM_EVQ.QUEUE : Fld := ⟨.memb, 0x28, 11, 0⟩
-- SUP_FSTAT (19_supervision_and_last_orders.md), offset 0x0
abbrev SUP_FSTAT.FAULT : Fld := ⟨.sup, 0x0, 31, 31⟩
abbrev SUP_FSTAT.PWD : Fld := ⟨.sup, 0x0, 15, 8⟩
abbrev SUP_FSTAT.DWD : Fld := ⟨.sup, 0x0, 7, 7⟩
abbrev SUP_FSTAT.HF : Fld := ⟨.sup, 0x0, 6, 6⟩
abbrev SUP_FSTAT.TRIPLE : Fld := ⟨.sup, 0x0, 5, 5⟩
abbrev SUP_FSTAT.EXTF : Fld := ⟨.sup, 0x0, 4, 4⟩
abbrev SUP_FSTAT.LO : Fld := ⟨.sup, 0x0, 3, 3⟩
abbrev SUP_FSTAT.UE : Fld := ⟨.sup, 0x0, 2, 2⟩
abbrev SUP_FSTAT.BOOT : Fld := ⟨.sup, 0x0, 1, 1⟩
abbrev SUP_FSTAT.RSVW : Fld := ⟨.sup, 0x0, 0, 0⟩
-- SUP_FMASK (19_supervision_and_last_orders.md), offset 0x4
abbrev SUP_FMASK.EXTF : Fld := ⟨.sup, 0x4, 4, 4⟩
abbrev SUP_FMASK.LO : Fld := ⟨.sup, 0x4, 3, 3⟩
abbrev SUP_FMASK.UE : Fld := ⟨.sup, 0x4, 2, 2⟩
-- SUP_ESC (19_supervision_and_last_orders.md), offset 0xC
abbrev SUP_ESC.EXTF_ACT : Fld := ⟨.sup, 0xC, 31, 30⟩
abbrev SUP_ESC.STOPTMO : Fld := ⟨.sup, 0xC, 23, 16⟩
abbrev SUP_ESC.EXTF_FILT : Fld := ⟨.sup, 0xC, 5, 0⟩
-- SUP_ESC_AXM (19_supervision_and_last_orders.md), offset 0x10
abbrev SUP_ESC_AXM.V : Fld := ⟨.sup, 0x10, 63, 0⟩
-- SUP_PWD_CTRL (19_supervision_and_last_orders.md), offset 0x20 + 16 i, i < 8
abbrev SUP_PWD_CTRL.EN : Fld := ⟨.sup, 0x20, 31, 31⟩
abbrev SUP_PWD_CTRL.LOCK : Fld := ⟨.sup, 0x20, 30, 30⟩
abbrev SUP_PWD_CTRL.WARN : Fld := ⟨.sup, 0x20, 23, 16⟩
-- SUP_PWD_WIN (19_supervision_and_last_orders.md), offset 0x24 + 16 i, i < 8
abbrev SUP_PWD_WIN.TMIN : Fld := ⟨.sup, 0x24, 31, 16⟩
abbrev SUP_PWD_WIN.TMAX : Fld := ⟨.sup, 0x24, 15, 0⟩
-- SUP_PWD_KICK (19_supervision_and_last_orders.md), offset 0x28 + 16 i, i < 8
abbrev SUP_PWD_KICK.KEY : Fld := ⟨.sup, 0x28, 31, 0⟩
-- SUP_PWD_STAT (19_supervision_and_last_orders.md), offset 0x2C + 16 i, i < 8
abbrev SUP_PWD_STAT.RUN : Fld := ⟨.sup, 0x2C, 31, 31⟩
abbrev SUP_PWD_STAT.FROZEN : Fld := ⟨.sup, 0x2C, 30, 30⟩
abbrev SUP_PWD_STAT.WARNED : Fld := ⟨.sup, 0x2C, 29, 29⟩
abbrev SUP_PWD_STAT.WD_DBGREL : Fld := ⟨.sup, 0x2C, 28, 28⟩
abbrev SUP_PWD_STAT.EARLY : Fld := ⟨.sup, 0x2C, 27, 27⟩
abbrev SUP_PWD_STAT.EXP : Fld := ⟨.sup, 0x2C, 26, 26⟩
abbrev SUP_PWD_STAT.LEFT : Fld := ⟨.sup, 0x2C, 15, 0⟩
-- SUP_DWD_CTRL (19_supervision_and_last_orders.md), offset 0x100
abbrev SUP_DWD_CTRL.EN : Fld := ⟨.sup, 0x100, 31, 31⟩
abbrev SUP_DWD_CTRL.LOCK : Fld := ⟨.sup, 0x100, 30, 30⟩
abbrev SUP_DWD_CTRL.WARN : Fld := ⟨.sup, 0x100, 23, 16⟩
abbrev SUP_DWD_CTRL.GRACE : Fld := ⟨.sup, 0x100, 15, 8⟩
abbrev SUP_DWD_CTRL.WPAIR : Fld := ⟨.sup, 0x100, 2, 0⟩
-- SUP_DWD_WIN (19_supervision_and_last_orders.md), offset 0x104
abbrev SUP_DWD_WIN.TMIN : Fld := ⟨.sup, 0x104, 31, 16⟩
abbrev SUP_DWD_WIN.TMAX : Fld := ⟨.sup, 0x104, 15, 0⟩
-- SUP_DWD_KICK (19_supervision_and_last_orders.md), offset 0x108
abbrev SUP_DWD_KICK.KEY : Fld := ⟨.sup, 0x108, 31, 0⟩
-- SUP_DWD_STAT (19_supervision_and_last_orders.md), offset 0x10C
abbrev SUP_DWD_STAT.RUN : Fld := ⟨.sup, 0x10C, 31, 31⟩
abbrev SUP_DWD_STAT.FROZEN : Fld := ⟨.sup, 0x10C, 30, 30⟩
abbrev SUP_DWD_STAT.WARNED : Fld := ⟨.sup, 0x10C, 29, 29⟩
abbrev SUP_DWD_STAT.WD_DBGREL : Fld := ⟨.sup, 0x10C, 28, 28⟩
abbrev SUP_DWD_STAT.EARLY : Fld := ⟨.sup, 0x10C, 27, 27⟩
abbrev SUP_DWD_STAT.EXP : Fld := ⟨.sup, 0x10C, 26, 26⟩
abbrev SUP_DWD_STAT.LEFT : Fld := ⟨.sup, 0x10C, 15, 0⟩
-- SUP_LO_CFG (19_supervision_and_last_orders.md), offset 0x200
abbrev SUP_LO_CFG.SRCEN : Fld := ⟨.sup, 0x200, 31, 27⟩
abbrev SUP_LO_CFG.VTH : Fld := ⟨.sup, 0x200, 25, 16⟩
abbrev SUP_LO_CFG.SNAP : Fld := ⟨.sup, 0x200, 15, 8⟩
abbrev SUP_LO_CFG.PFFILT : Fld := ⟨.sup, 0x200, 5, 0⟩
-- SUP_LO_STAT (19_supervision_and_last_orders.md), offset 0x204
abbrev SUP_LO_STAT.ACT : Fld := ⟨.sup, 0x204, 31, 31⟩
abbrev SUP_LO_STAT.DONE : Fld := ⟨.sup, 0x204, 30, 30⟩
abbrev SUP_LO_STAT.V1 : Fld := ⟨.sup, 0x204, 29, 29⟩
abbrev SUP_LO_STAT.V0 : Fld := ⟨.sup, 0x204, 28, 28⟩
abbrev SUP_LO_STAT.NEWEST : Fld := ⟨.sup, 0x204, 27, 27⟩
abbrev SUP_LO_STAT.SRC : Fld := ⟨.sup, 0x204, 7, 0⟩
-- SUP_LO_CMD (19_supervision_and_last_orders.md), offset 0x208
abbrev SUP_LO_CMD.CMD : Fld := ⟨.sup, 0x208, 1, 0⟩
-- SUP_LO_STAMP (19_supervision_and_last_orders.md), offset 0x210
abbrev SUP_LO_STAMP.V : Fld := ⟨.sup, 0x210, 63, 0⟩
-- SUP_LO_SEQ (19_supervision_and_last_orders.md), offset 0x218
abbrev SUP_LO_SEQ.SEQ : Fld := ⟨.sup, 0x218, 31, 0⟩
-- SUP_LO_USER (19_supervision_and_last_orders.md), offset 0x400 + 4 i, i < 96
abbrev SUP_LO_USER.V : Fld := ⟨.sup, 0x400, 31, 0⟩
-- SYS_PD_STAT (20_power_clocks_reset.md), offset 0x0
abbrev SYS_PD_STAT.ON : Fld := ⟨.pwr, 0x0, 47, 0⟩
-- SYS_PD_CMD (20_power_clocks_reset.md), offset 0x8
abbrev SYS_PD_CMD.GO : Fld := ⟨.pwr, 0x8, 31, 31⟩
abbrev SYS_PD_CMD.ON : Fld := ⟨.pwr, 0x8, 30, 30⟩
abbrev SYS_PD_CMD.DOMAIN : Fld := ⟨.pwr, 0x8, 5, 0⟩
-- SYS_PD_RES (20_power_clocks_reset.md), offset 0xC
abbrev SYS_PD_RES.BUSY : Fld := ⟨.pwr, 0xC, 31, 31⟩
abbrev SYS_PD_RES.ST : Fld := ⟨.pwr, 0xC, 26, 24⟩
abbrev SYS_PD_RES.DOMAIN : Fld := ⟨.pwr, 0xC, 5, 0⟩
-- SYS_RST_CMD (20_power_clocks_reset.md), offset 0x10
abbrev SYS_RST_CMD.CMD : Fld := ⟨.pwr, 0x10, 31, 30⟩
abbrev SYS_RST_CMD.KEY : Fld := ⟨.pwr, 0x10, 15, 0⟩
-- SYS_RST_STAT (20_power_clocks_reset.md), offset 0x14
abbrev SYS_RST_STAT.CLASS : Fld := ⟨.pwr, 0x14, 31, 31⟩
abbrev SYS_RST_STAT.CAUSE : Fld := ⟨.pwr, 0x14, 27, 24⟩
abbrev SYS_RST_STAT.RSVW : Fld := ⟨.pwr, 0x14, 16, 16⟩
abbrev SYS_RST_STAT.WARMS : Fld := ⟨.pwr, 0x14, 15, 0⟩
-- SYS_CLK_STAT (20_power_clocks_reset.md), offset 0x18
abbrev SYS_CLK_STAT.HOLD : Fld := ⟨.pwr, 0x18, 31, 31⟩
abbrev SYS_CLK_STAT.LOST : Fld := ⟨.pwr, 0x18, 30, 30⟩
abbrev SYS_CLK_STAT.LOSSES : Fld := ⟨.pwr, 0x18, 7, 0⟩
-- SYS_AVS_CTRL (20_power_clocks_reset.md), offset 0x20
abbrev SYS_AVS_CTRL.OUT : Fld := ⟨.pwr, 0x20, 31, 31⟩
abbrev SYS_AVS_CTRL.STHI : Fld := ⟨.pwr, 0x20, 25, 16⟩
abbrev SYS_AVS_CTRL.STLO : Fld := ⟨.pwr, 0x20, 9, 0⟩
-- SYS_AVS_STEP (20_power_clocks_reset.md), offset 0x24
abbrev SYS_AVS_STEP.SLOW : Fld := ⟨.pwr, 0x24, 31, 31⟩
abbrev SYS_AVS_STEP.RSVW : Fld := ⟨.pwr, 0x24, 30, 30⟩
abbrev SYS_AVS_STEP.MAX : Fld := ⟨.pwr, 0x24, 25, 16⟩
abbrev SYS_AVS_STEP.STEP : Fld := ⟨.pwr, 0x24, 9, 0⟩
-- SYS_BOOT_STAT (21_boot_and_life_cycle.md), offset 0x0
abbrev SYS_BOOT_STAT.DONE : Fld := ⟨.boot, 0x0, 31, 31⟩
abbrev SYS_BOOT_STAT.SLOT : Fld := ⟨.boot, 0x0, 30, 30⟩
abbrev SYS_BOOT_STAT.ERR : Fld := ⟨.boot, 0x0, 27, 24⟩
abbrev SYS_BOOT_STAT.MODE : Fld := ⟨.boot, 0x0, 19, 16⟩
abbrev SYS_BOOT_STAT.KSLOT : Fld := ⟨.boot, 0x0, 2, 0⟩
-- SYS_LC_STAT (21_boot_and_life_cycle.md), offset 0x4
abbrev SYS_LC_STAT.CST : Fld := ⟨.boot, 0x4, 30, 28⟩
abbrev SYS_LC_STAT.BUSY : Fld := ⟨.boot, 0x4, 27, 27⟩
abbrev SYS_LC_STAT.KIMG : Fld := ⟨.boot, 0x4, 16, 16⟩
abbrev SYS_LC_STAT.SLOTS : Fld := ⟨.boot, 0x4, 15, 8⟩
abbrev SYS_LC_STAT.STATE : Fld := ⟨.boot, 0x4, 2, 0⟩
-- SYS_LC_CMD (21_boot_and_life_cycle.md), offset 0x8
abbrev SYS_LC_CMD.GO : Fld := ⟨.boot, 0x8, 31, 31⟩
abbrev SYS_LC_CMD.OP : Fld := ⟨.boot, 0x8, 26, 24⟩
abbrev SYS_LC_CMD.PARAM : Fld := ⟨.boot, 0x8, 23, 16⟩
abbrev SYS_LC_CMD.KEY : Fld := ⟨.boot, 0x8, 15, 0⟩
-- SYS_LC_ARG (21_boot_and_life_cycle.md), offset 0xC
abbrev SYS_LC_ARG.ADDR : Fld := ⟨.boot, 0xC, 31, 0⟩
-- SYS_IMG_CMD (21_boot_and_life_cycle.md), offset 0x10
abbrev SYS_IMG_CMD.GO : Fld := ⟨.boot, 0x10, 31, 31⟩
abbrev SYS_IMG_CMD.OP : Fld := ⟨.boot, 0x10, 25, 24⟩
-- SYS_IMG_ADDR (21_boot_and_life_cycle.md), offset 0x14
abbrev SYS_IMG_ADDR.ADDR : Fld := ⟨.boot, 0x14, 31, 0⟩
-- SYS_IMG_RES (21_boot_and_life_cycle.md), offset 0x18
abbrev SYS_IMG_RES.BUSY : Fld := ⟨.boot, 0x18, 31, 31⟩
abbrev SYS_IMG_RES.ST : Fld := ⟨.boot, 0x18, 27, 24⟩
abbrev SYS_IMG_RES.SECT : Fld := ⟨.boot, 0x18, 19, 16⟩
-- SYS_LC_FLOOR (21_boot_and_life_cycle.md), offset 0x1C
abbrev SYS_LC_FLOOR.MCG : Fld := ⟨.boot, 0x1C, 20, 16⟩
abbrev SYS_LC_FLOOR.MCV : Fld := ⟨.boot, 0x1C, 12, 8⟩
abbrev SYS_LC_FLOOR.IMG : Fld := ⟨.boot, 0x1C, 5, 0⟩
-- SYS_DEVID (21_boot_and_life_cycle.md), offset 0x20
abbrev SYS_DEVID.DEVID : Fld := ⟨.boot, 0x20, 63, 0⟩
-- SYS_PFW (21_boot_and_life_cycle.md), offset 0x40 + 8 i, i < 8
abbrev SYS_PFW.ADDR : Fld := ⟨.boot, 0x40, 31, 0⟩
-- SYS_PFW_ST (21_boot_and_life_cycle.md), offset 0x44 + 8 i, i < 8
abbrev SYS_PFW_ST.VALID : Fld := ⟨.boot, 0x44, 31, 31⟩
abbrev SYS_PFW_ST.AUTO : Fld := ⟨.boot, 0x44, 30, 30⟩
abbrev SYS_PFW_ST.PST : Fld := ⟨.boot, 0x44, 26, 24⟩
abbrev SYS_PFW_ST.LEN16 : Fld := ⟨.boot, 0x44, 14, 0⟩
-- DBG_SESS (22_debug_and_run_control.md), offset 0x0
abbrev DBG_SESS.OPEN : Fld := ⟨.dbg, 0x0, 31, 31⟩
abbrev DBG_SESS.CLOSE : Fld := ⟨.dbg, 0x0, 30, 30⟩
abbrev DBG_SESS.ACTIVE : Fld := ⟨.dbg, 0x0, 29, 29⟩
abbrev DBG_SESS.HOUSE : Fld := ⟨.dbg, 0x0, 28, 28⟩
abbrev DBG_SESS.BSCAN : Fld := ⟨.dbg, 0x0, 27, 27⟩
abbrev DBG_SESS.AST : Fld := ⟨.dbg, 0x0, 26, 24⟩
-- DBG_CTRL (22_debug_and_run_control.md), offset 0x4
abbrev DBG_CTRL.STEPEM : Fld := ⟨.dbg, 0x4, 31, 31⟩
abbrev DBG_CTRL.BRKEN : Fld := ⟨.dbg, 0x4, 7, 0⟩
-- DBG_CMD (22_debug_and_run_control.md), offset 0x8
abbrev DBG_CMD.ACT : Fld := ⟨.dbg, 0x8, 31, 30⟩
abbrev DBG_CMD.TARGET : Fld := ⟨.dbg, 0x8, 7, 0⟩
-- DBG_STAT (22_debug_and_run_control.md), offset 0xC
abbrev DBG_STAT.TAPH : Fld := ⟨.dbg, 0xC, 31, 31⟩
abbrev DBG_STAT.ERR : Fld := ⟨.dbg, 0xC, 1, 1⟩
abbrev DBG_STAT.RSVW : Fld := ⟨.dbg, 0xC, 0, 0⟩
-- DBG_SHALT (22_debug_and_run_control.md), offset 0x10
abbrev DBG_SHALT.SLICE : Fld := ⟨.dbg, 0x10, 63, 0⟩
-- DBG_CSTAT (22_debug_and_run_control.md), offset 0x0 + 4 i, i < 16
abbrev DBG_CSTAT.HALTED : Fld := ⟨.dbgc, 0x0, 31, 31⟩
abbrev DBG_CSTAT.WHY : Fld := ⟨.dbgc, 0x0, 26, 24⟩
abbrev DBG_CSTAT.CSLICE : Fld := ⟨.dbgc, 0x0, 7, 0⟩
-- DBG_NONCE (22_debug_and_run_control.md), offset 0x40 + 4 i, i < 8
abbrev DBG_NONCE.V : Fld := ⟨.dbg, 0x40, 31, 0⟩
-- DBG_AUTHBUF (22_debug_and_run_control.md), offset 0x80 + 4 i, i < 32
abbrev DBG_AUTHBUF.V : Fld := ⟨.dbg, 0x80, 31, 0⟩
-- DBG_FEED (22_debug_and_run_control.md), offset 0x100 + 4 i, i < 4
abbrev DBG_FEED.V : Fld := ⟨.dbg, 0x100, 31, 0⟩
-- DBG_FEED_GO (22_debug_and_run_control.md), offset 0x110
abbrev DBG_FEED_GO.V : Fld := ⟨.dbg, 0x110, 31, 0⟩
-- DBG_FEED_ST (22_debug_and_run_control.md), offset 0x114
abbrev DBG_FEED_ST.DONE : Fld := ⟨.dbg, 0x114, 31, 31⟩
abbrev DBG_FEED_ST.REFUSED : Fld := ⟨.dbg, 0x114, 30, 30⟩
abbrev DBG_FEED_ST.VEC : Fld := ⟨.dbg, 0x114, 4, 0⟩
-- DBG_BP (22_debug_and_run_control.md), offset 0x200 + 4 i, i < 32
abbrev DBG_BP.ADDR : Fld := ⟨.dbg, 0x200, 31, 4⟩
abbrev DBG_BP.EN : Fld := ⟨.dbg, 0x200, 0, 0⟩

def cards_sys : List Card := [
  ⟨0x0, 1, 0, 0x64504B11, 0xFFFFFFFF, 0x0, 0x0, 0x0, 0x0, .none, false⟩]

def cards_tb : List Card := [
  ⟨0x0, 1, 0, 0x0, 0xC0000001, 0x0, 0x1, 0x0, 0x0, .none, false⟩,
  ⟨0x8, 1, 0, 0x0, 0xFFFFFFFF, 0x0, 0x0, 0x0, 0x0, .low, false⟩,
  ⟨0xC, 1, 0, 0x0, 0xFFFFFFFF, 0x0, 0x0, 0x0, 0x0, .high, false⟩,
  ⟨0x10, 1, 0, 0x0, 0x80000FFF, 0x80000FFF, 0x0, 0x0, 0x0, .none, false⟩]

def cards_pg : List Card := [
  ⟨0x0, 1, 0, 0x9C4, 0x3FFFF, 0x3FFFF, 0x0, 0x0, 0x0, .none, false⟩,
  ⟨0x4, 1, 0, 0x0, 0x3FFFF, 0x3FFFF, 0x0, 0x0, 0x0, .none, false⟩,
  ⟨0x8, 1, 0, 0x0, 0x3F03FFFF, 0x3F03FFFF, 0x0, 0x0, 0x0, .none, false⟩,
  ⟨0xC, 1, 0, 0x2E, 0x3FFFF, 0x3FFFF, 0x0, 0x0, 0x0, .none, false⟩,
  ⟨0x10, 1, 0, 0x9BA, 0x3FFFF, 0x3FFFF, 0x0, 0x0, 0x0, .none, false⟩,
  ⟨0x14, 1, 0, 0x0, 0xC0000000, 0xC0000000, 0x0, 0x0, 0x0, .none, false⟩,
  ⟨0x18, 1, 0, 0x7F0000, 0xF77F00FF, 0x0, 0x60000000, 0x0, 0xFF, .none, false⟩,
  ⟨0x1C, 1, 0, 0x7FFFFF, 0x7FFFFF, 0x0, 0x0, 0x0, 0x7FFFFF, .none, false⟩,
  ⟨0x20, 1, 0, 0x0, 0xFFFFFFFF, 0x0, 0x0, 0x0, 0x0, .low, false⟩,
  ⟨0x24, 1, 0, 0x0, 0xFFFFFFFF, 0x0, 0x0, 0x0, 0x0, .high, false⟩]

def cards_sl : List Card := [
  ⟨0xFF80, 1, 0, 0x0, 0x0, 0x0, 0x0, 0x0, 0x0, .none, false⟩,
  ⟨0xFF84, 1, 0, 0x0, 0xF000FFFF, 0x0, 0x0, 0x0, 0x0, .none, false⟩,
  ⟨0xFF88, 1, 0, 0x0, 0xFFFFFFFF, 0x0, 0x0, 0x0, 0x0, .low, false⟩,
  ⟨0xFF8C, 1, 0, 0x0, 0xFFFFFFFF, 0x0, 0x0, 0x0, 0x0, .high, false⟩,
  ⟨0x18, 1, 0, 0x0, 0x1F0FFFFF, 0x1F0FFFFF, 0x0, 0x0, 0x0, .none, false⟩,
  ⟨0x1C, 1, 0, 0x0, 0x1F0FFFFF, 0x1F0FFFFF, 0x0, 0x0, 0x0, .none, false⟩,
  ⟨0x8004, 1, 0, 0x0, 0xC0070001, 0x0, 0x1, 0x0, 0x0, .none, false⟩,
  ⟨0x8010, 1, 0, 0x0, 0x1F0FFFFF, 0x0, 0x0, 0x0, 0x0, .none, false⟩,
  ⟨0x8014, 1, 0, 0x0, 0x1F0FFFFF, 0x0, 0x0, 0x0, 0x0, .none, false⟩,
  ⟨0x8020, 1, 0, 0x0, 0x1F0FFFFF, 0x0, 0x0, 0x0, 0x0, .none, false⟩,
  ⟨0x8030, 1, 0, 0x0, 0xFFFFFFFF, 0x0, 0x0, 0x0, 0x0, .none, false⟩,
  ⟨0x803C, 1, 0, 0x0, 0xFFFFFFFF, 0x0, 0x0, 0x0, 0x0, .none, false⟩,
  ⟨0x8080, 1, 0, 0x80000310, 0xC0000FFF, 0xC0000FFF, 0x0, 0x0, 0x0, .none, false⟩,
  ⟨0x8084, 1, 0, 0x0, 0xF0FF0FFF, 0x0, 0x80000000, 0x0, 0xFF, .none, false⟩,
  ⟨0x8088, 1, 0, 0x3F000000, 0x3F000FFF, 0x3F000FFF, 0x0, 0x0, 0x0, .none, false⟩,
  ⟨0xA000, 1, 0, 0xA000000, 0xDFFF03FF, 0xDFFF03FF, 0x0, 0x0, 0x0, .none, false⟩,
  ⟨0xA004, 1, 0, 0x0, 0xFFFFFFFF, 0xFFFFFFFF, 0x0, 0x0, 0x0, .none, false⟩,
  ⟨0xA008, 1, 0, 0x0, 0xFFFFFFFF, 0xFFFFFFFF, 0x0, 0x0, 0x0, .none, false⟩,
  ⟨0xA010, 1, 0, 0x80000000, 0xFFFFFFFF, 0xFFFFFFFF, 0x0, 0x0, 0x0, .none, false⟩,
  ⟨0xA014, 1, 0, 0x0, 0xE00000FF, 0x0, 0x40000000, 0x0, 0x0, .none, false⟩,
  ⟨0xA018, 1, 0, 0x0, 0xFFFFFFFF, 0x0, 0x0, 0x0, 0x0, .none, false⟩,
  ⟨0x4000, 1, 0, 0xF0000, 0xFE0F0000, 0xFE0F0000, 0x0, 0x0, 0x0, .none, false⟩,
  ⟨0x4004, 1, 0, 0x27100, 0x7FFFFF, 0x7FFFFF, 0x0, 0x0, 0x0, .none, false⟩,
  ⟨0x4008, 1, 0, 0x0, 0x7FFFFF, 0x7FFFFF, 0x0, 0x0, 0x0, .none, false⟩,
  ⟨0x400C, 1, 0, 0x0, 0xFF, 0xFF, 0x0, 0x0, 0x0, .none, false⟩,
  ⟨0x4010, 3, 4, 0x10140320, 0x30FFFFFF, 0x30FFFFFF, 0x0, 0x0, 0x0, .none, false⟩,
  ⟨0x4020, 1, 0, 0x0, 0xFFFFFFFF, 0x0, 0x0, 0x0, 0x0, .none, false⟩,
  ⟨0x4024, 1, 0, 0x0, 0xFFFFFFFF, 0x0, 0x0, 0x0, 0x0, .none, false⟩,
  ⟨0x4028, 1, 0, 0x0, 0xFFFFFFFF, 0x0, 0x0, 0x0, 0x0, .none, false⟩,
  ⟨0x402C, 1, 0, 0x0, 0xFFFFFFFF, 0x0, 0x0, 0x0, 0x0, .none, false⟩,
  ⟨0x4030, 1, 0, 0x0, 0xFEF30300, 0x0, 0x6000300, 0x0, 0x0, .none, false⟩,
  ⟨0x4034, 1, 0, 0x0, 0x7FF, 0x0, 0x0, 0x0, 0x0, .none, false⟩,
  ⟨0x4038, 1, 0, 0x0, 0x0, 0x0, 0x0, 0x0, 0x0, .none, false⟩,
  ⟨0x403C, 1, 0, 0x0, 0x80000FFF, 0x80000FFF, 0x0, 0x0, 0x0, .none, false⟩,
  ⟨0x4040, 2, 4, 0x20040000, 0xF03F0000, 0xF03F0000, 0x0, 0x0, 0x0, .none, false⟩,
  ⟨0x4048, 1, 0, 0x0, 0xFFFFFFFF, 0x0, 0x0, 0x0, 0x0, .low, false⟩,
  ⟨0x404C, 1, 0, 0x0, 0xFFFFFFFF, 0x0, 0x0, 0x0, 0x0, .high, false⟩,
  ⟨0x4050, 1, 0, 0x0, 0xFFFFFFFF, 0x0, 0x0, 0x0, 0x0, .low, false⟩,
  ⟨0x4054, 1, 0, 0x0, 0xFFFFFFFF, 0x0, 0x0, 0x0, 0x0, .high, false⟩]

def cards_tw : List Card := [
  ⟨0x0, 1, 0, 0x0, 0xCF33F3FF, 0xCF33F3FF, 0x0, 0x0, 0x0, .none, false⟩,
  ⟨0x4, 1, 0, 0x0, 0xF80000FF, 0x0, 0x0, 0x0, 0xFF, .none, false⟩,
  ⟨0x8, 1, 0, 0x0, 0xFFFFFFFF, 0xFFFFFFFF, 0x0, 0x0, 0x0, .none, false⟩,
  ⟨0xC, 1, 0, 0x0, 0xFFFFFFFF, 0xFFFFFFFF, 0x0, 0x0, 0x0, .none, false⟩,
  ⟨0x10, 1, 0, 0x0, 0xFFFFFFFF, 0xFFFFFFFF, 0x0, 0x0, 0x0, .none, false⟩,
  ⟨0x14, 1, 0, 0x0, 0xFFFFFFFF, 0xFFFFFFFF, 0x0, 0x0, 0x0, .none, false⟩,
  ⟨0x18, 1, 0, 0x0, 0xFFFFFFFF, 0x0, 0x0, 0x0, 0x0, .low, false⟩,
  ⟨0x1C, 1, 0, 0x0, 0xFFFFFFFF, 0x0, 0x0, 0x0, 0x0, .high, false⟩]

def cards_bank : List Card := [
  ⟨0x0, 1, 0, 0x0, 0xC0000FFF, 0xC0000FFF, 0x0, 0x0, 0x0, .none, false⟩,
  ⟨0x4, 1, 0, 0x0, 0xE7000007, 0x0, 0x7, 0x0, 0x0, .none, false⟩,
  ⟨0x8, 1, 0, 0xA0020, 0x80FF00FF, 0x80FF00FF, 0x0, 0x0, 0x0, .none, false⟩,
  ⟨0xC, 1, 0, 0x0, 0x0, 0x0, 0x0, 0x0, 0x0, .none, false⟩,
  ⟨0x10, 1, 0, 0xF00F0000, 0xF7FF3FFF, 0x0, 0x0, 0x0, 0x0, .none, false⟩,
  ⟨0x14, 1, 0, 0x0, 0xFFFF00FF, 0x0, 0x0, 0x0, 0xFF, .none, false⟩,
  ⟨0x18, 1, 0, 0x0, 0x0, 0x0, 0x0, 0x0, 0x0, .none, false⟩,
  ⟨0x1C, 1, 0, 0x0, 0xFFFFFFFF, 0x0, 0x0, 0x0, 0x80000000, .none, false⟩,
  ⟨0x20, 1, 0, 0x0, 0x7, 0x0, 0x0, 0x0, 0x0, .none, false⟩]

def cards_slot : List Card := [
  ⟨0x0, 1, 0, 0x10000020, 0xB0003FFF, 0xB0003FFF, 0x0, 0x0, 0x0, .none, false⟩,
  ⟨0x4, 1, 0, 0x0, 0xF00F000F, 0x0, 0x10000000, 0x0, 0x0, .none, false⟩,
  ⟨0x8, 1, 0, 0x0, 0xFFFFFFFF, 0x0, 0x0, 0x0, 0x0, .none, false⟩,
  ⟨0xC, 1, 0, 0x0, 0x7FFF3FFF, 0x0, 0x0, 0x0, 0x0, .none, false⟩,
  ⟨0x10, 1, 0, 0x0, 0xFFFF, 0x0, 0x0, 0x0, 0x0, .none, false⟩]

def cards_cell : List Card := [
  ⟨0x0, 1, 0, 0x0, 0xFFFF, 0x0, 0x0, 0x0, 0x0, .none, false⟩,
  ⟨0x4, 1, 0, 0x8000, 0xFFFF, 0x0, 0x0, 0x0, 0x0, .none, false⟩,
  ⟨0x8, 1, 0, 0x0, 0xCF000000, 0x0, 0x0, 0x0, 0x0, .none, false⟩]

def cards_cmp : List Card := [
  ⟨0x0, 1, 0, 0x0, 0xFE00000F, 0xFE00000F, 0x0, 0x0, 0x0, .none, false⟩,
  ⟨0x4, 1, 0, 0x3FF03FF, 0x3FF03FF, 0x3FF, 0x0, 0x0, 0x0, .none, false⟩,
  ⟨0x8, 1, 0, 0x0, 0xFF0703, 0xFF0703, 0x0, 0x0, 0x0, .none, false⟩,
  ⟨0xC, 1, 0, 0x7F0000, 0xFC7F3FFF, 0xFC7F3FFF, 0x0, 0x0, 0x0, .none, false⟩,
  ⟨0x10, 1, 0, 0x40000000, 0xFFC70001, 0x0, 0xF000001, 0x0, 0x0, .none, false⟩,
  ⟨0x14, 1, 0, 0x0, 0xFFFF, 0x0, 0x0, 0x0, 0xFFFF, .none, false⟩,
  ⟨0x18, 1, 0, 0x0, 0xFFFFFFFF, 0x0, 0x0, 0x0, 0x0, .low, false⟩,
  ⟨0x1C, 1, 0, 0x0, 0xFFFFFFFF, 0x0, 0x0, 0x0, 0x0, .high, false⟩,
  ⟨0x20, 1, 0, 0x0, 0x0, 0x0, 0x0, 0x0, 0x0, .none, false⟩,
  ⟨0x24, 1, 0, 0x0, 0xF800FFFF, 0x0, 0x0, 0x0, 0x0, .none, false⟩,
  ⟨0x28, 1, 0, 0x10003, 0xC0FF00FF, 0xC0FF00FF, 0x0, 0x0, 0x0, .none, false⟩]

def cards_cmpw : List Card := [
  ⟨0x80, 1, 0, 0x0, 0xC0000000, 0xC0000000, 0x0, 0x0, 0x0, .none, false⟩,
  ⟨0x84, 1, 0, 0x40000000, 0xE000FFFF, 0x0, 0x20000000, 0x0, 0xFFFF, .none, false⟩]

def cards_port : List Card := [
  ⟨0x0, 1, 0, 0x0, 0xBF000000, 0xBF000000, 0x0, 0x0, 0x0, .none, false⟩,
  ⟨0x4, 1, 0, 0x0, 0xC07F000F, 0xC07F000F, 0x0, 0x0, 0x0, .none, false⟩,
  ⟨0x8, 1, 0, 0x0, 0xFEF7F001, 0x0, 0xE000001, 0x0, 0x0, .none, false⟩,
  ⟨0xC, 1, 0, 0x2, 0x37, 0x37, 0x0, 0x0, 0x0, .none, false⟩,
  ⟨0x10, 1, 0, 0x18320019, 0x3FFF0FFF, 0x3FFF0FFF, 0x0, 0x0, 0x0, .none, false⟩,
  ⟨0x14, 1, 0, 0x578, 0x3FFFF, 0x3FFFF, 0x0, 0x0, 0x0, .none, false⟩,
  ⟨0x18, 1, 0, 0x60000003, 0xF000FFFF, 0xF000FFFF, 0x0, 0x0, 0x0, .none, false⟩,
  ⟨0x1C, 1, 0, 0x20000003, 0x30FFF00F, 0x30FFF00F, 0x0, 0x0, 0x0, .none, false⟩,
  ⟨0x20, 1, 0, 0x0, 0xFFFFFFFF, 0x0, 0x0, 0x0, 0x0, .low, false⟩,
  ⟨0x24, 1, 0, 0x0, 0xFFFFFFFF, 0x0, 0x0, 0x0, 0x0, .high, false⟩,
  ⟨0x28, 1, 0, 0x0, 0xFFFFFFFF, 0x0, 0x0, 0x0, 0x0, .low, false⟩,
  ⟨0x2C, 1, 0, 0x0, 0xFFFFFFFF, 0x0, 0x0, 0x0, 0x0, .high, false⟩,
  ⟨0x30, 1, 0, 0x0, 0xFFFFFFFF, 0x0, 0x0, 0x0, 0x0, .low, false⟩,
  ⟨0x34, 1, 0, 0x0, 0xFFFFFFFF, 0x0, 0x0, 0x0, 0x0, .high, false⟩,
  ⟨0x40, 1, 0, 0x0, 0xFFFFFFFF, 0x0, 0x0, 0x0, 0x0, .low, false⟩,
  ⟨0x44, 1, 0, 0x0, 0xFFFFFFFF, 0x0, 0x0, 0x0, 0x0, .high, false⟩,
  ⟨0x48, 1, 0, 0x0, 0xFFFFFFFF, 0x0, 0x0, 0x0, 0x0, .low, false⟩,
  ⟨0x4C, 1, 0, 0x0, 0xFFFFFFFF, 0x0, 0x0, 0x0, 0x0, .high, false⟩,
  ⟨0x50, 1, 0, 0x0, 0xFFFFFFFF, 0xFFFFFFFF, 0x0, 0x0, 0x0, .none, false⟩,
  ⟨0x54, 1, 0, 0x0, 0xFFFFFFFF, 0xFFFFFFFF, 0x0, 0x0, 0x0, .none, false⟩,
  ⟨0x38, 1, 0, 0x0, 0xFFFFFFFF, 0x0, 0x0, 0x0, 0x0, .none, false⟩,
  ⟨0x3C, 1, 0, 0x0, 0xFFFF, 0x0, 0x0, 0x0, 0x0, .none, false⟩,
  ⟨0x60, 1, 0, 0x0, 0x0, 0x0, 0x0, 0x0, 0x0, .none, false⟩,
  ⟨0x64, 1, 0, 0x0, 0xF00000FF, 0x0, 0x0, 0x0, 0x80000000, .none, false⟩]

def cards_ax0 : List Card := [
  ⟨0x0, 1, 0, 0x0, 0xBE0F0700, 0xBE0F0700, 0x0, 0x0, 0x0, .none, false⟩,
  ⟨0x4, 1, 0, 0x0, 0xFF, 0x0, 0x0, 0x0, 0x0, .none, true⟩,
  ⟨0x8, 1, 0, 0x100000, 0xFFFFFFFF, 0xFFFFFFFF, 0x0, 0x0, 0x0, .none, false⟩,
  ⟨0xC, 1, 0, 0x0, 0xFFFF, 0xFFFF, 0x0, 0x0, 0x0, .none, false⟩,
  ⟨0x10, 1, 0, 0x1, 0x7F, 0x7F, 0x0, 0x0, 0x0, .none, false⟩,
  ⟨0x14, 1, 0, 0x0, 0xFFFFFFFF, 0xFFFFFFFF, 0x0, 0x0, 0x0, .none, false⟩,
  ⟨0x20, 1, 0, 0x0, 0x1F0FFFFF, 0x1F0FFFFF, 0x0, 0x0, 0x0, .none, false⟩,
  ⟨0x24, 1, 0, 0x0, 0x1F0FFFFF, 0x1F0FFFFF, 0x0, 0x0, 0x0, .none, false⟩,
  ⟨0x28, 1, 0, 0xFFFFFFF, 0xFFFFFFF, 0xFFFFFFF, 0x0, 0x0, 0x0, .none, false⟩,
  ⟨0x2C, 1, 0, 0xF, 0xF, 0xF, 0x0, 0x0, 0x0, .none, false⟩,
  ⟨0x30, 1, 0, 0x0, 0x1F0FFFFF, 0x1F0FFFFF, 0x0, 0x0, 0x0, .none, false⟩,
  ⟨0x34, 1, 0, 0xA0, 0xFF3F00FF, 0x0, 0x0, 0x0, 0x0, .none, true⟩,
  ⟨0x38, 1, 0, 0x0, 0xFFFFFFFF, 0x0, 0x0, 0x0, 0x0, .none, true⟩,
  ⟨0x3C, 1, 0, 0x0, 0xFFFFFFFF, 0x0, 0x0, 0x0, 0x0, .none, true⟩,
  ⟨0x40, 1, 0, 0x1, 0xFFFFFFFF, 0x0, 0x0, 0x0, 0x0, .none, true⟩,
  ⟨0x44, 1, 0, 0x0, 0xFFFFFFFF, 0x0, 0x0, 0x0, 0x0, .none, true⟩,
  ⟨0x48, 1, 0, 0x0, 0xFFFFFFFF, 0x0, 0x0, 0x0, 0x0, .none, true⟩,
  ⟨0x4C, 1, 0, 0x1, 0xFFFFFFFF, 0x0, 0x0, 0x0, 0x0, .none, true⟩,
  ⟨0x50, 1, 0, 0x0, 0x1F0FFFFF, 0x0, 0x0, 0x0, 0x0, .none, true⟩,
  ⟨0x54, 1, 0, 0x0, 0x1F0FFFFF, 0x0, 0x0, 0x0, 0x0, .none, true⟩,
  ⟨0x58, 1, 0, 0x0, 0x1F0FFFFF, 0x0, 0x0, 0x0, 0x0, .none, true⟩,
  ⟨0x2000, 2, 4096, 0x0, 0x1F0FFFFF, 0x1F0FFFFF, 0x0, 0x0, 0x0, .none, false⟩,
  ⟨0x2004, 2, 4096, 0x0, 0x1F0FFFFF, 0x1F0FFFFF, 0x0, 0x0, 0x0, .none, false⟩,
  ⟨0x2008, 2, 4096, 0x0, 0x1F0FFFFF, 0x1F0FFFFF, 0x0, 0x0, 0x0, .none, false⟩,
  ⟨0x200C, 2, 4096, 0x0, 0x1F0FFFFF, 0x1F0FFFFF, 0x0, 0x0, 0x0, .none, false⟩,
  ⟨0x2010, 2, 4096, 0x0, 0x1F0FFFFF, 0x1F0FFFFF, 0x0, 0x0, 0x0, .none, false⟩,
  ⟨0x2014, 2, 4096, 0x0, 0x1F0FFFFF, 0x1F0FFFFF, 0x0, 0x0, 0x0, .none, false⟩,
  ⟨0x2018, 2, 4096, 0x0, 0x1F0FFFFF, 0x1F0FFFFF, 0x0, 0x0, 0x0, .none, false⟩,
  ⟨0x201C, 2, 4096, 0x0, 0x1F0FFFFF, 0x1F0FFFFF, 0x0, 0x0, 0x0, .none, false⟩,
  ⟨0x2020, 2, 4096, 0x1040000, 0x1F0FFFFF, 0x1F0FFFFF, 0x0, 0x0, 0x0, .none, false⟩,
  ⟨0x2024, 2, 4096, 0x0, 0x1F0FFFFF, 0x1F0FFFFF, 0x0, 0x0, 0x0, .none, false⟩,
  ⟨0x2028, 2, 4096, 0x0, 0x1F0FFFFF, 0x1F0FFFFF, 0x0, 0x0, 0x0, .none, false⟩,
  ⟨0x202C, 2, 4096, 0x1040000, 0x1F0FFFFF, 0x1F0FFFFF, 0x0, 0x0, 0x0, .none, false⟩,
  ⟨0x2030, 2, 4096, 0x0, 0x1F0FFFFF, 0x1F0FFFFF, 0x0, 0x0, 0x0, .none, false⟩,
  ⟨0x2034, 2, 4096, 0x0, 0x1F0FFFFF, 0x1F0FFFFF, 0x0, 0x0, 0x0, .none, false⟩,
  ⟨0x2038, 2, 4096, 0x0, 0x1F0FFFFF, 0x1F0FFFFF, 0x0, 0x0, 0x0, .none, false⟩,
  ⟨0x2040, 2, 4096, 0x0, 0x1F0FFFFF, 0x1F0FFFFF, 0x0, 0x0, 0x0, .none, false⟩,
  ⟨0x2044, 2, 4096, 0x0, 0x1F0FFFFF, 0x1F0FFFFF, 0x0, 0x0, 0x0, .none, false⟩,
  ⟨0x2048, 2, 4096, 0x0, 0x1F0FFFFF, 0x1F0FFFFF, 0x0, 0x0, 0x0, .none, false⟩,
  ⟨0x204C, 2, 4096, 0x0, 0x1F0FFFFF, 0x1F0FFFFF, 0x0, 0x0, 0x0, .none, false⟩]

def cards_ax1 : List Card := [
  ⟨0x2050, 2, 4096, 0x0, 0x1F0FFFFF, 0x1F0FFFFF, 0x0, 0x0, 0x0, .none, false⟩,
  ⟨0x2054, 2, 4096, 0x0, 0x1F0FFFFF, 0x1F0FFFFF, 0x0, 0x0, 0x0, .none, false⟩,
  ⟨0x2058, 2, 4096, 0x0, 0x1F0FFFFF, 0x1F0FFFFF, 0x0, 0x0, 0x0, .none, false⟩,
  ⟨0x2060, 2, 4096, 0x0, 0x1F0FFFFF, 0x1F0FFFFF, 0x0, 0x0, 0x0, .none, false⟩,
  ⟨0x2064, 2, 4096, 0x0, 0x1F0FFFFF, 0x1F0FFFFF, 0x0, 0x0, 0x0, .none, false⟩,
  ⟨0x2068, 2, 4096, 0x0, 0x1F0FFFFF, 0x1F0FFFFF, 0x0, 0x0, 0x0, .none, false⟩,
  ⟨0x206C, 2, 4096, 0x0, 0x1F0FFFFF, 0x1F0FFFFF, 0x0, 0x0, 0x0, .none, false⟩,
  ⟨0x2080, 4, 32, 0x1040000, 0x1F0FFFFF, 0x1F0FFFFF, 0x0, 0x0, 0x0, .none, false⟩,
  ⟨0x3080, 4, 32, 0x1040000, 0x1F0FFFFF, 0x1F0FFFFF, 0x0, 0x0, 0x0, .none, false⟩,
  ⟨0x2084, 4, 32, 0x0, 0x1F0FFFFF, 0x1F0FFFFF, 0x0, 0x0, 0x0, .none, false⟩,
  ⟨0x3084, 4, 32, 0x0, 0x1F0FFFFF, 0x1F0FFFFF, 0x0, 0x0, 0x0, .none, false⟩,
  ⟨0x2088, 4, 32, 0x0, 0x1F0FFFFF, 0x1F0FFFFF, 0x0, 0x0, 0x0, .none, false⟩,
  ⟨0x3088, 4, 32, 0x0, 0x1F0FFFFF, 0x1F0FFFFF, 0x0, 0x0, 0x0, .none, false⟩,
  ⟨0x208C, 4, 32, 0x0, 0x1F0FFFFF, 0x1F0FFFFF, 0x0, 0x0, 0x0, .none, false⟩,
  ⟨0x308C, 4, 32, 0x0, 0x1F0FFFFF, 0x1F0FFFFF, 0x0, 0x0, 0x0, .none, false⟩,
  ⟨0x2090, 4, 32, 0x0, 0x1F0FFFFF, 0x1F0FFFFF, 0x0, 0x0, 0x0, .none, false⟩,
  ⟨0x3090, 4, 32, 0x0, 0x1F0FFFFF, 0x1F0FFFFF, 0x0, 0x0, 0x0, .none, false⟩,
  ⟨0x8000, 1, 0, 0x0, 0xC0FE1F1E, 0x0, 0x0, 0x0, 0xC0FE1F1E, .none, false⟩,
  ⟨0x8018, 1, 0, 0x0, 0x1F0FFFFF, 0x0, 0x0, 0x0, 0x0, .none, false⟩,
  ⟨0x801C, 1, 0, 0x0, 0x1F0FFFFF, 0x0, 0x0, 0x0, 0x0, .none, false⟩,
  ⟨0x8024, 1, 0, 0x0, 0x1F0FFFFF, 0x0, 0x0, 0x0, 0x0, .none, false⟩,
  ⟨0x8028, 1, 0, 0x0, 0x1F0FFFFF, 0x0, 0x0, 0x0, 0x0, .none, false⟩,
  ⟨0x802C, 1, 0, 0x0, 0x1F0FFFFF, 0x0, 0x0, 0x0, 0x0, .none, false⟩,
  ⟨0x8034, 1, 0, 0x0, 0xFFFF, 0x0, 0x0, 0x0, 0x0, .none, false⟩,
  ⟨0x8038, 1, 0, 0x0, 0xFFFFFFFF, 0x0, 0x0, 0x0, 0x0, .none, false⟩,
  ⟨0x8040, 1, 0, 0x0, 0xFFFFFFFF, 0x0, 0x0, 0x0, 0x0, .low, false⟩,
  ⟨0x8044, 1, 0, 0x0, 0xFFFFFFFF, 0x0, 0x0, 0x0, 0x0, .high, false⟩,
  ⟨0x6000, 1, 0, 0x40000000, 0xC0000000, 0x0, 0x0, 0x0, 0x0, .none, true⟩,
  ⟨0x6008, 1, 0, 0x0, 0xFFFFFFFF, 0x0, 0x0, 0x0, 0x0, .none, true⟩,
  ⟨0x600C, 1, 0, 0x0, 0xFFFFFFFF, 0x0, 0x0, 0x0, 0x0, .none, true⟩,
  ⟨0x6010, 1, 0, 0x0, 0xFFFFFFFF, 0x0, 0x0, 0x0, 0x0, .none, true⟩,
  ⟨0x6014, 1, 0, 0x0, 0xFFFFFFFF, 0x0, 0x0, 0x0, 0x0, .none, true⟩,
  ⟨0x6018, 1, 0, 0x0, 0xFFFFFFFF, 0x0, 0x0, 0x0, 0x0, .none, true⟩,
  ⟨0x601C, 1, 0, 0x0, 0xFFFFFFFF, 0x0, 0x0, 0x0, 0x0, .none, true⟩,
  ⟨0x6020, 1, 0, 0x0, 0xFFFFFFFF, 0x0, 0x0, 0x0, 0x0, .none, true⟩,
  ⟨0x6024, 1, 0, 0x0, 0xFFFFFFFF, 0x0, 0x0, 0x0, 0x0, .none, true⟩,
  ⟨0x6030, 1, 0, 0x0, 0xFFFFFFFF, 0x0, 0x0, 0x0, 0x0, .none, true⟩,
  ⟨0x6034, 1, 0, 0x0, 0xFFFFFFFF, 0x0, 0x0, 0x0, 0x0, .none, true⟩,
  ⟨0x6038, 1, 0, 0x0, 0xFFFFFFFF, 0x0, 0x0, 0x0, 0x0, .none, true⟩,
  ⟨0x603C, 1, 0, 0x0, 0xFFFFFFFF, 0x0, 0x0, 0x0, 0x0, .none, true⟩]

def cards_ax2 : List Card := [
  ⟨0x6040, 1, 0, 0x0, 0xFFFFFFFF, 0x0, 0x0, 0x0, 0x0, .none, true⟩,
  ⟨0x6044, 1, 0, 0x0, 0xFFFFFFFF, 0x0, 0x0, 0x0, 0x0, .none, true⟩,
  ⟨0x6048, 1, 0, 0x0, 0xFFFFFFFF, 0x0, 0x0, 0x0, 0x0, .none, true⟩,
  ⟨0x604C, 1, 0, 0x0, 0xFFFFFFFF, 0x0, 0x0, 0x0, 0x0, .none, true⟩,
  ⟨0x6050, 1, 0, 0x0, 0xFFFFFFFF, 0x0, 0x0, 0x0, 0x0, .none, true⟩,
  ⟨0x6054, 1, 0, 0x0, 0xFFFFFFFF, 0x0, 0x0, 0x0, 0x0, .none, true⟩,
  ⟨0x6028, 1, 0, 0x0, 0x1F0FFFFF, 0x0, 0x0, 0x0, 0x0, .none, true⟩,
  ⟨0x6058, 1, 0, 0x0, 0xFFFF, 0x0, 0x0, 0x0, 0x0, .none, true⟩,
  ⟨0x6060, 1, 0, 0x8000000F, 0xC000000F, 0x0, 0x0, 0x0, 0x0, .none, true⟩,
  ⟨0x6080, 1, 0, 0x0, 0x80000003, 0x0, 0x0, 0x0, 0x0, .none, true⟩,
  ⟨0x6100, 1, 0, 0x80000000, 0xF8000000, 0x0, 0x0, 0x0, 0x0, .none, false⟩,
  ⟨0x6108, 1, 0, 0x0, 0xFFFFFFFF, 0x0, 0x0, 0x0, 0x0, .low, false⟩,
  ⟨0x610C, 1, 0, 0x0, 0xFFFFFFFF, 0x0, 0x0, 0x0, 0x0, .high, false⟩,
  ⟨0x6110, 1, 0, 0x0, 0xFFFFFFFF, 0x0, 0x0, 0x0, 0x0, .low, false⟩,
  ⟨0x6114, 1, 0, 0x0, 0xFFFFFFFF, 0x0, 0x0, 0x0, 0x0, .high, false⟩,
  ⟨0x6118, 1, 0, 0x0, 0xFFFFFFFF, 0x0, 0x0, 0x0, 0x0, .low, false⟩,
  ⟨0x611C, 1, 0, 0x0, 0xFFFFFFFF, 0x0, 0x0, 0x0, 0x0, .high, false⟩,
  ⟨0x6120, 1, 0, 0x0, 0xFFFFFFFF, 0x0, 0x0, 0x0, 0x0, .none, false⟩,
  ⟨0x6124, 1, 0, 0x0, 0xFFFF, 0x0, 0x0, 0x0, 0x0, .none, false⟩,
  ⟨0x6128, 1, 0, 0x0, 0xC000FFFF, 0x0, 0x0, 0x0, 0x0, .none, false⟩,
  ⟨0x6140, 1, 0, 0x0, 0x0, 0x0, 0x0, 0x0, 0x0, .none, false⟩,
  ⟨0x6200, 1, 0, 0x0, 0x80000FFF, 0x0, 0x0, 0x0, 0x0, .none, true⟩,
  ⟨0x6210, 8, 8, 0x0, 0x73F, 0x0, 0x0, 0x0, 0x0, .none, true⟩,
  ⟨0x6214, 8, 8, 0x0, 0x1F0FFFFF, 0x0, 0x0, 0x0, 0x0, .none, true⟩,
  ⟨0x6280, 1, 0, 0x20000000, 0xB000003F, 0x0, 0x0, 0x0, 0x0, .none, true⟩,
  ⟨0x6284, 1, 0, 0x0, 0x1F0FFFFF, 0x0, 0x0, 0x0, 0x0, .none, true⟩,
  ⟨0x6288, 1, 0, 0x0, 0x1F0FFFFF, 0x0, 0x0, 0x0, 0x0, .none, true⟩,
  ⟨0x628C, 1, 0, 0x0, 0x1F0FFFFF, 0x0, 0x0, 0x0, 0x0, .none, true⟩,
  ⟨0x6290, 1, 0, 0x0, 0x1F0FFFFF, 0x0, 0x0, 0x0, 0x0, .none, true⟩,
  ⟨0x6294, 1, 0, 0x0, 0x1F0FFFFF, 0x0, 0x0, 0x0, 0x0, .none, true⟩,
  ⟨0x6298, 1, 0, 0x0, 0xFFFFFFFF, 0x0, 0x0, 0x0, 0x0, .none, true⟩,
  ⟨0x629C, 1, 0, 0x0, 0xFFFFFFFF, 0x0, 0x0, 0x0, 0x0, .none, true⟩,
  ⟨0x62A0, 1, 0, 0x0, 0xFFFFFFFF, 0x0, 0x0, 0x0, 0x0, .none, true⟩,
  ⟨0x62A4, 1, 0, 0x0, 0xFFFFFFFF, 0x0, 0x0, 0x0, 0x0, .none, true⟩,
  ⟨0x62C0, 1, 0, 0x60000000, 0xE000003F, 0x0, 0x0, 0x0, 0x0, .none, true⟩,
  ⟨0x62C8, 1, 0, 0x0, 0xFFFFFFFF, 0x0, 0x0, 0x0, 0x0, .none, true⟩,
  ⟨0x62CC, 1, 0, 0x0, 0xFFFFFFFF, 0x0, 0x0, 0x0, 0x0, .none, true⟩,
  ⟨0x62D0, 1, 0, 0x0, 0xFFFFFFFF, 0x0, 0x0, 0x0, 0x0, .none, true⟩,
  ⟨0x62D4, 1, 0, 0x0, 0xFFFFFFFF, 0x0, 0x0, 0x0, 0x0, .none, true⟩,
  ⟨0x62D8, 1, 0, 0x0, 0xFFFFFFFF, 0x0, 0x0, 0x0, 0x0, .none, true⟩]

def cards_ax3 : List Card := [
  ⟨0x62DC, 1, 0, 0x0, 0xFFFFFFFF, 0x0, 0x0, 0x0, 0x0, .none, true⟩,
  ⟨0x6300, 1, 0, 0x0, 0xC0000007, 0x0, 0x7, 0x0, 0x0, .none, false⟩,
  ⟨0x6308, 1, 0, 0x0, 0xFFFFFFFF, 0x0, 0x0, 0x0, 0x0, .low, false⟩,
  ⟨0x630C, 1, 0, 0x0, 0xFFFFFFFF, 0x0, 0x0, 0x0, 0x0, .high, false⟩,
  ⟨0x6310, 1, 0, 0x0, 0xFFFFFFFF, 0x0, 0x0, 0x0, 0x0, .low, false⟩,
  ⟨0x6314, 1, 0, 0x0, 0xFFFFFFFF, 0x0, 0x0, 0x0, 0x0, .high, false⟩,
  ⟨0x6340, 1, 0, 0x0, 0x1F0FFFFF, 0x0, 0x0, 0x0, 0x0, .none, true⟩,
  ⟨0x6344, 1, 0, 0x0, 0x1F0FFFFF, 0x0, 0x0, 0x0, 0x0, .none, true⟩,
  ⟨0x6348, 1, 0, 0x0, 0x1F0FFFFF, 0x0, 0x0, 0x0, 0x0, .none, true⟩,
  ⟨0x634C, 1, 0, 0x0, 0x1F0FFFFF, 0x0, 0x0, 0x0, 0x0, .none, true⟩,
  ⟨0x6400, 1, 0, 0x0, 0x0, 0x0, 0x0, 0x0, 0x0, .none, false⟩,
  ⟨0x6404, 1, 0, 0x0, 0xEFF00F87, 0x0, 0x180, 0x0, 0x0, .none, false⟩,
  ⟨0x6408, 1, 0, 0x10000000, 0xBFF00000, 0xBFF00000, 0x0, 0x0, 0x0, .none, false⟩,
  ⟨0x640C, 1, 0, 0x0, 0x1F0FFFFF, 0x1F0FFFFF, 0x0, 0x0, 0x0, .none, false⟩,
  ⟨0x6410, 1, 0, 0x0, 0xFFFFFFFF, 0xFFFFFFFF, 0x0, 0x0, 0x0, .none, false⟩,
  ⟨0x6414, 1, 0, 0x0, 0xFFFFFFFF, 0xFFFFFFFF, 0x0, 0x0, 0x0, .none, false⟩,
  ⟨0x6418, 1, 0, 0x0, 0xFFFFFFFF, 0xFFFFFFFF, 0x0, 0x0, 0x0, .none, false⟩,
  ⟨0x6420, 1, 0, 0x0, 0xFFFFFFFF, 0xFFFFFFFF, 0x0, 0x0, 0x0, .none, false⟩,
  ⟨0x6424, 1, 0, 0x0, 0xFFFFFFFF, 0xFFFFFFFF, 0x0, 0x0, 0x0, .none, false⟩,
  ⟨0x6440, 1, 0, 0x0, 0x1F0FFFFF, 0x0, 0x0, 0x0, 0x0, .none, false⟩,
  ⟨0x6444, 1, 0, 0x0, 0x1F0FFFFF, 0x0, 0x0, 0x0, 0x0, .none, false⟩,
  ⟨0x6448, 1, 0, 0x0, 0x1F0FFFFF, 0x0, 0x0, 0x0, 0x0, .none, false⟩,
  ⟨0x644C, 1, 0, 0x0, 0x1F0FFFFF, 0x0, 0x0, 0x0, 0x0, .none, false⟩,
  ⟨0x6450, 1, 0, 0x0, 0x1F0FFFFF, 0x0, 0x0, 0x0, 0x0, .none, false⟩,
  ⟨0x6460, 4, 16, 0x0, 0xFFFFFFFF, 0x0, 0x0, 0x0, 0x0, .none, false⟩,
  ⟨0x6464, 4, 16, 0x0, 0x1F0FFFFF, 0x0, 0x0, 0x0, 0x0, .none, false⟩,
  ⟨0x6468, 4, 16, 0x0, 0x1F0FFFFF, 0x0, 0x0, 0x0, 0x0, .none, false⟩,
  ⟨0x64A0, 1, 0, 0x0, 0xFFFFFFFF, 0x0, 0x0, 0x0, 0x0, .none, false⟩,
  ⟨0x64A4, 1, 0, 0x0, 0x1F0FFFFF, 0x0, 0x0, 0x0, 0x0, .none, false⟩,
  ⟨0x64A8, 1, 0, 0x0, 0x1F0FFFFF, 0x0, 0x0, 0x0, 0x0, .none, false⟩,
  ⟨0x6500, 1, 0, 0x7000000, 0xFFFF0F00, 0xFFFF0F00, 0x0, 0x0, 0x0, .none, false⟩,
  ⟨0x6504, 1, 0, 0x0, 0x1F0FFFFF, 0x1F0FFFFF, 0x0, 0x0, 0x0, .none, false⟩,
  ⟨0x6508, 1, 0, 0x0, 0xFFFFFFFF, 0xFFFFFFFF, 0x0, 0x0, 0x0, .none, false⟩,
  ⟨0x650C, 1, 0, 0x0, 0xFFFFFFFF, 0xFFFFFFFF, 0x0, 0x0, 0x0, .none, false⟩,
  ⟨0x6510, 1, 0, 0x0, 0xFFFFFFFF, 0xFFFFFFFF, 0x0, 0x0, 0x0, .none, false⟩,
  ⟨0x6514, 1, 0, 0x0, 0xFFFFFFFF, 0xFFFFFFFF, 0x0, 0x0, 0x0, .none, false⟩,
  ⟨0x6518, 1, 0, 0x0, 0x1F0FFFFF, 0x1F0FFFFF, 0x0, 0x0, 0x0, .none, false⟩,
  ⟨0x651C, 1, 0, 0x0, 0x1F0FFFFF, 0x1F0FFFFF, 0x0, 0x0, 0x0, .none, false⟩,
  ⟨0x6520, 1, 0, 0x0, 0x1F0FFFFF, 0x1F0FFFFF, 0x0, 0x0, 0x0, .none, false⟩,
  ⟨0x6524, 1, 0, 0x0, 0x1F0FFFFF, 0x1F0FFFFF, 0x0, 0x0, 0x0, .none, false⟩]

def cards_ax4 : List Card := [
  ⟨0x6528, 1, 0, 0x0, 0x1F0FFFFF, 0x1F0FFFFF, 0x0, 0x0, 0x0, .none, false⟩,
  ⟨0x652C, 1, 0, 0x0, 0xFFFFFFFF, 0xFFFFFFFF, 0x0, 0x0, 0x0, .none, false⟩,
  ⟨0x6530, 1, 0, 0x0, 0xFFFFFFFF, 0xFFFFFFFF, 0x0, 0x0, 0x0, .none, false⟩,
  ⟨0x6540, 1, 0, 0x33210848, 0xBFFFFFFC, 0xBFFFFFFC, 0x0, 0x0, 0x0, .none, false⟩,
  ⟨0x6544, 1, 0, 0x0, 0x1F0FFFFF, 0x1F0FFFFF, 0x0, 0x0, 0x0, .none, false⟩,
  ⟨0x6548, 1, 0, 0x0, 0x1F0FFFFF, 0x0, 0x0, 0x0, 0x0, .none, false⟩,
  ⟨0x654C, 1, 0, 0x0, 0xFFFFFFFF, 0x0, 0x0, 0x0, 0x0, .none, false⟩,
  ⟨0x6550, 1, 0, 0x0, 0x80000FFF, 0x80000FFF, 0x0, 0x0, 0x0, .none, false⟩,
  ⟨0x6560, 8, 8, 0x0, 0x1F0FFFFF, 0x1F0FFFFF, 0x0, 0x0, 0x0, .none, false⟩,
  ⟨0x6564, 8, 8, 0x0, 0x1F0FFFFF, 0x1F0FFFFF, 0x0, 0x0, 0x0, .none, false⟩,
  ⟨0x65A0, 1, 0, 0xF000000, 0x8FFFC000, 0x0, 0xC000, 0x0, 0x0, .none, false⟩,
  ⟨0x6600, 64, 8, 0x0, 0x1F0FFFFF, 0x0, 0x0, 0x0, 0x0, .none, false⟩,
  ⟨0x6604, 64, 8, 0x0, 0x1F0FFFFF, 0x0, 0x0, 0x0, 0x0, .none, false⟩,
  ⟨0x6800, 512, 4, 0x0, 0x1F0FFFFF, 0x1F0FFFFF, 0x0, 0x0, 0x0, .none, false⟩]

def cards_ax : List Card := cards_ax0 ++ cards_ax1 ++ cards_ax2 ++ cards_ax3 ++ cards_ax4

def cards_cv : List Card := [
  ⟨0x0, 1, 0, 0x0, 0xBA0F3000, 0xBA0F3000, 0x0, 0x0, 0x0, .none, false⟩,
  ⟨0x28, 1, 0, 0xF, 0xF, 0xF, 0x0, 0x0, 0x0, .none, false⟩,
  ⟨0x2000, 2, 4096, 0x0, 0x1F0FFFFF, 0x1F0FFFFF, 0x0, 0x0, 0x0, .none, false⟩,
  ⟨0x2004, 2, 4096, 0x0, 0x1F0FFFFF, 0x1F0FFFFF, 0x0, 0x0, 0x0, .none, false⟩,
  ⟨0x2008, 2, 4096, 0x0, 0x1F0FFFFF, 0x1F0FFFFF, 0x0, 0x0, 0x0, .none, false⟩,
  ⟨0x200C, 2, 4096, 0x0, 0x1F0FFFFF, 0x1F0FFFFF, 0x0, 0x0, 0x0, .none, false⟩,
  ⟨0x2010, 2, 4096, 0x0, 0x1F0FFFFF, 0x1F0FFFFF, 0x0, 0x0, 0x0, .none, false⟩,
  ⟨0x2014, 2, 4096, 0x0, 0x1F0FFFFF, 0x1F0FFFFF, 0x0, 0x0, 0x0, .none, false⟩,
  ⟨0x2018, 2, 4096, 0x0, 0x1F0FFFFF, 0x1F0FFFFF, 0x0, 0x0, 0x0, .none, false⟩,
  ⟨0x201C, 2, 4096, 0x1040000, 0x1F0FFFFF, 0x1F0FFFFF, 0x0, 0x0, 0x0, .none, false⟩,
  ⟨0x2020, 2, 4096, 0x0, 0x1F0FFFFF, 0x1F0FFFFF, 0x0, 0x0, 0x0, .none, false⟩,
  ⟨0x2024, 2, 4096, 0x0, 0x1F0FFFFF, 0x1F0FFFFF, 0x0, 0x0, 0x0, .none, false⟩,
  ⟨0x2028, 2, 4096, 0x0, 0x1F0FFFFF, 0x1F0FFFFF, 0x0, 0x0, 0x0, .none, false⟩,
  ⟨0x8000, 1, 0, 0x0, 0x80220500, 0x0, 0x0, 0x0, 0x80220500, .none, false⟩,
  ⟨0x6000, 1, 0, 0x0, 0x1F0FFFFF, 0x0, 0x0, 0x0, 0x0, .none, true⟩,
  ⟨0x6004, 1, 0, 0x0, 0x1F0FFFFF, 0x0, 0x0, 0x0, 0x0, .none, true⟩,
  ⟨0x6008, 1, 0, 0x0, 0x1F0FFFFF, 0x0, 0x0, 0x0, 0x0, .none, true⟩,
  ⟨0x6010, 1, 0, 0x0, 0x1F0FFFFF, 0x0, 0x0, 0x0, 0x0, .none, true⟩,
  ⟨0x6014, 1, 0, 0x0, 0x1F0FFFFF, 0x0, 0x0, 0x0, 0x0, .none, true⟩,
  ⟨0x6018, 1, 0, 0x0, 0x1F0FFFFF, 0x1F0FFFFF, 0x0, 0x0, 0x0, .none, false⟩,
  ⟨0x601C, 1, 0, 0x0, 0x1F0FFFFF, 0x0, 0x0, 0x0, 0x0, .none, true⟩,
  ⟨0x6020, 1, 0, 0x0, 0x1F0FFFFF, 0x0, 0x0, 0x0, 0x0, .none, true⟩,
  ⟨0x6030, 1, 0, 0x0, 0x1F0FFFFF, 0x0, 0x0, 0x0, 0x0, .none, true⟩,
  ⟨0x6034, 1, 0, 0x0, 0x1F0FFFFF, 0x0, 0x0, 0x0, 0x0, .none, true⟩,
  ⟨0x6038, 1, 0, 0x0, 0x1F0FFFFF, 0x0, 0x0, 0x0, 0x0, .none, true⟩,
  ⟨0x603C, 1, 0, 0x0, 0x1F0FFFFF, 0x1F0FFFFF, 0x0, 0x0, 0x0, .none, false⟩,
  ⟨0x6040, 1, 0, 0x0, 0x1F0FFFFF, 0x0, 0x0, 0x0, 0x0, .none, true⟩,
  ⟨0x6080, 1, 0, 0x30000, 0xE33F0FFF, 0xE33F0FFF, 0x0, 0x0, 0x0, .none, false⟩,
  ⟨0x6084, 1, 0, 0x40000000, 0xC0000000, 0xC0000000, 0x0, 0x0, 0x0, .none, false⟩,
  ⟨0x6100, 1, 0, 0x0, 0xFFC00000, 0x0, 0x70800000, 0x0, 0x0, .none, false⟩,
  ⟨0x6108, 1, 0, 0x0, 0x1F0FFFFF, 0x0, 0x0, 0x0, 0x0, .none, false⟩,
  ⟨0x610C, 1, 0, 0x0, 0xFFFFFFFF, 0x0, 0x0, 0x0, 0x0, .none, false⟩,
  ⟨0x401C, 1, 0, 0x10140320, 0x30FFFFFF, 0x30FFFFFF, 0x0, 0x0, 0x0, .none, false⟩]

def cards_tap : List Card := [
  ⟨0x100, 1, 0, 0x0, 0x80000FFF, 0x80000FFF, 0x0, 0x0, 0x0, .none, false⟩,
  ⟨0x104, 1, 0, 0x0, 0xE1FF01FF, 0x0, 0xE0000000, 0x0, 0x0, .none, false⟩,
  ⟨0x0, 1, 0, 0x0, 0xFFE0A1FF, 0x0, 0xA000, 0x0, 0x0, .none, false⟩,
  ⟨0x4, 1, 0, 0x0, 0x0, 0x0, 0x0, 0x0, 0x0, .none, false⟩,
  ⟨0x8, 1, 0, 0x0, 0xFFFFFFFF, 0xFFFFFFFF, 0x0, 0x0, 0x0, .none, false⟩,
  ⟨0xC, 1, 0, 0x0, 0xFFFFFFFF, 0xFFFFFFFF, 0x0, 0x0, 0x0, .none, false⟩,
  ⟨0x10, 1, 0, 0x0, 0xFFFFFFFF, 0x0, 0x0, 0x0, 0x0, .none, false⟩,
  ⟨0x20, 1, 0, 0x0, 0xFFFF3FFF, 0x0, 0x0, 0x0, 0x0, .none, false⟩,
  ⟨0x24, 1, 0, 0x0, 0xFFFFFFFF, 0x0, 0x0, 0x0, 0xFFFFFFFF, .none, false⟩]

def cards_queue : List Card := [
  ⟨0x0, 1, 0, 0x0, 0xFFFFFFC0, 0xFFFFFFC0, 0x0, 0x0, 0x0, .none, false⟩,
  ⟨0x4, 1, 0, 0x0, 0xFFFFFFFF, 0xFFFFFFFF, 0x0, 0x0, 0x0, .none, false⟩,
  ⟨0x8, 1, 0, 0x8800000, 0xFEF00000, 0xFEF00000, 0x0, 0x0, 0x0, .none, false⟩,
  ⟨0xC, 1, 0, 0xFC000000, 0xFCFF0FFF, 0xFCFF0FFF, 0x0, 0x0, 0x0, .none, false⟩,
  ⟨0x10, 1, 0, 0x0, 0xFFFFFFFF, 0x0, 0x0, 0x0, 0x0, .none, false⟩,
  ⟨0x14, 1, 0, 0x0, 0x0, 0x0, 0x0, 0x0, 0x0, .none, false⟩,
  ⟨0x18, 1, 0, 0x1000000, 0xFF008FFF, 0xFF008FFF, 0x0, 0x0, 0x0, .none, false⟩,
  ⟨0x1C, 1, 0, 0x0, 0xFCF7FFFF, 0x0, 0x7C000000, 0x0, 0xFFFF, .none, false⟩]

def cards_pcie : List Card := [
  ⟨0x0, 1, 0, 0x0, 0xC0000000, 0x40000000, 0x0, 0x80000000, 0x0, .none, false⟩,
  ⟨0x4, 1, 0, 0x0, 0xC00F000F, 0x0, 0x40000000, 0x0, 0x0, .none, false⟩]

def cards_eth : List Card := [
  ⟨0x0, 1, 0, 0x20000000, 0xF0000000, 0xF0000000, 0x0, 0x0, 0x0, .none, false⟩,
  ⟨0x4, 1, 0, 0x0, 0x80070001, 0x0, 0x1, 0x0, 0x0, .none, false⟩,
  ⟨0x8, 1, 0, 0x0, 0xFFFFFFFF, 0xFFFFFFFF, 0x0, 0x0, 0x0, .none, false⟩,
  ⟨0xC, 1, 0, 0x0, 0xFFFF, 0xFFFF, 0x0, 0x0, 0x0, .none, false⟩,
  ⟨0x10, 1, 0, 0x0, 0xFFFFFFFF, 0xFFFFFFFF, 0x0, 0x0, 0x0, .none, false⟩,
  ⟨0x14, 1, 0, 0x0, 0xFFFFFFFF, 0xFFFFFFFF, 0x0, 0x0, 0x0, .none, false⟩,
  ⟨0x18, 1, 0, 0x0, 0xFFFFFFFF, 0xFFFFFFFF, 0x0, 0x0, 0x0, .none, false⟩,
  ⟨0x1C, 1, 0, 0x0, 0x0, 0x0, 0x0, 0x0, 0x0, .none, false⟩,
  ⟨0x20, 1, 0, 0x0, 0xC000003F, 0xC000003F, 0x0, 0x0, 0x0, .none, false⟩,
  ⟨0x24, 1, 0, 0x0, 0xFFFFFFFF, 0xFFFFFFFF, 0x0, 0x0, 0x0, .none, false⟩,
  ⟨0x28, 1, 0, 0x0, 0xFFFFFFFF, 0xFFFFFFFF, 0x0, 0x0, 0x0, .none, false⟩,
  ⟨0x2C, 1, 0, 0x0, 0xFFFFFFFF, 0xFFFFFFFF, 0x0, 0x0, 0x0, .none, false⟩,
  ⟨0x30, 1, 0, 0x0, 0xFFFF, 0xFFFF, 0x0, 0x0, 0x0, .none, false⟩,
  ⟨0x100, 64, 4, 0x0, 0xFFFFFFFF, 0xFFFFFFFF, 0x0, 0x0, 0x0, .none, false⟩]

def cards_fld : List Card := [
  ⟨0x0, 1, 0, 0x11000A, 0xB0FFF0FF, 0xB0FFF0FF, 0x0, 0x0, 0x0, .none, false⟩,
  ⟨0xC, 1, 0, 0x0, 0xC007FFFF, 0x0, 0x40000000, 0x0, 0x0, .none, false⟩,
  ⟨0x40, 16, 4, 0x0, 0xDFFFFFFF, 0xDFFFFFFF, 0x0, 0x0, 0x0, .none, false⟩,
  ⟨0x80, 16, 4, 0x1FFFFFFF, 0x1FFFFFFF, 0x1FFFFFFF, 0x0, 0x0, 0x0, .none, false⟩,
  ⟨0x4, 1, 0, 0x13130504, 0xFFFF7F7F, 0xFFFF7F7F, 0x0, 0x0, 0x0, .none, false⟩,
  ⟨0x8, 1, 0, 0x1930504, 0xFF9F0F0F, 0xFF9F0F0F, 0x0, 0x0, 0x0, .none, false⟩,
  ⟨0x10, 1, 0, 0x87A, 0x3FFFF, 0x3FFFF, 0x0, 0x0, 0x0, .none, false⟩]

def cards_vis : List Card := [
  ⟨0x0, 1, 0, 0x0, 0xFFFF, 0xFFFF, 0x0, 0x0, 0x0, .none, false⟩,
  ⟨0x4, 1, 0, 0x0, 0xFFFFFFFF, 0xFFFFFFFF, 0x0, 0x0, 0x0, .none, false⟩,
  ⟨0x8, 1, 0, 0x0, 0x80000FFF, 0x80000FFF, 0x0, 0x0, 0x0, .none, false⟩,
  ⟨0xC, 1, 0, 0x2, 0x3F, 0x3F, 0x0, 0x0, 0x0, .none, false⟩]

def cards_sto : List Card := [
  ⟨0x0, 1, 0, 0x6401, 0xFF00FFFF, 0xFF00FFFF, 0x0, 0x0, 0x0, .none, false⟩,
  ⟨0x4, 1, 0, 0xFF000000, 0xFFFF8003, 0x0, 0x1, 0x0, 0x0, .none, false⟩,
  ⟨0x8, 1, 0, 0x0, 0x80000FFF, 0x80000FFF, 0x0, 0x0, 0x0, .none, false⟩]

def cards_ctl : List Card := [
  ⟨0x0, 1, 0, 0x80000010, 0xE0000030, 0xC0000000, 0x0, 0x0, 0x0, .none, false⟩,
  ⟨0x4, 1, 0, 0x0, 0xFFFFFFFF, 0xFFFFFFFF, 0x0, 0x0, 0x0, .none, false⟩,
  ⟨0x8, 1, 0, 0x0, 0xFFFFFFFF, 0x0, 0x0, 0x0, 0x0, .none, false⟩,
  ⟨0xC, 1, 0, 0x0, 0xFF, 0x0, 0x0, 0x0, 0x0, .none, false⟩,
  ⟨0x14, 1, 0, 0x0, 0x31F, 0x31F, 0x0, 0x0, 0x0, .none, false⟩,
  ⟨0x18, 1, 0, 0x300, 0x31F, 0x31F, 0x0, 0x0, 0x0, .none, false⟩,
  ⟨0x1C, 1, 0, 0x0, 0xFFFFFFFF, 0x0, 0x0, 0x0, 0x0, .none, false⟩,
  ⟨0x40, 1, 0, 0x0, 0xFFFFFE01, 0xFFFFFE01, 0x0, 0x0, 0x0, .none, false⟩,
  ⟨0x44, 1, 0, 0x0, 0xFFFFFE01, 0xFFFFFE01, 0x0, 0x0, 0x0, .none, false⟩,
  ⟨0x48, 1, 0, 0x0, 0xFFFFFFF0, 0xFFFFFFF0, 0x0, 0x0, 0x0, .none, false⟩,
  ⟨0x4C, 1, 0, 0x0, 0xFFFFFFF0, 0xFFFFFFF0, 0x0, 0x0, 0x0, .none, false⟩,
  ⟨0x50, 1, 0, 0x0, 0xFFFFFFFF, 0xFFFFFFFF, 0x0, 0x0, 0x0, .none, false⟩,
  ⟨0x54, 1, 0, 0x0, 0xFFFFFFF0, 0xFFFFFFF0, 0x0, 0x0, 0x0, .none, false⟩,
  ⟨0x58, 1, 0, 0x0, 0xFFFFFFF0, 0xFFFFFFF0, 0x0, 0x0, 0x0, .none, false⟩,
  ⟨0x5C, 1, 0, 0x0, 0xFFFFFFFF, 0xFFFFFFFF, 0x0, 0x0, 0x0, .none, false⟩,
  ⟨0x60, 1, 0, 0x0, 0xE01F077F, 0x0, 0x0, 0x0, 0x0, .none, false⟩,
  ⟨0x68, 1, 0, 0x40000, 0x7FFFFFC0, 0x7FFFFFC0, 0x0, 0x0, 0x0, .none, false⟩,
  ⟨0x6C, 1, 0, 0x1000000, 0x7FFFFFC0, 0x7FFFFFC0, 0x0, 0x0, 0x0, .none, false⟩,
  ⟨0x70, 1, 0, 0x7FFFFFC0, 0x7FFFFFC0, 0x7FFFFFC0, 0x0, 0x0, 0x0, .none, false⟩,
  ⟨0x80, 8, 8, 0x0, 0xFFFFFFCF, 0xFFFFFFCF, 0x0, 0x0, 0x0, .none, false⟩,
  ⟨0x84, 8, 8, 0x0, 0xFFFFFFC0, 0xFFFFFFC0, 0x0, 0x0, 0x0, .none, false⟩,
  ⟨0x100, 1, 0, 0x60, 0x7F, 0x7F, 0x0, 0x0, 0x0, .none, false⟩,
  ⟨0x104, 1, 0, 0x0, 0xCFFF1FFF, 0x0, 0x0, 0x0, 0x0, .none, false⟩,
  ⟨0x108, 1, 0, 0x0, 0xFFFFFFFF, 0x0, 0x0, 0x0, 0x0, .none, false⟩,
  ⟨0x10C, 1, 0, 0x0, 0xF80FFFF, 0x0, 0x0, 0x0, 0x0, .none, false⟩]

def cards_pair : List Card := [
  ⟨0x0, 1, 0, 0x0, 0xC0000000, 0x40000000, 0x0, 0x80000000, 0x0, .none, false⟩,
  ⟨0x4, 1, 0, 0x80000000, 0xFF0F0001, 0x0, 0x8000001, 0x0, 0x0, .none, false⟩,
  ⟨0x8, 1, 0, 0x0, 0x0, 0x0, 0x0, 0x0, 0x0, .none, false⟩,
  ⟨0xC, 1, 0, 0x0, 0xFFFFFFFF, 0x0, 0x0, 0x0, 0xFFFF, .none, false⟩,
  ⟨0x10, 1, 0, 0x0, 0xFFFFFFFF, 0x0, 0x0, 0x0, 0x0, .low, false⟩,
  ⟨0x14, 1, 0, 0x0, 0xFFFFFFFF, 0x0, 0x0, 0x0, 0x0, .high, false⟩,
  ⟨0x18, 1, 0, 0x0, 0xFFFFFFFF, 0x0, 0x0, 0x0, 0x0, .none, false⟩,
  ⟨0x1C, 1, 0, 0x1000000, 0x7FFFFFC0, 0x7FFFFFC0, 0x0, 0x0, 0x0, .none, false⟩,
  ⟨0x20, 1, 0, 0x7FFFFFC0, 0x7FFFFFC0, 0x7FFFFFC0, 0x0, 0x0, 0x0, .none, false⟩]

def cards_memb : List Card := [
  ⟨0x0, 1, 0, 0x800A0000, 0x80FF0000, 0x80FF0000, 0x0, 0x0, 0x0, .none, false⟩,
  ⟨0x4, 1, 0, 0xC0000000, 0xC0FF0007, 0x0, 0x7, 0x0, 0x0, .none, false⟩,
  ⟨0x8, 1, 0, 0x0, 0xFFFFFFFF, 0x0, 0x0, 0x0, 0xFFFFFFFF, .none, false⟩,
  ⟨0xC, 1, 0, 0x0, 0xFFFFFFFF, 0x0, 0x0, 0x0, 0xFFFFFFFF, .none, false⟩,
  ⟨0x10, 1, 0, 0x0, 0xFFFFFFFF, 0x0, 0x0, 0x0, 0x0, .none, false⟩,
  ⟨0x14, 1, 0, 0x0, 0xFFFF8000, 0x0, 0x0, 0x0, 0x0, .none, false⟩,
  ⟨0x18, 1, 0, 0x0, 0xFFFFFFFF, 0x0, 0x0, 0x0, 0x0, .low, false⟩,
  ⟨0x1C, 1, 0, 0x0, 0xFFFFFFFF, 0x0, 0x0, 0x0, 0x0, .high, false⟩,
  ⟨0x20, 1, 0, 0x0, 0xFFFFFFFF, 0x0, 0x0, 0x0, 0x0, .low, false⟩,
  ⟨0x24, 1, 0, 0x0, 0xFFFFFFFF, 0x0, 0x0, 0x0, 0x0, .high, false⟩,
  ⟨0x28, 1, 0, 0x0, 0x80000FFF, 0x80000FFF, 0x0, 0x0, 0x0, .none, false⟩]

def cards_sup : List Card := [
  ⟨0x0, 1, 0, 0x80000002, 0x8000FFFF, 0x0, 0xFFFF, 0x0, 0x0, .none, false⟩,
  ⟨0x4, 1, 0, 0x18, 0x1C, 0x1C, 0x0, 0x0, 0x0, .none, false⟩,
  ⟨0xC, 1, 0, 0x40640005, 0xC0FF003F, 0xC0FF003F, 0x0, 0x0, 0x0, .none, false⟩,
  ⟨0x10, 1, 0, 0x0, 0xFFFFFFFF, 0xFFFFFFFF, 0x0, 0x0, 0x0, .none, false⟩,
  ⟨0x14, 1, 0, 0x0, 0xFFFFFFFF, 0xFFFFFFFF, 0x0, 0x0, 0x0, .none, false⟩,
  ⟨0x20, 8, 16, 0xA0000, 0xC0FF0000, 0x80FF0000, 0x0, 0x40000000, 0x0, .none, false⟩,
  ⟨0x24, 8, 16, 0x3E8, 0xFFFFFFFF, 0xFFFFFFFF, 0x0, 0x0, 0x0, .none, false⟩,
  ⟨0x28, 8, 16, 0x0, 0x0, 0x0, 0x0, 0x0, 0x0, .none, false⟩,
  ⟨0x2C, 8, 16, 0x0, 0xFC00FFFF, 0x0, 0x3C000000, 0x0, 0x0, .none, false⟩,
  ⟨0x100, 1, 0, 0xA1400, 0xC0FFFF07, 0x80FFFF07, 0x0, 0x40000000, 0x0, .none, false⟩,
  ⟨0x104, 1, 0, 0x3E8, 0xFFFFFFFF, 0xFFFFFFFF, 0x0, 0x0, 0x0, .none, false⟩,
  ⟨0x108, 1, 0, 0x0, 0x0, 0x0, 0x0, 0x0, 0x0, .none, false⟩,
  ⟨0x10C, 1, 0, 0x0, 0xFC00FFFF, 0x0, 0x3C000000, 0x0, 0x0, .none, false⟩,
  ⟨0x200, 1, 0, 0xD8000019, 0xFBFFFF3F, 0xFBFFFF3F, 0x0, 0x0, 0x0, .none, false⟩,
  ⟨0x204, 1, 0, 0x0, 0xF80000FF, 0x0, 0x0, 0x0, 0x0, .none, false⟩,
  ⟨0x208, 1, 0, 0x0, 0x0, 0x0, 0x0, 0x0, 0x0, .none, false⟩,
  ⟨0x210, 1, 0, 0x0, 0xFFFFFFFF, 0x0, 0x0, 0x0, 0x0, .low, false⟩,
  ⟨0x214, 1, 0, 0x0, 0xFFFFFFFF, 0x0, 0x0, 0x0, 0x0, .high, false⟩,
  ⟨0x218, 1, 0, 0x0, 0xFFFFFFFF, 0x0, 0x0, 0x0, 0x0, .none, false⟩,
  ⟨0x400, 96, 4, 0x0, 0xFFFFFFFF, 0xFFFFFFFF, 0x0, 0x0, 0x0, .none, false⟩]

def cards_pwr : List Card := [
  ⟨0x0, 1, 0, 0xFFFFFFFF, 0xFFFFFFFF, 0x0, 0x0, 0x0, 0x0, .low, false⟩,
  ⟨0x4, 1, 0, 0xFFFF, 0xFFFF, 0x0, 0x0, 0x0, 0x0, .high, false⟩,
  ⟨0x8, 1, 0, 0x0, 0x0, 0x0, 0x0, 0x0, 0x0, .none, false⟩,
  ⟨0xC, 1, 0, 0x0, 0x8700003F, 0x0, 0x0, 0x0, 0x0, .none, false⟩,
  ⟨0x10, 1, 0, 0x0, 0x0, 0x0, 0x0, 0x0, 0x0, .none, false⟩,
  ⟨0x14, 1, 0, 0x0, 0x8F01FFFF, 0x0, 0x10000, 0x0, 0x0, .none, false⟩,
  ⟨0x18, 1, 0, 0x0, 0xC00000FF, 0x0, 0x40000000, 0x0, 0xFF, .none, false⟩,
  ⟨0x20, 1, 0, 0x2800230, 0x83FF03FF, 0x83FF03FF, 0x0, 0x0, 0x0, .none, false⟩,
  ⟨0x24, 1, 0, 0x0, 0xC3FF03FF, 0x0, 0xC0000000, 0x0, 0x3FF0000, .none, false⟩]

def cards_boot : List Card := [
  ⟨0x0, 1, 0, 0x0, 0xCF0F0007, 0x0, 0x0, 0x0, 0x0, .none, false⟩,
  ⟨0x4, 1, 0, 0x0, 0x7801FF07, 0x0, 0x0, 0x0, 0x0, .none, false⟩,
  ⟨0x8, 1, 0, 0x0, 0x0, 0x0, 0x0, 0x0, 0x0, .none, false⟩,
  ⟨0xC, 1, 0, 0x0, 0xFFFFFFFF, 0xFFFFFFFF, 0x0, 0x0, 0x0, .none, false⟩,
  ⟨0x10, 1, 0, 0x0, 0x0, 0x0, 0x0, 0x0, 0x0, .none, false⟩,
  ⟨0x14, 1, 0, 0x0, 0xFFFFFFFF, 0xFFFFFFFF, 0x0, 0x0, 0x0, .none, false⟩,
  ⟨0x18, 1, 0, 0x0, 0x8F0F0000, 0x0, 0x0, 0x0, 0x0, .none, false⟩,
  ⟨0x1C, 1, 0, 0x0, 0x1F1F3F, 0x0, 0x0, 0x0, 0x0, .none, false⟩,
  ⟨0x20, 1, 0, 0x0, 0xFFFFFFFF, 0x0, 0x0, 0x0, 0x0, .none, false⟩,
  ⟨0x24, 1, 0, 0x0, 0xFFFFFFFF, 0x0, 0x0, 0x0, 0x0, .none, false⟩,
  ⟨0x40, 8, 8, 0x0, 0xFFFFFFFF, 0x0, 0x0, 0x0, 0x0, .none, false⟩,
  ⟨0x44, 8, 8, 0x0, 0xC7007FFF, 0x0, 0x0, 0x0, 0x0, .none, false⟩]

def cards_dbg : List Card := [
  ⟨0x0, 1, 0, 0x0, 0x3F000000, 0x0, 0x0, 0x0, 0x0, .none, false⟩,
  ⟨0x4, 1, 0, 0x0, 0x800000FF, 0x800000FF, 0x0, 0x0, 0x0, .none, false⟩,
  ⟨0x8, 1, 0, 0x0, 0x0, 0x0, 0x0, 0x0, 0x0, .none, false⟩,
  ⟨0xC, 1, 0, 0x0, 0x80000003, 0x0, 0x3, 0x0, 0x0, .none, false⟩,
  ⟨0x10, 1, 0, 0x0, 0xFFFFFFFF, 0x0, 0x0, 0x0, 0x0, .low, false⟩,
  ⟨0x14, 1, 0, 0x0, 0xFFFFFFFF, 0x0, 0x0, 0x0, 0x0, .high, false⟩,
  ⟨0x40, 8, 4, 0x0, 0xFFFFFFFF, 0x0, 0x0, 0x0, 0x0, .none, false⟩,
  ⟨0x80, 32, 4, 0x0, 0x0, 0x0, 0x0, 0x0, 0x0, .none, false⟩,
  ⟨0x100, 4, 4, 0x0, 0x0, 0x0, 0x0, 0x0, 0x0, .none, false⟩,
  ⟨0x110, 1, 0, 0x0, 0x0, 0x0, 0x0, 0x0, 0x0, .none, false⟩,
  ⟨0x114, 1, 0, 0x0, 0xC000001F, 0x0, 0x0, 0x0, 0x0, .none, false⟩,
  ⟨0x200, 32, 4, 0x0, 0xFFFFFFF1, 0xFFFFFFF1, 0x0, 0x0, 0x0, .none, false⟩]

def cards_dbgc : List Card := [
  ⟨0x0, 16, 4, 0x0, 0x870000FF, 0x0, 0x0, 0x0, 0x0, .none, false⟩]

/-- The words of a block. -/
def Blk.cards : Blk → List Card
  | .sys => cards_sys
  | .tb => cards_tb
  | .pg => cards_pg
  | .sl => cards_sl
  | .tw => cards_tw
  | .bank => cards_bank
  | .slot => cards_slot
  | .cell => cards_cell
  | .cmp => cards_cmp
  | .cmpw => cards_cmpw
  | .port => cards_port
  | .ax => cards_ax
  | .cv => cards_cv
  | .tap => cards_tap
  | .queue => cards_queue
  | .pcie => cards_pcie
  | .eth => cards_eth
  | .fld => cards_fld
  | .vis => cards_vis
  | .sto => cards_sto
  | .ctl => cards_ctl
  | .pair => cards_pair
  | .memb => cards_memb
  | .sup => cards_sup
  | .pwr => cards_pwr
  | .boot => cards_boot
  | .dbg => cards_dbg
  | .dbgc => cards_dbgc

end Sys2Proof.Machine
end

