-- ==== Sys2Proof/Machine/Store.lean ====
section
/-! DEFINITION. Keyed storage in one canonical form: a list of (key, value) pairs, keys strictly rising, no value equal to
what an unlisted key reads as. Memories, the register file and the per-instance records of State are held this way, so
that equal contents are equal data. -/

namespace Sys2Proof.Machine

/-- Keyed storage. What an unlisted key reads as is an argument of every operation. -/
abbrev SMap (α : Type) := List (Nat × α)

/-- The value under key `k`; `d k` where nothing is listed. -/
def SMap.get {α : Type} (d : Nat → α) : SMap α → Nat → α
  | [], k => d k
  | (k', v) :: m, k => if k = k' then v else SMap.get d m k

/-- Without key `k`. -/
def SMap.drop {α : Type} : SMap α → Nat → SMap α
  | [], _ => []
  | (k', v) :: m, k => if k = k' then SMap.drop m k else (k', v) :: SMap.drop m k

/-- With `v` under key `k`, in its place by key. -/
def SMap.put {α : Type} : SMap α → Nat → α → SMap α
  | [], k, v => [(k, v)]
  | (k', v') :: m, k, v =>
    if k < k' then (k, v) :: (k', v') :: m
    else if k = k' then (k, v) :: m
    else (k', v') :: SMap.put m k v

/-- Writes `v` under key `k`; writing what an unlisted key reads as removes the entry. -/
def SMap.set {α : Type} [DecidableEq α] (d : Nat → α) (m : SMap α) (k : Nat) (v : α) : SMap α :=
  if v = d k then SMap.drop m k else SMap.put m k v

/-- Every listed key is above `b`, keys rise strictly, and no entry holds the unlisted value. -/
def SMap.wfAbove {α : Type} [DecidableEq α] (d : Nat → α) : Option Nat → SMap α → Bool
  | _, [] => true
  | b, (k, v) :: m => (match b with | none => true | some n => n < k) && v ≠ d k && SMap.wfAbove d (some k) m

/-- The canonical form. -/
def SMap.wf {α : Type} [DecidableEq α] (d : Nat → α) (m : SMap α) : Bool := SMap.wfAbove d none m

/-- `n` values from key `k` on. -/
def SMap.getRange {α : Type} (d : Nat → α) (m : SMap α) (k : Nat) : Nat → List α
  | 0 => []
  | n + 1 => SMap.get d m k :: SMap.getRange d m (k + 1) n

/-- Writes a list of values from key `k` on. -/
def SMap.setRange {α : Type} [DecidableEq α] (d : Nat → α) (m : SMap α) (k : Nat) : List α → SMap α
  | [] => m
  | v :: vs => SMap.setRange d (SMap.set d m k v) (k + 1) vs

/-- Changes every listed value. -/
def SMap.mapV {α : Type} [DecidableEq α] (d : Nat → α) (m : SMap α) (f : α → α) : SMap α :=
  m.filterMap (fun e => if f e.2 = d e.1 then none else some (e.1, f e.2))

/-- Sets every key from `lo` up to but not including `hi` back to the unlisted value. -/
def SMap.clear {α : Type} (m : SMap α) (lo hi : Nat) : SMap α := m.filter (fun e => e.1 < lo || hi ≤ e.1)

/-! Byte order: little-endian throughout the part (R7). -/

/-- The number a list of bytes spells, first byte least significant. -/
def natOfBytes : List Byte → Nat
  | [] => 0
  | b :: bs => b.toNat + 256 * natOfBytes bs

/-- The `n` low bytes of a number, least significant first. -/
def bytesOfNat : Nat → Nat → List Byte
  | 0, _ => []
  | n + 1, v => BitVec.ofNat 8 v :: bytesOfNat n (v / 256)

/-- Bits `hi` to `lo` of a number (R6). -/
def bitsOf (v hi lo : Nat) : Nat := (v >>> lo) % 2 ^ (hi - lo + 1)

/-- Bit `i` of a number. -/
def bitOf (v i : Nat) : Bool := v.testBit i

/-- A number with bits `hi` to `lo` replaced. -/
def putBits (v hi lo f : Nat) : Nat := v - (bitsOf v hi lo) <<< lo + (f % 2 ^ (hi - lo + 1)) <<< lo

/-- A `Bool` as a bit. -/
def bit (b : Bool) : Nat := if b then 1 else 0

/-- A number of `n` bits read as two's complement. -/
def signed (n v : Nat) : Int := if v % 2 ^ n < 2 ^ (n - 1) then (v % 2 ^ n : Nat) else (v % 2 ^ n : Nat) - (2 ^ n : Nat)

/-- The low `n` bits of an integer (two's complement). -/
def unsigned (n : Nat) (i : Int) : Nat := (i % (2 ^ n : Nat)).toNat

end Sys2Proof.Machine
end

