-- ==== Sys2Proof/Machine/State.lean ====
section
/-! DEFINITION. Everything the spec gives the part, as plain data: the register file (every field of every field card),
the memories, and per unit the state its rules speak of but no register shows. -/

namespace Sys2Proof.Machine

/-- Faults of a step: the block has no exception of its own, so none arises (safe: nothing is claimed of it). -/
inductive Fault where
  /-- Never raised. The part reports errors in registers, replies and records, never by stopping. -/
  | unreachable
  deriving DecidableEq, Repr

/-- Refusals of a step. -/
inductive Refusal where
  /-- A command that has no meaning yet. Safe: the machine stops. -/
  | notModelled (mnemonic : String)
  /-- A micro-word whose operation is one of Saleg's own (XOP 9 and 10), which the manual does not describe; raised by MICRO_STEP.
  Safe: the machine stops. -/
  | vendorXop
  deriving DecidableEq, Repr

/-! ### The register file -/

/-- Base address of a block's instance `i`. Slots and cells are numbered 16 × bank + slot or cell; control registers and
DBG_CSTAT_n, which the address map does not hold, stand above it. -/
def Blk.base (b : Blk) (i : Nat) : Nat :=
  match b with
  | .sys => 0x37000000
  | .tb => 0x32000000
  | .pg => 0x32000100 + 0x40 * i
  | .tw => 0x32001000 + 0x40 * i
  | .sl | .ax | .cv => 0x30000000 + 0x10000 * i
  | .bank => 0x31000000 + 0x1000 * i
  | .slot => 0x31000100 + 0x1000 * (i / 16) + 0x20 * (i % 16)
  | .cell => 0x31000400 + 0x1000 * (i / 16) + 0x20 * (i % 16)
  | .cmp => 0x31100000 + 0x100 * i
  | .cmpw => 0x31100000 + 0x200 * i
  | .port => 0x31200000 + 0x400 * i
  | .tap => 0x34000000
  | .queue => 0x33000000 + 0x20 * i
  | .pcie => 0x35000000
  | .eth => 0x35001000 + 0x1000 * i
  | .fld => 0x35003000 + 0x100 * i
  | .vis => 0x35004000
  | .sto => 0x35005000
  | .pair => 0x37000100 + 0x40 * i
  | .memb => 0x37000800
  | .sup => 0x36000000
  | .pwr => 0x37000400
  | .boot => 0x37000C00
  | .dbg => 0x38000000
  | .ctl => 0x100000000 + 0x4000 * i
  | .dbgc => 0x110000000

/-- Which block and instance a device address belongs to, by the layouts of R30, R32, R37, R279, R280, R417, R435, R456,
R475, R490 and R510. -/
def blkOf (a : Nat) : Option (Blk × Nat) :=
  if a < 0x30000000 then none
  else if a < 0x30480000 then some (.sl, (a - 0x30000000) / 0x10000)
  else if a < 0x31000000 then none
  else if a < 0x31010000 then
    let b := (a - 0x31000000) / 0x1000
    let o := a % 0x1000
    if o < 0x100 then some (.bank, b)
    else if o < 0x100 + 13 * 0x20 then some (.slot, 16 * b + (o - 0x100) / 0x20)
    else if 0x400 ≤ o ∧ o < 0x400 + 14 * 0x20 then some (.cell, 16 * b + (o - 0x400) / 0x20)
    else some (.bank, b)
  else if a < 0x31100000 then none
  else if a < 0x31110000 then
    let c := (a - 0x31100000) / 0x100
    if c % 2 = 0 ∧ 0x80 ≤ a % 0x100 then some (.cmpw, c / 2) else some (.cmp, c)
  else if a < 0x31200000 then none
  else if a < 0x31212000 then some (.port, (a - 0x31200000) / 0x400)
  else if a < 0x32000000 then none
  else if a < 0x32000100 then some (.tb, 0)
  else if a < 0x32000500 then some (.pg, (a - 0x32000100) / 0x40)
  else if a < 0x32001000 then some (.tb, 0)
  else if a < 0x32002000 then some (.tw, (a - 0x32001000) / 0x40)
  else if a < 0x32010000 then some (.tb, 0)
  else if a < 0x33000000 then none
  else if a < 0x33020000 then some (.queue, (a - 0x33000000) / 0x20)
  else if a < 0x34000000 then none
  else if a < 0x34010000 then some (.tap, 0)
  else if a < 0x35000000 then none
  else if a < 0x35001000 then some (.pcie, 0)
  else if a < 0x35003000 then some (.eth, (a - 0x35001000) / 0x1000)
  else if a < 0x35003800 then some (.fld, (a - 0x35003000) / 0x100)
  else if a < 0x35004000 then some (.pcie, 0)
  else if a < 0x35005000 then some (.vis, 0)
  else if a < 0x35010000 then some (.sto, 0)
  else if a < 0x36000000 then none
  else if a < 0x36010000 then some (.sup, 0)
  else if a < 0x37000000 then none
  else if a < 0x37000100 then some (.sys, 0)
  else if a < 0x37000300 then some (.pair, (a - 0x37000100) / 0x40)
  else if a < 0x37000400 then some (.sys, 0)
  else if a < 0x37000800 then some (.pwr, 0)
  else if a < 0x37000C00 then some (.memb, 0)
  else if a < 0x37001000 then some (.boot, 0)
  else if a < 0x37010000 then some (.sys, 0)
  else if a < 0x38000000 then none
  else if a < 0x38010000 then some (.dbg, 0)
  else if 0x100000000 ≤ a ∧ a < 0x100040000 then some (.ctl, (a - 0x100000000) / 0x4000)
  else if 0x110000000 ≤ a ∧ a < 0x110000040 then some (.dbgc, 0)
  else none

/-- The words of a block instance: a slice block has the words of its kind beside the common ones (R32). -/
def cardsOf (b : Blk) (i : Nat) : List Card :=
  match b with
  | .sl => cards_sl ++ (if i < 64 then cards_ax else cards_cv)
  | b => b.cards

/-- The card of the word at offset `o`, if the block lists one there. -/
def findCard : List Card → Nat → Option Card
  | [], _ => none
  | c :: cs, o =>
    if c.off ≤ o ∧ (if c.n = 1 then o = c.off else o < c.off + c.n * c.stride ∧ (o - c.off) % c.stride = 0)
    then some c else findCard cs o

/-- The card of the word at a device address. -/
def cardAt (a : Nat) : Option Card :=
  match blkOf a with
  | none => none
  | some (b, i) => findCard (cardsOf b i) (a - b.base i)

/-- Reset value of a register word: the field card's, with the values that depend on the instance filled in
(CB_SLOT_STAT.CELL, CB_CELL_ROLE.SLOT, CMP_CTRL.INSEL, PP_MAP.ROLE and AXIS, COREID) and the fused ones from Config. -/
def resetWord (a : Nat) : W32 :=
  match blkOf a with
  | none => 0
  | some (b, i) =>
    let o := a - b.base i
    let base := match findCard (cardsOf b i) o with
      | none => 0
      | some c => c.rst
    match b with
    | .slot => if o = 4 then base ||| BitVec.ofNat 32 (i % 16) else base
    | .cell => if o = 8 then base ||| BitVec.ofNat 32 ((if i % 16 = 13 then 15 else i % 16) * 2 ^ 24) else base
    | .cmp => if o = 0 then base ||| BitVec.ofNat 32 (i % 16) else base
    | .port => if o = 4 then
        (if i < 64 then BitVec.ofNat 32 (i * 2 ^ 16) else BitVec.ofNat 32 (2 * 2 ^ 30 + 0x7F * 2 ^ 16)) else base
    | .ctl => if o = 4 * 3 then BitVec.ofNat 32 (i + 16 * (i / 2)) else base
    | .boot => if o = 0x20 then Config.devid.setWidth 32
        else if o = 0x24 then (Config.devid >>> 32).setWidth 32 else base
    | _ => base

/-! ### Memory -/

/-- A memory: bytes by key in the canonical form. An unlisted byte reads 0, what every wipe writes (R433). -/
abbrev Memory := SMap Byte

/-- What an unlisted byte reads as (R433, R434). -/
def Memory.unlisted (_ : Nat) : Byte := 0

/-- The canonical form of a memory. -/
def Memory.wf (m : Memory) : Bool := SMap.wf Memory.unlisted m

/-- The condition of a 64-bit word's error-correcting code (R422 to R424). -/
inductive Ecc where
  | good | correctable | bad (poison : Bool)
  deriving DecidableEq, Repr

/-! ### Per-unit state -/

/-- What an access answered its requester (R31, R375); on the Damroth link STATUS and DATA (R494). -/
inductive Resp where
  | none
  | data (v : W64)
  | written
  | unmapped
  | denied
  | poisoned
  | link (status : Nat) (data : W64)
  deriving DecidableEq, Repr

/-- A queue's moderation (R277): entries counted since the last notification, when the oldest was counted, and the CNT and
TIME in force. -/
structure QDyn where
  pend : Nat := 0
  since : Option Stamp := none
  cnt : Nat := 1
  time : Nat := 0
  deriving DecidableEq, Repr

/-- A record on its way to an OUTPUT queue (R274, R276), and the sticky flag its source sets when it is dropped. -/
structure Post where
  queue : Nat
  bytes : List Byte
  drop : Option (Fld × Nat) := none
  deriving DecidableEq, Repr

/-- A write waiting at a mirror behind the Tapster interlock (R25). -/
structure WaitWrite where
  req : Req
  off : Nat
  wide : Bool
  val : W64
  deriving DecidableEq, Repr

/-- An access that waits behind a write of its requester which waits at a mirror (R25): a write with its value, or a read. -/
structure Behind where
  req : Req
  write : Option W64
  addr : Nat
  n : Nat
  deriving DecidableEq, Repr

/-- A staging set (R44, R528): marked words of the open buffer, the closed buffer, the holding copy, their tags, and the
Tapster interlock with the writes that wait behind it. -/
structure Stage where
  openW : SMap (Option W32) := []
  closedW : SMap (Option W32) := []
  closed : Bool := false
  closedTag : Nat := 0
  locked : Bool := false
  holdW : SMap (Option W32) := []
  held : Bool := false
  holdTag : Nat := 0
  tapLock : Bool := false
  waiting : List WaitWrite := []
  /-- Groups of this set applied so far (for commands that wait for theirs, R250). -/
  gen : Nat := 0
  deriving DecidableEq, Repr

/-- A period group's place in time (R38, R41): when it was enabled, index of its first sample
fence, and of the next fence of each kind. -/
structure Group where
  since : Stamp := 0
  k0 : Nat := 0
  kS : Nat := 0
  kC : Nat := 0
  kL : Nat := 0
  kA : Nat := 0
  deriving DecidableEq, Repr

/-- A time window as armed (R53 to R55). Of the periods a PG window watches, all below `missNext` have their verdict, and so
have those in `hits`; `span` is the next whose watch span starts. -/
structure Win where
  pgMode : Bool := false
  pg : Nat := 0
  act : Nat := 0
  axis : Nat := 0
  src : Nat := 0
  open_ : Nat := 0
  close : Nat := 0
  since : Stamp := 0
  span : Nat := 0
  missNext : Nat := 0
  hits : List Nat := []
  deriving DecidableEq, Repr

/-- A block-floating value m × 2^(e − 19) (R127, R128). -/
structure Num where
  m : Int := 0
  e : Int := 0
  deriving DecidableEq, Repr

/-- A 40-bit state m × 2^(e − 39) (R131). -/
structure St40 where
  m : Int := 0
  e : Int := -16
  deriving DecidableEq, Repr

/-- A port's last two good captures since the slice's enable (R134, R135): how many (0 to 2), and position, stamp and
PP_EDGE of the latest and of the one before. -/
structure Caps where
  n : Nat := 0
  p1 : Int := 0
  s1 : Nat := 0
  e1 : Nat := 0
  p0 : Int := 0
  s0 : Nat := 0
  e0 : Nat := 0
  /-- The rate of R134 in counts per vernier, vn / vd. -/
  vn : Int := 0
  vd : Nat := 1
  deriving DecidableEq, Repr

/-- The states of a biquad (R131, R139). -/
structure Biquad where
  x1 : St40 := {}
  x2 : St40 := {}
  y1 : St40 := {}
  y2 : St40 := {}
  deriving DecidableEq, Repr

/-- The set-point limiter (R154 to R162, R168 to R170). Positions, velocities and accelerations are on the grid of 2^−64;
limits in force are 32.32. `phase` is AX_LIM_STAT.PHASE of the committed period. -/
structure Lim where
  p : Int := 0
  v : Int := 0
  a : Int := 0
  tgt : Int := 0
  tag : Nat := 0
  /-- A segment target is in force and not yet reached (R159). -/
  seg : Bool := false
  phase : Nat := 0
  /-- Periods left of the move or stop planned; 0: to be planned. -/
  left : Nat := 0
  mode : Nat := 1
  locked : Bool := false
  /-- The live AX_SP words are not used until a group marks them (R157, R162). -/
  unmarked : Bool := true
  sT : Int := 0
  sV : Int := 0
  sA : Int := 0
  vmax : Nat := 0
  amax : Nat := 0
  dmax : Nat := 0
  jmax : Nat := 0
  /-- AX_STOP_DMAX, AX_STOP_JMAX and AX_STOP_CTRL.END as the stop profile under way took them (R169). -/
  stopD : Nat := 0
  stopJ : Nat := 0
  stopEnd : Bool := false
  deriving DecidableEq, Repr

/-- The state a slice computes from and a missed fence restores (R21): everything its last committed period left. -/
structure Dyn where
  first : Bool := true
  theta : Option Nat := none
  motor : Caps := {}
  load : Caps := {}
  vfb : Num := {}
  iP : St40 := {}
  iV : St40 := {}
  iD : St40 := {}
  iQ : St40 := {}
  iVb : St40 := {}
  iI : St40 := {}
  bq0 : Biquad := {}
  bq1 : Biquad := {}
  bq2 : Biquad := {}
  bq3 : Biquad := {}
  chain : Nat := 0
  lim : Lim := {}
  corrP : Num := {}
  corrT : Num := {}
  uP : Num := {}
  eP : Num := {}
  uV : Num := {}
  eV : Num := {}
  uD : Num := {}
  eD : Num := {}
  uQ : Num := {}
  eQ : Num := {}
  bx : List Num := []
  bank : Bool := false
  /-- A swap's first period ran (R163): the next one closes it. -/
  opened : Bool := false
  /-- Converter slice: grid-angle tracker (R187), its angle, speed and d voltage, and its period counts. -/
  gth : Nat := 0
  gw : Num := {}
  gI : St40 := {}
  gud : Num := {}
  gLockN : Nat := 0
  gLossN : Nat := 0
  gOkN : Nat := 0
  nodes : SMap Nat := []
  deriving DecidableEq, Repr

/-- What a coupling unit can take of a slice (R27, R176, R188): the values published at one commit fence. -/
structure Pub where
  stamp : Stamp := 0
  pfb : Int := 0
  vPu : Num := {}
  aPu : Num := {}
  tau : Num := {}
  iq : Num := {}
  vfb : Num := {}
  lim : Lim := {}
  th : Nat := 0
  w : Num := {}
  idref : Num := {}
  deriving DecidableEq, Repr

/-- A computation in progress (R19, R144): the period it belongs to, when its deposit completed, and all it would commit. -/
structure Flight where
  k : Nat
  sample : Stamp
  wake : Stamp
  opening : Bool := false
  closing : Bool := false
  dyn : Dyn
  /-- Published words, by address. -/
  outs : List (Nat × W32) := []
  pub : Pub := {}
  flags : Nat := 0
  duty : List Nat := []
  /-- Limiter events of the period: KIND and tag (R159, R169). -/
  evs : List (Nat × Nat) := []
  shutPos : Bool := false
  shutStop : Bool := false
  /-- Marks and triggers the wake took (R21 gives them back after a miss): new segment target, new sample, release, stop,
  the seed of a swap. -/
  tookTag : Bool := false
  tookPos : Bool := false
  tookRel : Bool := false
  tookStop : Bool := false
  done : Option Stamp := none
  /-- The map page its AX_MAP named at the wake (R430). -/
  page : Option Nat := none
  deriving DecidableEq, Repr

/-- A slice's trace (R171 to R174): probe codes and SELGEN in force, the ring of records not yet streamed, decimation and post-trigger
counts, and whether records were lost since the last streamed one. -/
structure Trace where
  sel : Nat := 0
  gen : Nat := 0
  ring : List (List Byte) := []
  dec : Nat := 0
  left : Option Nat := none
  lost : Bool := false
  swtrig : Bool := false
  /-- The trigger has come and waits for the next record (R173). -/
  trig : Bool := false
  deriving DecidableEq, Repr

/-- What the coupling unit formed for the period under way (R177, R179, R182): τ_x; the yaw error and whether it trips; the
stop separation and whether the stop rule and the hard rule act, and the actual separation; and for a grid companion θ, w and
i_d*. -/
structure Cpl where
  tau : Num := {}
  tauOvf : Bool := false
  yaw : Option (Int × Bool) := none
  env : Option (Int × Int × Bool × Bool) := none
  py : Int := 0
  th : Nat := 0
  w : Num := {}
  idref : Num := {}
  /-- Excitation x_k of a commissioning sequence (R196). -/
  exc : Num := {}
  deriving DecidableEq, Repr

/-- A bank change that waits (R210): its kind (0 APPLY, 1 SELECT, 2 per-move selection, 3 notch retune), the gain set and
SEED. -/
structure Change where
  kind : Nat := 0
  gset : Nat := 0
  seed : Nat := 0
  /-- TAG of the command that asked for it (R253). -/
  tag : Option Nat := none
  deriving DecidableEq, Repr

/-- A commissioning sequence and the adaptation of an axis (R195 to R210): the sequence asked for and the part of it under
way (0 none, 1 MASS, 2 RESP, 3 PROPOSE, 5 and 6 a bank change), periods run and the record's length, the chirp's phase (in
turns × 4·10^9 × 2^32) and the PRBS register, start position, consecutive saturated periods, v_fb of the period before; the
normal matrix with the products with τ_m and Σ τ_m², upper triangle row by row; the Fourier sums of i_q* and v_fb per bin, in
2^−40; a cause of abort seen; the move accumulator's two sums, its periods, whether it runs or waits to be judged; the notch
tracker's sums and the start of its interval; changes that wait and the one under way. -/
structure Comm where
  seq : Nat := 0
  part : Nat := 0
  k : Nat := 0
  len : Nat := 0
  phi : Nat := 0
  lfsr : Nat := 0
  p0 : Int := 0
  sat : Nat := 0
  /-- An excitation value has been delivered for the period under way. -/
  fed : Bool := false
  vOld : Option Num := none
  sums : List (Int × Int) := []
  bins : List (Int × Int × Int × Int) := []
  abort : Nat := 0
  mvA : Int × Int := (0, 0)
  mvB : Int × Int := (0, 0)
  mvN : Nat := 0
  mvOn : Bool := false
  /-- The estimate of the move under way has been made (R208). -/
  mvDone : Bool := false
  mvReady : Bool := false
  /-- The two sums of a finished estimate and the stamp of the commit fence that finished it (R207, R215). -/
  estA : Int × Int := (0, 0)
  estB : Int × Int := (0, 0)
  estAt : Stamp := 0
  ntRe : List Int := []
  ntIm : List Int := []
  ntK : Nat := 0
  ntFrom : Stamp := 0
  /-- The frequency f_n the tracker works on, in 1/16 Hz (R209). -/
  fn : Nat := 0
  /-- Stamp of the commit fence that ended the record (R215). -/
  endAt : Stamp := 0
  /-- SEED of the write that started the sequence (R210), and the biquads the proposal image uses (R204). -/
  seed : Nat := 0
  chain : Nat := 0
  waiting : List Change := []
  active : Option Change := none
  je : Num := {}
  deriving DecidableEq, Repr

/-- What a slice holds beside its committed state. -/
structure Slice where
  dyn : Dyn := {}
  flight : Option Flight := none
  /-- A computation that missed its fence and has not ended (R172). -/
  late : Option Flight := none
  /-- Sample fence taken and wake not yet: period index and sample stamp (R18). -/
  await : Option (Nat × Stamp) := none
  /-- First tick at which a sample fence wakes the slice (R149). -/
  from_ : Nat := 0
  /-- EN = 0 was written while RUN reads 1 (R149). -/
  ending : Bool := false
  stopTrig : Bool := false
  /-- When a supervision stop began (R440). -/
  supStop : Option Stamp := none
  /-- Periods of the group since enable, for the window of R166. -/
  periods : Nat := 0
  /-- SEED of a swap applied and not yet opened (R163), and of one applied during an open period (R165). -/
  swap : Option Nat := none
  swapNext : Option Nat := none
  /-- AX_SP_TAG, AX_SP_POS marked by a group since the last wake (R158, R160, R161). -/
  newTag : Bool := false
  newPos : Bool := false
  /-- A port LOSS with ACT 0b10 shutters the slice at its next commit fence (R123, R229). -/
  lossShut : Bool := false
  relTrig : Bool := false
  trace : Trace := {}
  haltReq : Bool := false
  halted : Bool := false
  stepping : Bool := false
  lastCommit : Stamp := 0
  /-- Published values for the coupling units: of the latest commit fence, and of the one before (R27). -/
  pub : Pub := {}
  pubOld : Pub := {}
  cpl : Cpl := {}
  /-- Gantry yaw integrator of a follower, the trip still above its limit, the last stop separation (R179 to R182). -/
  yawI : St40 := {}
  yawHigh : Bool := false
  sepOld : Option Int := none
  /-- Converter: the codes of the store and line voltages, consecutive store failures (R186, R187). -/
  vst : Int := 0
  stBad : Nat := 0
  uab : Int := 0
  ubc : Int := 0
  /-- Converter: the broker's lane (FF_B and P) written and frozen, whether the broker feeds FF_B, the ramp's base and the
  steps taken; whether v_bus was outside a limit (R192, R193). -/
  lane : Option (W32 × W32) := none
  laneFrozen : Option (W32 × W32) := none
  fed : Bool := false
  rampBase : W32 := 0
  rampStep : Nat := 0
  ovOut : Bool := false
  uvOut : Bool := false
  comm : Comm := {}
  deriving DecidableEq, Repr

/-- A gate: the level it was last driven to, from when (which may be to come), and when it changed before that. -/
structure Gate where
  on : Bool := false
  at_ : Stamp := 0
  prev : Stamp := 0
  deriving DecidableEq, Repr

/-- A leg's carrier (R218, R219, R226): index of the carrier period it is in, the compare value it uses, the comparators
that chop it (R97, R98). -/
structure Leg where
  m : Int := 0
  started : Bool := false
  d : Nat := 0
  /-- Committed values wait for this leg's next carrier start (R224, R226). -/
  pend : Bool := false
  /-- The first committed duties since the enable have gone live on this leg (R149, R227 rank 5). -/
  live : Bool := false
  /-- Turn-on of the low side of the carrier period before, where it falls in the present one (R221). -/
  lowDue : Option Stamp := none
  chop : List Nat := []
  deriving DecidableEq, Repr

/-- A gate timer (R216 to R242). -/
structure Timer where
  gates : SMap Gate := []
  legs : SMap Leg := []
  /-- The committed values that wait to go live end a shutter (R232) or a halt (R236). -/
  pendRel : Bool := false
  pendHalt : Bool := false
  /-- Earliest commit fence that counts for an accepted release (R232). -/
  relFrom : Nat := 0
  deriving DecidableEq, Repr

/-- A request for an injected conversion (R70 to R72), pending until it completes: when it reached the bank, the sample
instant a timed one waits for, the comparator whose read-back check it serves (R105), and, once its input is held, the hold's
stamp, the cell and the cell's coefficients at that hold (R73). -/
structure Inj where
  src : Nat := 0
  cmp : Nat := 0
  tag : Nat := 0
  arrive : Stamp := 0
  due : Option Stamp := none
  check : Bool := false
  /-- Made by a converter slice: 1 store voltage, 2 and 3 line voltages (R186, R187); 16 + i by Tapster context i (R266). -/
  use : Nat := 0
  held : Option (Stamp × Nat) := none
  ofs : Int := 0
  gain : Nat := 0
  deriving DecidableEq, Repr

/-- A conversion between its hold and its completion (R60): the stamp, the slot it serves (none: the spare's own grid),
whether it is hold j = 0, whether it is compared in an overlap (R76). -/
structure Hold where
  stamp : Stamp := 0
  slot : Option Nat := none
  first : Bool := false
  pair : Bool := false
  deriving DecidableEq, Repr

/-- A converter cell: the earliest instant of its next hold (R60) and the conversion under way. -/
structure Cell where
  next : Stamp := 0
  hold : Option Hold := none
  deriving DecidableEq, Repr

/-- A slot's grid and filter (R61 to R68): the next hold to make (period k, hold j), the last hold made, the filter order in
use, the last W outputs of each stage (newest first), the conversions absorbed since the last restart, and a restart that
waits: 1 for the next sample instant, 2 for hold j = 1 after it. `pair` is the serving cell's last result, for an overlap. -/
structure Slot where
  k : Nat := 0
  j : Nat := 0
  last : Stamp := 0
  order : Nat := 1
  stages : List (List Int) := []
  absorbed : Nat := 0
  restart : Nat := 0
  pair : Option (Stamp × Int) := none
  deriving DecidableEq, Repr

/-- A bank's start-up calibration, injections and rotation step (R70 to R82): cells whose start-up calibration has ended;
pending requests, oldest first; in an overlap the pairs compared, the sum of X − Y, holds still not to be compared and X's
last result; whether a mismatch went before, whether Y was judged bad; steps still to run; the end of the last step; the
instant from which X may join the slot's grid, or phase 2 ended; the first hold and the length of a calibration; the spare's latest
hold for an injection (R77). -/
structure Bank where
  done : List Nat := []
  reqs : List Inj := []
  bound : Bool := false
  pairs : Nat := 0
  sum : Int := 0
  skip : Nat := 0
  xPair : Option (Stamp × Int) := none
  second : Bool := false
  yBad : Bool := false
  left : Nat := 0
  gapFrom : Option Stamp := none
  from_ : Stamp := 0
  calFrom : Stamp := 0
  calLen : Nat := 0
  injAt : Option Stamp := none
  deriving DecidableEq, Repr

/-- A comparator check (R102 to R106): kind 1 swap, 2 tie, 3 read-back; waiting for an apply fence of `pg` or running; when
a running one ends; whether equal outputs of a swap check are inconclusive. -/
structure Chk where
  kind : Nat := 0
  running : Bool := false
  pg : Nat := 0
  endAt : Stamp := 0
  inconcl : Bool := false
  deriving DecidableEq, Repr

/-- A comparator (R90 to R106): the side of the band its input last left on, if any since the settle time; whether it has
settled, and when it does; the end of a running blank and whether RAW tripped in it, and the blanks still to start, with their
lengths; a threshold that waits for a commit
fence; the check under way; the start of the automatic-check interval, and which of two alternating checks is next. -/
structure Cmp where
  raw : Option Bool := none
  settled : Bool := false
  settleAt : Stamp := 0
  blank : Option Stamp := none
  hit : Bool := false
  starts : List (Stamp × Nat) := []
  thrPend : Bool := false
  check : Option Chk := none
  autoFrom : Stamp := 0
  autoTie : Bool := false
  deriving DecidableEq, Repr

/-- What happens to a port's count (R115 to R117): an accepted edge counts, the count of an edge already captured is taken back,
an illegal transition, an index reset. -/
inductive Tally where
  | step (v : Int)
  | undo (v : Int)
  | illegal
  | load (v : Int)
  deriving DecidableEq, Repr

/-- A change of a count not yet captured (R116), with its stamp. -/
structure PortEvent where
  at_ : Stamp := 0
  what : Tally := .illegal
  deriving DecidableEq, Repr

/-- A serial transaction under way (R118): its period and latch instant, and whether its result will be discarded. -/
structure Txn where
  k : Nat := 0
  latch : Stamp := 0
  dead : Bool := false
  deriving DecidableEq, Repr

/-- A serial transaction that ended before its sample instant (R118): its failure code (0 good) and word. -/
structure Frame where
  k : Nat := 0
  latch : Stamp := 0
  code : Nat := 0
  word : Nat := 0
  deriving DecidableEq, Repr

/-- A BiSS-C register access under way (R124), with the transactions that have carried a bit of its control frame. -/
structure Biss where
  wr : Bool := false
  id : Nat := 0
  addr : Nat := 0
  data : Nat := 0
  sent : Nat := 0
  deriving DecidableEq, Repr

/-- A position port (R109 to R126): the 64-bit counter or position, count changes not yet captured; the accepted levels of A
and B; when A, B and Z last changed, as measured; the last accepted edge of A or B (as measured, channel B, counted delta, stamp)
and the last counted edge before the last capture; line fault of the period under way; the reference word; PP_PRESET written
since the last enable, and in use; good captures since the enable (up to 2), the last one's position and stamp and the stamp
before it; the earliest sample instant to capture and the earliest start of a transaction; the transaction under way, those that
wait for their sample instants and the last period one was due for; a BiSS access under way. -/
structure Port where
  count : Int := 0
  log : List PortEvent := []
  a : Bool := false
  b : Bool := false
  atA : Option Nat := none
  atB : Option Nat := none
  atZ : Option Nat := none
  edge : Option (Nat × Bool × Int × Stamp) := none
  counted : Stamp := 0
  los : Bool := false
  ref : Option Nat := none
  presetW : Bool := false
  usePreset : Bool := false
  good : Nat := 0
  gPos : Int := 0
  gStamp : Stamp := 0
  gPrev : Stamp := 0
  from_ : Stamp := 0
  since : Stamp := 0
  txn : Option Txn := none
  frames : List Frame := []
  lastK : Option Nat := none
  biss : Option Biss := none
  deriving DecidableEq, Repr

/-- A watchdog (R441, R444, R446): since when its window runs, when the last kick was completed, whether the first kick
word stands, whether it was warned in this window; frozen: the time its window had run. -/
structure Wd where
  from_ : Stamp := 0
  kicked : Option Stamp := none
  half : Bool := false
  warned : Bool := false
  frozen : Option Nat := none
  deriving DecidableEq, Repr

/-- Supervision (R436 to R456): which of PF_WARN_N, PF_CRIT_N, VS, VCORE, VANA and EXTF_N detect now (bits 0 to 5); the record
being written, by buffer and KIND; the start of the snapshot interval; axes whose stop last orders started; the end of the
grace after a device watchdog expiry, or 0 with a GRACE of 0; warm resets since the last cold one; the end of the low pulse
of WDO_N. -/
structure Sup where
  lvl : Nat := 0
  rec_ : Option (Nat × Nat) := none
  snapFrom : Stamp := 0
  stops : List Nat := []
  grace : Option Stamp := none
  warms : Nat := 0
  wdo : Stamp := 0
  deriving DecidableEq, Repr

/-- A gate control list in force or waiting (R286): gate states and interval in ns of each entry, cycle and base in ns, and the
cycle start from which it runs. -/
structure Gcl where
  entries : List (Nat × Nat) := []
  cycle : Nat := 1000000
  start : Int := 0
  deriving DecidableEq, Repr

/-- An Ethernet port (R285, R286): OFS in units of 2^−16 ns and RATE as last applied; the gate list running with the start of
its cycle and its entry, and the list that waits for its first cycle. -/
structure EthP where
  ofs : Int := 0
  rate : Nat := 0x10000000
  live : Option (Gcl × Int × Nat) := none
  next : Option Gcl := none
  deriving DecidableEq, Repr

/-- A vision trigger output (R292): pulses scheduled, by rising edge and width in vernier, and whether one is under way. -/
structure Vis where
  pulses : List (Nat × Nat) := []
  high : Bool := false
  deriving DecidableEq, Repr

/-- An STO input (R294, R296): the levels of its channels, since when each is high, since when they differ. -/
structure StoIn where
  hi0 : Bool := true
  hi1 : Bool := true
  since0 : Stamp := 0
  since1 : Stamp := 0
  differ : Option Stamp := none
  deriving DecidableEq, Repr

/-- A frame an outside port has sent: its port's AGENT code, destination MAC or CAN identifier, the descriptor's INFO (R287), bytes, stamp. -/
structure Sent where
  port : Nat
  dest : Nat
  info : Nat := 0
  bytes : List Byte
  stamp : Stamp
  deriving DecidableEq, Repr

/-- An active repeat (R342 to R344): latched count, RLEFT, the body's first address and BODY, the position in the body, the
value of RCNT held back, and the body's bundles as fetched (R352). -/
structure Rep where
  count : Nat
  left : Nat
  first : Nat
  body : Nat
  pos : Nat := 0
  held : Option W32 := none
  buf : SMap (Option Nat) := []
  deriving DecidableEq, Repr

/-- The architectural state of a core beside its control registers (R319): registers, booleans b1 to b3 in bits 1 to 3, operand
latches and result sockets in the order of R386, the units whose result is not ready yet (by bit), the bundle address, the
repeat; control registers written and not yet in force, with the value in force (R337); the shadow entries, top first: world,
level, mark (R385, R392); bundles since the trigger of a pending imprecise exception (R340); the Guest and the House store
error and the store buffer belong to the core. -/
structure Core where
  g : SMap W64 := []
  lk : W64 := 0
  b : Nat := 0
  latch : SMap W64 := []
  res : SMap W64 := []
  busy : Nat := 0
  pc : Nat := 0
  rep : Option Rep := none
  old : SMap (Option W32) := []
  shadow : List (Bool × Bool × Bool) := []
  axn : Option Nat := none
  deriving DecidableEq, Repr

/-- An entry of the store buffer (R358): address, bytes, and the world and level of its trigger; the second half of a split store
is an entry of its own. `frame` marks a store of an exception frame (R388). -/
structure SbEntry where
  addr : Nat
  bytes : List Byte
  guest : Bool
  user : Bool
  frame : Bool := false
  deriving DecidableEq, Repr

/-- A Reed core, or for its even number a safe pair (R396): its architectural state; the store buffer, oldest first; the lines of
the fetch buffer, by their first key, latest first (R351); the
reserved address (a memory key) and one to be set again at the end of a replay (R411); pending STERR per world, WDWARN,
LORDERS (R381); a Guest lockup (R394); a wait in WFE; the stamp at which the last store was performed, whether a FENCE waits for it, and
how many stores the loads after a LOAD fence wait for (R364); a debug halt asked for and not complete with its WHY, and one in force
made under the session (R498, R503); whether the next bundle is the first of a handler (R382), or the first after a release (R509). -/
structure Reed where
  core : Core := {}
  sb : List SbEntry := []
  lines : List (Nat × List Byte) := []
  resv : Option Nat := none
  resvLog : Option Nat := none
  sterrH : Bool := false
  sterrG : Bool := false
  wdwarn : Bool := false
  lorders : Bool := false
  locked : Bool := false
  wfe : Bool := false
  lastStore : Stamp := 0
  fenced : Bool := false
  ldFence : Nat := 0
  first : Bool := false
  past : Bool := false
  haltReq : Option Nat := none
  link : Bool := false
  deriving DecidableEq, Repr

/-- A log entry (R403): kind in the order of that table (0 load outside TCM to 6 WFE), address or number, value. -/
structure LogE where
  kind : Nat
  a : Nat
  v : Nat
  deriving DecidableEq, Repr

/-- A milestone record (R402): the core, its control registers by offset, both queue-event lists, the RL shadow. -/
structure MsRec where
  core : Core := {}
  ctl : SMap W32 := []
  evH : List Nat × Bool := ([], false)
  evG : List Nat × Bool := ([], false)
  rl : Option W32 := none
  deriving DecidableEq, Repr

/-- A pair (R401 to R418, R486): the two milestone slots, the log and the undo record (value before by TCM word), when the last
milestone was taken, since when one is due, bundles since it; ITEM of a mismatch in this interval; what a replay leads
back to (the core and the words of TCM as they stood at the mismatch); a fed bundle's step. The loader: whether it starts when
the wipe completes, the stage it is in (0 none, 1 running), the record and hash it latched, and when it started. Stamp of the last self-test. -/
structure Pair where
  slots : SMap (Option MsRec) := []
  log : List LogE := []
  undo : SMap (Option W64) := []
  msFrom : Stamp := 0
  due : Option Stamp := none
  count : Nat := 0
  item : Option Nat := none
  back : Option (MsRec × List (Nat × W64)) := none
  start : Bool := false
  loading : Bool := false
  pfw : Nat := 0
  pfwSt : Nat := 0
  hash : List Byte := []
  loadAt : Stamp := 0
  testFrom : Stamp := 0
  deriving DecidableEq, Repr

/-- The fuses and what the boot ROM knows (R476 to R488): key hash of each owner slot 0 to 3 and KIMG as number 4; the straps
sampled; the boot: 0 the ROM has not run, 1 it has an image, 2 it has failed; the error; the header and slot of the image; SVN and
PUBKEY of the booted image; the image operation under way; the hash recorded with each pair's firmware. -/
structure Secure where
  keys : SMap (List Byte) := []
  straps : Nat := 0
  boot : Nat := 0
  err : Nat := 0
  image : List Byte := []
  slot : Nat := 0
  svn : Nat := 0
  pubkey : List Byte := []
  imgOp : Option Nat := none
  hashes : SMap (List Byte) := []
  deriving DecidableEq, Repr

/-- The supplies and the reset balls (R458 to R467, R471): the boot straps on the balls MODE0 to MODE3; whether last orders was
active when a rail left its range and nothing has made the return cold since; a domain switch under way (domain, on); memory
wipes running by number (0-7 the TCMs of a pair, 8 on die, 9 DRAM, 10 to 13 SR0, SR1, DR0, DR1 after a switch-on). -/
structure Power where
  straps : Nat := 0
  loLoss : Bool := false
  switch : Option (Nat × Bool) := none
  wipes : List Nat := [9, 8]
  avsUp : Bool := false
  avsDn : Bool := false
  deriving DecidableEq, Repr

/-- The debug unit (R492 to R510): the TAP's instruction register and the boundary cells as preloaded; stamp of the last good frame;
SEQ and response (STATUS, DATA) of the request executed last; a fed bundle that is to run, and a core that is to step. -/
structure Debug where
  ir : Nat := 1
  cells : List Bool := []
  lastGood : Stamp := 0
  seq : Option Nat := none
  resp : Nat × W64 := (0, 0)
  feed : Bool := false
  step : Option Nat := none
  deriving DecidableEq, Repr

/-- A microcode bank (R299): its stores by index, VERSION of its container, and whether it holds a verified load. -/
structure MBank where
  micro : SMap Nat := []
  nano : SMap Nat := []
  disp : SMap Nat := []
  version : Nat := 0
  valid : Bool := false
  deriving DecidableEq, Repr

/-- A Tapster context (R250, R300): commands 0 to 255, services 256 to 271. The source queue, the world, the order in which commands
were taken, the packet words (parameter bytes from PLEN on zero), the bank; whether the routine has started, whether ACCEPTED and
the final reply have been posted, RSVW and HOLD_TMO of its replies. A routine that staged: whether its group is closed, the apply
of its set it belongs to, AFSTAMP, the first period of the group that uses it, LIMITED seen since; a value its routine keeps; the
group under whose Tapster hold it closed. The sequencer: whether it runs micro-words, its address, return stack, work registers,
flags, steps since a WAIT, the event waited for and, once that has occurred, XERR, t29 and the stamp; the reply words Y4 to Y7
(and AFSTAMP as Y2, Y3); the set whose interlock it holds and the mirror words it wrote. -/
structure Ctx where
  q : Nat := 0
  guest : Bool := false
  taken : Nat := 0
  pkt : List Nat := []
  bank : Bool := false
  started : Bool := false
  accepted : Bool := false
  final : Bool := false
  rsvw : Bool := false
  holdTmo : Bool := false
  closed : Bool := false
  gen : Nat := 0
  afstamp : Nat := 0
  need : Option Nat := none
  limited : Bool := false
  note : Nat := 0
  hold : Option Nat := none
  micro : Bool := false
  pc : Nat := 0
  stack : List Nat := []
  t : SMap W32 := []
  z : Bool := false
  n : Bool := false
  c : Bool := false
  v : Bool := false
  xerr : Bool := false
  steps : Nat := 0
  /-- STATUS and DETAIL of the reply buffer: those of the last REPLY (R300). -/
  status : Nat := 0
  detail : Nat := 0
  wev : Option Nat := none
  ready : Option (Bool × W32 × Stamp) := none
  y : SMap W32 := []
  lock : Option Nat := none
  wrote : List Nat := []
  deriving DecidableEq, Repr

/-- The Tapster (R243 to R318): its banks (0, 1) and contexts; commands taken so far; replies held for queue space, with their reply
queue (R249); reply queues that lost one; period groups whose APPLY_HOLD it set, and when (R252); a load under way: whether a
swap follows, ADDR and LEN; a swap that waits, since when, or, with its INIT running, none; the MC_SWAP command that waits for them; what has
happened since the last command that its contexts may wait for: kind, instance, value, stamp. -/
structure Tapster where
  banks : SMap MBank := []
  ctxs : SMap (Option Ctx) := []
  taken : Nat := 0
  replies : List (Nat × List Byte) := []
  rlost : List Nat := []
  holds : SMap (Option Stamp) := []
  load : Option (Bool × Nat × Nat) := none
  swapFrom : Option Stamp := none
  mc : Option Nat := none
  events : List (Nat × Nat × Nat × Stamp) := []
  /-- The context whose turn it is and the consecutive steps it has made (R301). -/
  last : Nat := 0
  run : Nat := 0
  deriving DecidableEq, Repr

/-- The part: the present instant, the register file (R8 to R10), the last answer of the bus (R31), the memories with the
condition of their words (R419, R422), and the records of its units by number. A unit no list names is as its defaults say. -/
structure Mach where
  /-- The present instant (R34, R35). -/
  now : Stamp
  /-- Free values drawn so far (log entry 2). The model's own field, not the spec's. -/
  fresh : Nat
  /-- Why the part is held in reset (R458, R459, R460, R492): causes of SYS_RST_STAT, none when it runs. -/
  held : List Nat
  regs : SMap W32
  /-- RL shadows by requester: 0-15 Reed, 16 Tapster, 17 PCIe, 18 debug (R11); absent before the first low-half read. -/
  shadow : SMap (Option W32)
  resp : Resp
  mem : Memory
  ecc : SMap Ecc
  /-- The xSPI flash (R477): its bytes by flash address. -/
  flash : Memory
  /-- Host memory as the part's PCIe writes left it (R274, R275). -/
  host : Memory
  /-- MSI-X messages sent, by vector (R277, R281). -/
  msix : SMap Nat
  posts : List Post
  queues : SMap QDyn
  /-- Queue events of Reed core c: House under 2c, Guest under 2c + 1; pending queues, oldest first, and LOST (R383). -/
  qevents : SMap (List Nat × Bool)
  stages : SMap Stage
  /-- Accesses that wait behind a write at a mirror, in the order made (R25). -/
  behind : List Behind
  groups : SMap Group
  wins : SMap Win
  slices : SMap Slice
  timers : SMap Timer
  banks : SMap Bank
  slots : SMap Slot
  cells : SMap Cell
  cmps : SMap Cmp
  ports : SMap Port
  eths : SMap EthP
  /-- Errors the CAN controller of a field port counts (R289): TEC, which bus-off puts above 255. -/
  tecs : SMap Nat
  /-- While DE of the UART of a field port was last driven high: from, to (R289). -/
  des : SMap (Nat × Nat)
  viss : SMap Vis
  stos : SMap StoIn
  /-- Frames the outside ports have sent, oldest first. -/
  sent : List Sent
  /-- Command queues of the tunnel and the MAC that sent each its last accepted frame, the latest first (R288). -/
  tunnel : List (Nat × Nat)
  wds : SMap Wd
  sup : Sup
  reeds : SMap Reed
  pairs : SMap Pair
  secure : Secure
  power : Power
  dbg : Debug
  tap : Tapster
  /-- The retention store: the two record buffers, by address (R451). -/
  ret : Memory
  deriving DecidableEq, Repr

/-- The part, and the commands waiting for it, first in first out. -/
structure State where
  m : Mach
  pending : List Instr
  deriving DecidableEq, Repr

/-- The part as a cold reset leaves it when it is released (R472, log entry 113): registers at the resets of their field cards. -/
def Mach.reset : Mach := { now := 0, fresh := 0, held := [], regs := [], shadow := [], resp := .none, mem := [], ecc := [], flash := [], host := [], msix := [], posts := [], queues := [], qevents := [], stages := [], behind := [], groups := [], wins := [], slices := [], timers := [], banks := [], slots := [], cells := [], cmps := [], ports := [], eths := [], tecs := [], des := [], viss := [], stos := [], sent := [], tunnel := [], wds := [], sup := {}, reeds := [], pairs := [], secure := {}, power := {}, dbg := {}, tap := {}, ret := [] }

/-- The part after reset, with no command waiting. -/
def State.reset : State := { m := Mach.reset, pending := [] }

end Sys2Proof.Machine
end

