-- ==== Sys2Proof/Machine/Ops.lean ====
section
/-! DEFINITION. The named operations over registers, memory, free values, stamps and queue posts that the meanings share. -/

namespace Sys2Proof.Machine

/-! ### Registers -/

/-- The word at a device address. -/
def Mach.rg (m : Mach) (a : Nat) : W32 := SMap.get resetWord m.regs a

/-- Sets the word at a device address. -/
def Mach.setRg (m : Mach) (a : Nat) (v : W32) : Mach := { m with regs := SMap.set resetWord m.regs a v }

/-- The address of a field's (low) word in instance `i`. -/
def Fld.addr (f : Fld) (i : Nat) : Nat := f.blk.base i + f.off

/-- The value of a field of instance `i`. -/
def Mach.fld (m : Mach) (f : Fld) (i : Nat) : Nat :=
  if f.hi < 32 then bitsOf (m.rg (f.addr i)).toNat f.hi f.lo
  else bitsOf ((m.rg (f.addr i)).toNat + 2 ^ 32 * (m.rg (f.addr i + 4)).toNat) f.hi f.lo

/-- Whether a one-bit field reads 1. -/
def Mach.flg (m : Mach) (f : Fld) (i : Nat) : Bool := m.fld f i ≠ 0

/-- Sets a field of instance `i`, leaving the rest of its register. -/
def Mach.setFld (m : Mach) (f : Fld) (i : Nat) (v : Nat) : Mach :=
  if f.hi < 32 then m.setRg (f.addr i) (BitVec.ofNat 32 (putBits (m.rg (f.addr i)).toNat f.hi f.lo v))
  else
    let w := putBits ((m.rg (f.addr i)).toNat + 2 ^ 32 * (m.rg (f.addr i + 4)).toNat) f.hi f.lo v
    (m.setRg (f.addr i) (BitVec.ofNat 32 w)).setRg (f.addr i + 4) (BitVec.ofNat 32 (w / 2 ^ 32))

/-- Sets a one-bit field to `b`. -/
def Mach.setFlg (m : Mach) (f : Fld) (i : Nat) (b : Bool) : Mach := m.setFld f i (bit b)

/-- Sets a one-bit field to 1. -/
def Mach.raise (m : Mach) (f : Fld) (i : Nat) : Mach := m.setFld f i 1

/-- Sets a one-bit field to 1 when `b` holds. -/
def Mach.raiseIf (m : Mach) (b : Bool) (f : Fld) (i : Nat) : Mach := if b then m.raise f i else m

/-- Adds `n` to a counting field, saturating at its largest value. -/
def Mach.countSat (m : Mach) (f : Fld) (i : Nat) (n : Nat := 1) : Mach :=
  m.setFld f i (min (m.fld f i + n) (2 ^ (f.hi - f.lo + 1) - 1))

/-- Adds `n` to a counting field, modulo its width. -/
def Mach.countMod (m : Mach) (f : Fld) (i : Nat) (n : Nat := 1) : Mach := m.setFld f i (m.fld f i + n)

/-- The bits of a field in a written word. -/
def Fld.of (f : Fld) (w : W32) : Nat := bitsOf w.toNat f.hi f.lo

/-- A written word with a field replaced. -/
def Fld.into (f : Fld) (w : W32) (v : Nat) : W32 := BitVec.ofNat 32 (putBits w.toNat f.hi f.lo v)

/-- A 64-bit register as two's complement. -/
def Mach.fldS64 (m : Mach) (f : Fld) (i : Nat) : Int := signed 64 (m.fld f i)

/-! ### Free values, time -/

/-- Draws a free value (log entry 2). -/
def Mach.draw (m : Mach) : Nat × Mach := (Config.free m.fresh, { m with fresh := m.fresh + 1 })

/-- Draws `n` free values at once, as a function of a place in 0 to n − 1. -/
def Mach.drawMany (m : Mach) (n : Nat) : (Nat → Nat) × Mach :=
  (fun k => Config.free (m.fresh + k), { m with fresh := m.fresh + n })

/-- The tick the present instant lies in. -/
def Mach.tick (m : Mach) : Nat := m.now / 64

/-- Time passes up to `t` if it has not yet (log entry 4). -/
def Mach.until (m : Mach) (t : Stamp) : Mach := { m with now := max m.now t }

/-- Whether an edge lies 2 vn or less after a tick edge (R51). -/
def edgeNearBefore (e : Edge) : Bool := e.vn.val < 2 || (e.vn.val = 2 && !e.past)

/-- Whether an edge lies 2 vn or less before the next tick edge (R51). -/
def edgeNearAfter (e : Edge) : Bool := 62 ≤ e.vn.val

/-- The stamp of an input edge with its bits ARB and ARB_DIR (R36, R51). -/
def Mach.stampEdge (m : Mach) (e : Edge) : Stamp × Bool × Bool :=
  if edgeNearBefore e || edgeNearAfter e then
    let earlier := if edgeNearAfter e then e.tick else e.tick - 1
    if m.flg TB_STATUS.VN_CAL 0 then
      if e.later then ((earlier + 1) * 64, true, true) else (earlier * 64 + 63, true, false)
    else ((if e.later then earlier + 1 else earlier) * 64, false, false)
  else if m.flg TB_STATUS.VN_CAL 0 then (e.tick * 64 + e.vn.val, false, false)
  else (e.tick * 64, false, false)

/-! ### Requesters (R11, R375, R378) -/

/-- The number under which a requester's RL shadow stands. -/
def Req.idx : Req → Nat
  | .reed c => c.val
  | .tapster _ => 16
  | .pcie => 17
  | .debug _ => 18

/-- The SRC code of SYS_MEM_ESRC for a requester. -/
def Req.src : Req → Nat
  | .reed c => c.val
  | .tapster _ => 16
  | .pcie => 17
  | .debug _ => 18

/-! ### Faults of the part: SUP_FSTAT and FAULT_N (R438, R439) -/

/-- FAULT_N follows SUP_FSTAT and SUP_FMASK (R438). -/
def Mach.refreshFault (m : Mach) : Mach :=
  let on := m.fld SUP_FSTAT.PWD 0 ≠ 0 ∨ m.flg SUP_FSTAT.DWD 0 ∨ m.flg SUP_FSTAT.HF 0 ∨ m.flg SUP_FSTAT.TRIPLE 0
    ∨ m.flg SUP_FSTAT.BOOT 0 ∨ (m.flg SUP_FSTAT.EXTF 0 ∧ m.flg SUP_FMASK.EXTF 0)
    ∨ (m.flg SUP_FSTAT.LO 0 ∧ m.flg SUP_FMASK.LO 0) ∨ (m.flg SUP_FSTAT.UE 0 ∧ m.flg SUP_FMASK.UE 0)
  m.setFlg SUP_FSTAT.FAULT 0 on

/-- Sets a cause bit of SUP_FSTAT (R439). -/
def Mach.setFault (m : Mach) (f : Fld) : Mach := (m.raise f 0).refreshFault

/-! ### Records for queues (R274, R276) -/

/-- Hands a record of 32 bytes to the queue manager for queue `q`. -/
def Mach.post (m : Mach) (q : Nat) (bytes : List Byte) (drop : Option (Fld × Nat) := none) : Mach :=
  { m with posts := m.posts ++ [{ queue := q, bytes := (bytes ++ List.replicate 32 0).take 32, drop := drop }] }

/-- Hands over a record when `b` holds. -/
def Mach.postIf (m : Mach) (b : Bool) (q : Nat) (bytes : List Byte) (drop : Option (Fld × Nat) := none) : Mach :=
  if b then m.post q bytes drop else m

/-! ### What the Tapster's contexts wait for (R254, R306) -/

/-- The header of a context's packet, its opcode and its target (R243). -/
def Ctx.head (c : Ctx) : Nat := c.pkt.getD 0 0 + 2 ^ 32 * c.pkt.getD 1 0
def Ctx.op (c : Ctx) : Nat := bitsOf c.head 11 0
def Ctx.target (c : Ctx) : Nat := bitsOf c.head 21 12

/-- Something happened that a context may wait for: 1 a commit fence of group `i`; on slice `i`, 2 a limiter record, 3 a stop profile
begins, 4 a shutter, 5 a deadline escalation, 12 a committed period in which the limiter acted; 9 an injection result of bank `i`;
10 a verdict of window `i`; 11 an edge of vision output `i`. -/
def Mach.tell (m : Mach) (kind i v : Nat) (stamp : Stamp) : Mach :=
  if m.tap.ctxs.isEmpty then m else { m with tap := { m.tap with events := m.tap.events ++ [(kind, i, v, stamp)] } }

/-! ### Memory keys and the error-correcting code (R30, R419 to R426) -/

/-- Where the TCM of core `c` stands among the memory keys. -/
def tcmKey (c : Nat) : Nat := 0x200000000 + c * 0x40000

/-- The memory key of a map address as requester `core` sees it, if a memory answers there (R30). -/
def memKey (core : Option Nat) (a : Nat) : Option Nat :=
  if a < 0x40000 then core.map (fun c => tcmKey c + a)
  else if 0x10000000 ≤ a ∧ a < 0x11000000 then some a
  else if 0x20000000 ≤ a ∧ a < 0x20080000 then some a
  else if 0x80000000 ≤ a ∧ a < 0x100000000 then some a
  else none

/-- Whether power domain `d` is on (R464). DESIGN CHOICE: its blocks stop working when a switch-off is accepted, not when it
completes. -/
def Mach.pdOn (m : Mach) (d : Nat) : Bool := bitOf (m.fld SYS_PD_STAT.ON 0) d && m.power.switch ≠ some (d, false)

/-- Whether a memory key lies in a memory whose domain is on (R465). -/
def Mach.memOn (m : Mach) (k : Nat) : Bool :=
  if k < 0x20000000 then m.pdOn (if k < 0x10800000 then 42 else 43)
  else if k < 0x80000000 then true
  else if k < 0x100000000 then m.pdOn (40 + k / 64 % 2)
  else m.pdOn (5 + (k - 0x200000000) / 0x80000)

/-- The key of `n` bytes of memory at `a`, where a memory whose domain is on holds them all. -/
def Mach.memAt (m : Mach) (core : Option Nat) (a n : Nat) : Option Nat :=
  match memKey core a, memKey core (a + n - 1) with
  | some k, some l =>
    if l = k + (n - 1) && m.memOn k && m.memOn l && (List.range (n / 64)).all (fun i => m.memOn (k + 64 * i)) then some k else none
  | _, _ => none

/-- SYS_MEM_ESRC.MEM, SYS_MEM_ESRC.CORE and SYS_MEM_EADDR of a memory key; MEM 1 is core B's TCM in a safe pair. -/
def Mach.memOf (m : Mach) (k : Nat) : Nat × Nat × Nat :=
  if k < 0x20000000 then (2, 0, k)
  else if k < 0x30000000 then (3, 0, k)
  else if k < 0x100000000 then (4, 0, k)
  else
    let c := (k - 0x200000000) / 0x40000
    (if c % 2 = 1 ∧ ¬ m.flg SYS_PAIR_STAT.MODE (c / 2) then 1 else 0, c, k % 0x40000)

/-- The counting field of a memory (R423, R426): TCM, shared SRAM, map, DRAM. -/
def ceField (mem : Nat) : Option Fld :=
  match mem with
  | 0 | 1 => some SYS_MEM_CECNT.TCM
  | 2 => some SYS_MEM_CECNT.SRAM
  | 3 => some SYS_MEM_CECNT.MAP
  | 4 => some SYS_MEM_CECNT.DRAM
  | _ => none

/-- As `ceField`, for uncorrectable errors. -/
def ueField (mem : Nat) : Option Fld := (ceField mem).map (fun f => { f with off := SYS_MEM_UECNT.TCM.off })

/-- Counts a correctable error (R423). -/
def Mach.countCe (m : Mach) (k : Nat) : Mach :=
  let m := m.raise SYS_MEM_STAT.CE 0
  match ceField (m.memOf k).1 with
  | none => m
  | some f => m.countSat f 0

/-- An uncorrectable error found by `src` at word key `k` (R426): counted, flagged, recorded and posted. `kind` is 0 found
by an access, 1 by the scrubber, 2 poisoned by a partial store; `poison`: such a store wrote the error. -/
def Mach.reportUe (m : Mach) (mem core addr src kind : Nat) (poison : Bool) : Mach :=
  let m := m.raise SYS_MEM_STAT.UE 0
  let m := match ueField mem with
    | none => m
    | some f => m.countSat f 0
  let m := m.setFld SYS_MEM_EADDR.ADDR 0 addr
  let m := m.setFld SYS_MEM_ESRC.MEM 0 mem
  let m := m.setFld SYS_MEM_ESRC.CORE 0 core
  let m := m.setFld SYS_MEM_ESRC.SRC 0 src
  let m := m.setFlg SYS_MEM_ESRC.POISON 0 poison
  let m := m.setFld SYS_MEM_ESTAMP.STAMP 0 m.now
  let m := m.setFault SUP_FSTAT.UE
  m.postIf (m.flg SYS_MEM_EVQ.EN 0) (m.fld SYS_MEM_EVQ.QUEUE 0)
    (bytesOfNat 8 m.now ++ bytesOfNat 1 kind ++ bytesOfNat 1 mem ++ bytesOfNat 1 src ++ bytesOfNat 1 core ++ bytesOfNat 4 addr)

/-- The report of R426 for a memory key. -/
def Mach.reportUeKey (m : Mach) (k src kind : Nat) (poison : Bool) : Mach :=
  let (mem, core, addr) := m.memOf (k / 8 * 8)
  m.reportUe mem core addr src kind poison

/-- What an unlisted word's code reads as. -/
def eccGood (_ : Nat) : Ecc := .good

/-- The words (of 8 bytes) that `n` bytes from key `k` touch: the first, and how many. -/
def wordsOf (k n : Nat) : Nat × Nat := (k / 8, (k + n - 1) / 8 - k / 8 + 1)

/-- Passes the words `w`, `w + 1`, … through the error-correcting code as a read by `src` (R423, R425): correctable ones
are corrected and counted; whether an uncorrectable one was found. -/
def Mach.checkWords (m : Mach) (src : Nat) (w : Nat) : Nat → Bool × Mach
  | 0 => (false, m)
  | n + 1 =>
    match SMap.get eccGood m.ecc w with
    | .good => Mach.checkWords m src (w + 1) n
    | .correctable =>
      Mach.checkWords ({ m with ecc := SMap.set eccGood m.ecc w .good }.countCe (w * 8)) src (w + 1) n
    | .bad poison =>
      let (_, m) := Mach.checkWords (m.reportUeKey (w * 8) src 0 poison) src (w + 1) n
      (true, m)

/-- The bytes from key `k` on, with no side effect. -/
def Mach.peek (m : Mach) (k n : Nat) : List Byte := SMap.getRange Memory.unlisted m.mem k n

/-- A read of `n` bytes from key `k` by `src`: none where an uncorrectable error is found (R425). -/
def Mach.load (m : Mach) (src k n : Nat) : Option (List Byte) × Mach :=
  let (w, c) := wordsOf k n
  let (bad, m) := m.checkWords src w c
  (if bad then none else some (m.peek k n), m)

/-- Whether bytes `k` to `k + n` cover word `w` whole. -/
def coversWord (k n w : Nat) : Bool := k ≤ w * 8 && w * 8 + 8 ≤ k + n

/-- The code of the words a store touches (R424): a whole word gets fresh check bits; a part of a correctable word is
corrected and counted; a part of an uncorrectable word leaves it marked and is reported with POISON. -/
def Mach.storeCode (m : Mach) (src k n : Nat) (w : Nat) : Nat → Bool × Mach
  | 0 => (false, m)
  | c + 1 =>
    match SMap.get eccGood m.ecc w with
    | .good => Mach.storeCode m src k n (w + 1) c
    | .correctable =>
      let m1 := { m with ecc := SMap.set eccGood m.ecc w .good }
      Mach.storeCode (if coversWord k n w then m1 else m1.countCe (w * 8)) src k n (w + 1) c
    | .bad _ =>
      if coversWord k n w then
        Mach.storeCode { m with ecc := SMap.set eccGood m.ecc w .good } src k n (w + 1) c
      else
        let m1 := { m with ecc := SMap.set eccGood m.ecc w (.bad true) }
        let (_, m2) := Mach.storeCode (m1.reportUeKey (w * 8) src 2 true) src k n (w + 1) c
        (true, m2)

/-- Writes bytes from key `k` on, with no side effect. -/
def Mach.poke (m : Mach) (k : Nat) (bs : List Byte) : Mach :=
  { m with mem := SMap.setRange Memory.unlisted m.mem k bs }

/-- A store performed in bytes `k` to `k + n` clears every reservation on their lines (R372). -/
def Mach.unreserve (m : Mach) (k n : Nat) : Mach :=
  let hit (r : Option Nat) : Option Nat := match r with
    | some a => if k / 64 ≤ a / 64 ∧ a / 64 ≤ (k + n - 1) / 64 then none else some a
    | none => none
  { m with reeds := SMap.mapV (fun _ => {}) m.reeds (fun r => { r with resv := hit r.resv, resvLog := hit r.resvLog }) }

/-- A store of bytes from key `k` on by `src`: whether it met an uncorrectable word (R424), and the new state. -/
def Mach.store (m : Mach) (src k : Nat) (bs : List Byte) : Bool × Mach :=
  match bs with
  | [] => (false, m)
  | _ =>
    let (w, c) := wordsOf k bs.length
    let (bad, m) := m.storeCode src k bs.length w c
    (bad, (m.poke k bs).unreserve k bs.length)

/-- A read of a little-endian number of `n` bytes with no side effect. -/
def Mach.peekNat (m : Mach) (k n : Nat) : Nat := natOfBytes (m.peek k n)

end Sys2Proof.Machine
end

