-- ==== Sys2Proof/Machine/Queues.lean ====
section
/-! DEFINITION. The queue manager (R269 to R279): rings, posts, doorbells, notification and moderation. -/

namespace Sys2Proof.Machine

/-! ### Per-queue state -/

/-- The moderation state of queue `q`. -/
def Mach.qdyn (m : Mach) (q : Nat) : QDyn := SMap.get (fun _ => {}) m.queues q

/-- Sets it; QM_STAT.PEND shows PEND, saturating at 15 (R279). -/
def Mach.setQdyn (m : Mach) (q : Nat) (d : QDyn) : Mach :=
  ({ m with queues := SMap.set (fun _ => {}) m.queues q d }).setFld QM_STAT.PEND q (min d.pend 15)

/-- Number of entries N of queue `q`: LOG2 below 4 is treated as 4 (R269, R279). -/
def Mach.qN (m : Mach) (q : Nat) : Nat := 2 ^ (max (m.fld QM_CFG.LOG2 q) 4)

/-- Bytes of an entry (R270). -/
def Mach.qESize (m : Mach) (q : Nat) : Nat :=
  match m.fld QM_CFG.KIND q with
  | 0 => 64
  | 2 => if m.flg QM_CFG.ESIZE q then 64 else 32
  | _ => 32

/-- Ring address (bits 5:0 read 0). -/
def Mach.qBase (m : Mach) (q : Nat) : Nat := m.fld QM_BASE.BASE q * 64

def Mach.qHead (m : Mach) (q : Nat) : Nat := m.fld QM_IDX.HEAD q
def Mach.qTail (m : Mach) (q : Nat) : Nat := m.fld QM_IDX.TAIL q

/-- Entries waiting: TAIL − HEAD modulo 65,536 (R269). -/
def Mach.qFill (m : Mach) (q : Nat) : Nat := (m.qTail q + 65536 - m.qHead q) % 65536

/-- Whether the ring is full (R269). -/
def Mach.qFull (m : Mach) (q : Nat) : Bool := m.qFill q = m.qN q

/-- Sets both indices; QM_STAT.FULL follows. -/
def Mach.setIdx (m : Mach) (q head tail : Nat) : Mach :=
  let m := (m.setFld QM_IDX.HEAD q (head % 65536)).setFld QM_IDX.TAIL q (tail % 65536)
  m.setFlg QM_STAT.FULL q (m.qFull q)

/-- Address of entry number `i`. -/
def Mach.qEntry (m : Mach) (q i : Nat) : Nat := m.qBase q + (i % m.qN q) * m.qESize q

/-! ### Accesses of the queue manager (R274, R283) -/

/-- The SRC code of the queue manager (R435). -/
abbrev srcQm : Nat := 19

/-- Writes bytes of a ring: device memory, or host memory while the PCIe link is up (R283). -/
def Mach.qWrite (m : Mach) (q a : Nat) (bs : List Byte) : Mach :=
  if m.flg QM_CFG.SPACE q then
    if m.flg OP_PCIE_STAT.UP 0 then { m with host := SMap.setRange Memory.unlisted m.host a bs } else m
  else
    match m.memAt none a bs.length with
    | none => m
    | some k => (m.store srcQm k bs).2

/-- Index write-back (R275): TAIL, or HEAD for a PORT queue, zero-extended, at BASE + N × ESIZE. -/
def Mach.writeBack (m : Mach) (q : Nat) : Mach :=
  if m.flg QM_CFG.WB q then
    m.qWrite q (m.qBase q + m.qN q * m.qESize q)
      (bytesOfNat 4 (if m.fld QM_CFG.KIND q = 3 then m.qHead q else m.qTail q))
  else m

/-! ### Notification (R277, R383) -/

/-- What an unlisted interrupt count reads as. -/
def noMsix (_ : Nat) : Nat := 0

/-- A queue event for Reed core `c` in world `w` (R383): once in the list, lost when 64 are pending. -/
def Mach.queueEvent (m : Mach) (c : Nat) (guest : Bool) (q : Nat) : Mach :=
  let k := 2 * c + bit guest
  let l := SMap.get (fun _ => ([], false)) m.qevents k
  let l' : List Nat × Bool := if q ∈ l.1 then l else if l.1.length < 64 then (l.1 ++ [q], l.2) else (l.1, true)
  { m with qevents := SMap.set (fun _ => ([], false)) m.qevents k l' }

/-- Replies of an OUTPUT queue of the tunnel, by frames of at most 45 (R288). -/
def tunnelFrames (q : Nat) : Nat → List (List Byte) → List (List Byte)
  | 0, _ => []
  | n + 1, es =>
    if es.isEmpty then []
    else
      (bytesOfNat 2 0x4B44 ++ bytesOfNat 2 q ++ bytesOfNat 4 (min es.length 45) ++ (es.take 45).flatten)
        :: tunnelFrames q n (es.drop 45)

/-- The SRC code of the outside ports (R435). -/
abbrev srcPorts : Nat := 20

/-- The 32-byte entries number `i`, `i + 1`, … of queue `q`, as a port reads them: one that cannot be read is skipped (R278). -/
def Mach.portEntries (m : Mach) (q i : Nat) : Nat → List (List Byte) × Mach
  | 0 => ([], m)
  | n + 1 =>
    match m.memAt none (m.qEntry q i) 32 with
    | none => Mach.portEntries (m.raise QM_STAT.MEM_ERR q) q (i + 1) n
    | some k =>
      match m.load srcPorts k 32 with
      | (none, m) => Mach.portEntries (m.raise QM_STAT.MEM_ERR q) q (i + 1) n
      | (some bs, m) =>
        let (es, m) := Mach.portEntries m q (i + 1) n
        (bs :: es, m)

/-- The entries posted at this notification of tunnel queue `q` leave as frames, to the MAC that sent the last accepted frame
to a command queue whose RQ is `q` (R288). -/
def Mach.tunnelSend (m : Mach) (q : Nat) : Mach :=
  let n := (m.qdyn q).pend
  match m.tunnel.find? (fun e => m.fld QM_LINK.RQ e.1 = q) with
  | none => m
  | some e =>
    let (es, m) := m.portEntries q (m.qTail q + 65536 - n) n
    { m with sent := m.sent ++ (tunnelFrames q n es).map (fun f => { port := 18, dest := e.2, bytes := f, stamp := m.now }) }

/-- Tells the notified agent (R277): a Reed core gets a queue event in the owner world, unless it is a split core and the
queue is House-owned (R379), and a safe pair under its even number (R396); the host an MSI-X message; the tunnel sends frames; the Tapster and the ports look at their rings
themselves. -/
def Mach.notifyAgent (m : Mach) (q : Nat) : Mach :=
  let a := m.fld QM_LINK.AGENT q
  let guest := m.flg QM_CFG.OWNER q
  if a < 16 then
    if m.flg SYS_PAIR_STAT.MODE (a / 2) then (if guest then m.queueEvent a guest q else m) else m.queueEvent (a / 2 * 2) guest q
  else if a = 16 then
    if m.flg OP_PCIE_STAT.UP 0 then
      let v := m.fld QM_LINK.VEC q
      { m with msix := SMap.set noMsix m.msix v (SMap.get noMsix m.msix v + 1) }
    else m
  else if a = 18 ∧ m.fld QM_CFG.KIND q = 1 ∧ 3216 ≤ q ∧ q < 3248 ∧ m.flg OP_ETH_CTRL.EN 0 ∧ m.flg OP_ETH_CTRL.TUN 0 then m.tunnelSend q
  else m

/-- Notifies and restarts the count (R277). -/
def Mach.notify (m : Mach) (q : Nat) : Mach :=
  let d := m.qdyn q
  (m.notifyAgent q).setQdyn q { d with pend := 0, since := none }

/-- CNT as written, 0 treated as 1 (R279). -/
def Mach.qCnt (m : Mach) (q : Nat) : Nat := max (m.fld QM_MOD.CNT q) 1

/-- Counts `n` entries towards a notification, under the CNT and TIME now in the register (R277). -/
def Mach.countEntries (m : Mach) (q n : Nat) : Mach :=
  if n = 0 then m
  else
    let d := m.qdyn q
    let d := { d with pend := d.pend + n, since := d.since.or (some m.now), cnt := m.qCnt q, time := m.fld QM_MOD.TIME q }
    let m := m.setQdyn q d
    if m.flg QM_MOD.MASK q then m else if d.cnt ≤ d.pend then m.notify q else m

/-- When the moderation timer of `q` expires, if it runs (R277): TIME × 250 ns after the oldest counted entry. -/
def Mach.modDue (m : Mach) (q : Nat) : Option Stamp :=
  let d := m.qdyn q
  if d.time = 0 ∨ d.pend = 0 ∨ m.flg QM_MOD.MASK q then none
  else d.since.map (fun t => t + d.time * 4000)

/-! ### Posting (R274 to R276) -/

/-- Whether an OUTPUT queue can take `n` more entries. -/
def Mach.outReady (m : Mach) (q n : Nat) : Bool :=
  m.flg QM_CFG.EN q && m.fld QM_CFG.KIND q = 1 && m.qFill q + n ≤ m.qN q &&
    (!m.flg QM_CFG.SPACE q || m.flg OP_PCIE_STAT.UP 0)

/-- Appends one 32-byte entry: the entry first, then the write-back word, then the notification (R274). -/
def Mach.append (m : Mach) (q : Nat) (bytes : List Byte) : Mach :=
  let m := m.qWrite q (m.qEntry q (m.qTail q)) bytes
  let m := m.setIdx q (m.qHead q) (m.qTail q + 1)
  (m.writeBack q).countEntries q 1

/-- Delivers a record: appended, or dropped and counted, with the source's own drop flag set (R276). -/
def Mach.deliver (m : Mach) (p : Post) : Mach :=
  if m.outReady p.queue 1 then m.append p.queue p.bytes
  else
    let m := (m.countSat QM_STAT.DROPS p.queue).raise QM_STAT.DROP p.queue
    match p.drop with
    | none => m
    | some (f, i) => m.raise f i

/-- The oldest record handed to the queue manager is delivered (R274). -/
def Mach.postNext (m : Mach) : Mach :=
  match m.posts with
  | [] => m
  | p :: ps => { m with posts := ps }.deliver p

/-! ### Doorbells (R273) -/

/-- Whether software moves this side of this kind (R270): TAIL of COMMAND, MAILBOX and PORT; HEAD of OUTPUT and MAILBOX. -/
def sideMoves (kind : Nat) (head : Bool) : Bool :=
  match kind with
  | 0 => !head
  | 1 => head
  | 2 => true
  | _ => !head

/-- Whether the new index is a forward step the ring allows (R273). -/
def Mach.indexOk (m : Mach) (q : Nat) (head : Bool) (new : Nat) : Bool :=
  if head then (new + 65536 - m.qHead q) % 65536 ≤ m.qFill q
  else (new + 65536 - m.qTail q) % 65536 ≤ m.qN q && (new + 65536 - m.qHead q) % 65536 ≤ m.qN q

/-- A doorbell from a requester that may ring it (`own`): whether it was accepted, and the new state. Entries a TAIL
doorbell adds to a COMMAND or MAILBOX queue are counted (R270). -/
def Mach.ring (m : Mach) (own : Bool) (q : Nat) (head : Bool) (new : Nat) : Bool × Mach :=
  if !own then (false, m.raise QM_STAT.OWN_ERR q)
  else if !(m.flg QM_CFG.EN q && sideMoves (m.fld QM_CFG.KIND q) head && m.indexOk q head new) then
    (false, m.raise QM_STAT.BAD_DB q)
  else if head then (true, m.setIdx q new (m.qTail q))
  else
    let n := (new + 65536 - m.qTail q) % 65536
    let m := m.setIdx q (m.qHead q) new
    (true, if m.fld QM_CFG.KIND q = 3 then m else m.countEntries q n)

/-! ### Configuration (R271, R272, R279, R287) -/

/-- Whether R271 and R287 allow this kind (0 COMMAND, 1 OUTPUT, 2 MAILBOX, 3 PORT) and space on queue `q`. -/
def kindAllowed (q kind : Nat) (host : Bool) : Bool :=
  if q < 1152 then kind = 1 && !host
  else if q < 2176 then kind ≠ 3 && !host
  else if q < 3200 then kind ≤ 1 && host
  else if q < 3216 then kind = 3 && !host
  else if q < 3248 then kind ≤ 1 && !host
  else if 3264 ≤ q && q < 3280 then kind = 3 && !host
  else if 3328 ≤ q && q < 3344 then kind = 3 && !host
  else false

/-- The port agent R287 gives a PORT queue. -/
def portAgent (q : Nat) : Nat :=
  if q < 3216 then 18 else if q < 3280 then 19 else 20 + (q - 3328) / 2

/-- Whether AGENT is allowed for the KIND (R272). -/
def agentAllowed (q kind agent : Nat) : Bool :=
  match kind with
  | 0 => agent = 17
  | 3 => agent = portAgent q
  | _ => true

/-- Whether the ring and its write-back word lie wholly in shared SRAM or DRAM (R272). -/
def Mach.ringFits (m : Mach) (q : Nat) : Bool :=
  let lo := m.qBase q
  let hi := lo + m.qN q * m.qESize q + (if m.flg QM_CFG.WB q then 4 else 0)
  (0x10000000 ≤ lo && hi ≤ 0x11000000) || (0x80000000 ≤ lo && hi ≤ 0x100000000)

/-- The check of an enable (R272): the CFG_ERR it fails with, 0 if none. -/
def Mach.enableErr (m : Mach) (q : Nat) : Nat :=
  if !m.flg QM_CFG.SPACE q && !m.ringFits q then 2
  else if !kindAllowed q (m.fld QM_CFG.KIND q) (m.flg QM_CFG.SPACE q) then 3
  else if !agentAllowed q (m.fld QM_CFG.KIND q) (m.fld QM_LINK.AGENT q) then 4
  else 0

/-- Enables queue `q` as its registers stand (R272), or refuses with CFG_ERR and EN 0. -/
def Mach.queueOn (m : Mach) (q : Nat) : Mach :=
  match m.enableErr q with
  | 0 => (((m.raise QM_CFG.EN q).setIdx q 0 0).setFld QM_STAT.CFG_ERR q 0).setQdyn q {}
  | e => (m.setFld QM_CFG.EN q 0).setFld QM_STAT.CFG_ERR q e

end Sys2Proof.Machine
end

