-- ==== Sys2Proof/Machine/Gates.lean ====
section
/-! DEFINITION. The gate-output fabric (R216 to R242): carriers, edges, overrides and their rank, shutter, STO, fault
inputs and the timer records. -/

namespace Sys2Proof.Machine

def Mach.slice (m : Mach) (x : Nat) : Slice := SMap.get (fun _ => {}) m.slices x
def Mach.setSlice (m : Mach) (x : Nat) (s : Slice) : Mach := { m with slices := SMap.set (fun _ => {}) m.slices x s }
def Mach.timer (m : Mach) (x : Nat) : Timer := SMap.get (fun _ => {}) m.timers x
def Mach.setTimer (m : Mach) (x : Nat) (t : Timer) : Mach := { m with timers := SMap.set (fun _ => {}) m.timers x t }
def Mach.group (m : Mach) (g : Nat) : Group := SMap.get (fun _ => {}) m.groups g
def Mach.setGroup (m : Mach) (g : Nat) (d : Group) : Mach := { m with groups := SMap.set (fun _ => {}) m.groups g d }

def Timer.gate (t : Timer) (g : Nat) : Gate := SMap.get (fun _ => {}) t.gates g
def Timer.setGate (t : Timer) (g : Nat) (v : Gate) : Timer := { t with gates := SMap.set (fun _ => {}) t.gates g v }
def Timer.leg (t : Timer) (l : Nat) : Leg := SMap.get (fun _ => {}) t.legs l
def Timer.setLeg (t : Timer) (l : Nat) (v : Leg) : Timer := { t with legs := SMap.set (fun _ => {}) t.legs l v }

/-- Legs of a timer (R216). -/
def legsOf (x : Nat) : Nat := if x < 64 then 3 else 4

/-- Whether the part is out of reset and its gate balls may be driven (R239): no reset is in progress. -/
def Mach.outOfReset (m : Mach) : Bool := m.held.isEmpty

/-- The period group of a slice: AX_CTRL.PG and CV_CTRL.PG share their place. -/
def Mach.pgOf (m : Mach) (x : Nat) : Nat := m.fld AX_CTRL.PG x

/-- Whether a slice is enabled: EN of AX_CTRL or CV_CTRL. -/
def Mach.en (m : Mach) (x : Nat) : Bool := m.flg AX_CTRL.EN x

/-- Period of group `g` in ticks: a value out of range is treated as 2,500 (R43). -/
def Mach.pgP (m : Mach) (g : Nat) : Nat :=
  let p := m.fld TB_PG_PERIOD.P g
  if p < 1250 ∨ 250000 < p then 2500 else p

/-- Whether group `g` is enabled. -/
def Mach.pgOn (m : Mach) (g : Nat) : Bool := m.flg TB_PG_CTRL.EN g

/-! ### The carrier (R218, R226) -/

/-- TC in vernier; a value out of range is treated as 160,000 (R241). -/
def Mach.tc (m : Mach) (x : Nat) : Nat :=
  let t := m.fld AX_GT_TC.TC x
  if t < 40000 ∨ 8000000 < t then 160000 else t

/-- CPH in vernier; TC or more is treated as 0. -/
def Mach.cph (m : Mach) (x : Nat) : Nat :=
  let c := m.fld AX_GT_CPH.CPH x
  if m.tc x ≤ c then 0 else c

/-- Whether each leg has its own carrier (R226). -/
def Mach.interleaved (m : Mach) (x : Nat) : Bool := 64 ≤ x && m.flg AX_GT_CTRL.INTLV x

/-- Legs in use: three, or LEGS + 1 of a converter (R216). -/
def Mach.usedLegs (m : Mach) (x : Nat) : Nat := if x < 64 then 3 else m.fld CV_CTRL.LEGS x + 1

/-- Carrier start 0 of leg `l` as a stamp. -/
def Mach.carrier0 (m : Mach) (x l : Nat) : Stamp :=
  let shift := if m.interleaved x then l * (m.tc x / (m.fld CV_CTRL.LEGS x + 1)) else 0
  m.fld TB_PG_PHASE.PHASE (m.pgOf x) * 64 + m.cph x + shift

/-- Carrier start `k` of leg `l` as a stamp; those before stamp 0 count as 0. -/
def Mach.carrierAt (m : Mach) (x l : Nat) (k : Int) : Int := m.carrier0 x l + k * m.tc x

/-- The carrier period of leg `l` in which `t` lies. -/
def Mach.carrierIdx (m : Mach) (x l : Nat) (t : Stamp) : Int := ((t : Int) - m.carrier0 x l) / (m.tc x : Int)

/-- Whether the carrier runs: it does whenever the slice's group runs (R218). -/
def Mach.carrierRuns (m : Mach) (x : Nat) : Bool := m.flg TB_PG_STAT.RUN (m.pgOf x)

/-- The carrier of a timer starts anew at its next event: its period, phase or shift changed (R218). -/
def Mach.carrierMoved (m : Mach) (x : Nat) : Mach :=
  let t := m.timer x
  m.setTimer x { t with legs := SMap.mapV (fun _ => {}) t.legs (fun l => { l with started := false, lowDue := none }) }

/-! ### From duty to edges (R220 to R222) -/

/-- On-time h of a compare value. -/
def onTime (d tc : Nat) : Nat := (d * tc + 32768) / 65536

/-- The ideal switching instants r and f, from the carrier start (R220). -/
def switchAt (edge : Bool) (d tc : Nat) : Nat × Nat :=
  let h := onTime d tc
  let r := if edge then 0 else (tc - h) / 2
  (r, r + h)

def Mach.legDT (m : Mach) (x l : Nat) : Nat := m.fld (AX_GT_LEG.DT.sh (4 * l)) x
def Mach.legMINP (m : Mach) (x l : Nat) : Nat := m.fld (AX_GT_LEG.MINP.sh (4 * l)) x

/-- Shadow compare value of leg `l`: every leg of a converter uses D (R224, R241). -/
def Mach.shadowD (m : Mach) (x l : Nat) : Nat :=
  if 64 ≤ x then m.fld AX_GT_SHD_AB.D_A x
  else match l with
    | 0 => m.fld AX_GT_SHD_AB.D_A x
    | 1 => m.fld AX_GT_SHD_AB.D_B x
    | _ => m.fld AX_GT_SHD_CD.D_A x

/-- Shows the live compare value of a leg. -/
def Mach.showLive (m : Mach) (x l d : Nat) : Mach :=
  if 64 ≤ x then (if l = 0 then m.setFld AX_GT_LIVE_AB.D_A x d else m)
  else match l with
    | 0 => m.setFld AX_GT_LIVE_AB.D_A x d
    | 1 => m.setFld AX_GT_LIVE_AB.D_B x d
    | _ => m.setFld AX_GT_LIVE_CD.D_A x d

/-- Instants of edges before VN_CAL: turn-off rounds down and turn-on rounds up to whole ticks (R223). -/
def Mach.edgeAt (m : Mach) (on : Bool) (t : Stamp) : Stamp :=
  if m.flg TB_STATUS.VN_CAL 0 then t else if on then (t + 63) / 64 * 64 else t / 64 * 64

/-! ### Overrides and their rank (R227 to R230, R236) -/

/-- STOSEL names an input (8 to 14 are treated as 15). -/
def Mach.stoSel (m : Mach) (x : Nat) : Option Nat :=
  let i := m.fld AX_GT_CTRL.STOSEL x
  if i < 8 then some i else none

/-- Whether input `i` is in its safe state. -/
def Mach.stoSafe (m : Mach) (i : Nat) : Bool := bitOf (m.fld OP_STO_STAT.SAFE 0) i

/-- Whether STO is in force on the timer (R234). -/
def Mach.stoOn (m : Mach) (x : Nat) : Bool :=
  match m.stoSel x with
  | none => false
  | some i => m.stoSafe i

/-- The loop-quadrant domain of a slice: PD_LQq holds AS16q to AS16q + 15, CS2q and CS2q + 1 (R148, R217). -/
def quadOf (x : Nat) : Nat := if x < 64 then x / 16 else (x - 64) / 2

/-- The rank that decides leg `l` (R227). -/
def Mach.rank (m : Mach) (x l : Nat) : Nat :=
  let t := m.timer x
  if !m.outOfReset || !m.pdOn (13 + quadOf x) || !m.flg AX_GT_CTRL.OE x then 1
  else if m.stoOn x then 2
  else if m.flg AX_GT_STAT.SHUT x then 3
  else if m.flg AX_GT_STAT.HALT x && m.fld AX_GT_CTRL.HALTPAT x ≠ 2 then 4
  else if !(t.leg l).live || m.usedLegs x ≤ l then 5
  else if (t.leg l).chop ≠ [] then 6
  else 7

/-- Whether the shutter pattern is the low-side active short (R230). -/
def Mach.lowShort (m : Mach) (x : Nat) : Bool :=
  x < 64 && m.flg AX_GT_CTRL.SHPAT x && m.fld AX_GT_STAT.FLT x = 0

/-- What the winning rank asks of (high side, low side) of leg `l`; none under pulse-width modulation or high impedance. -/
def Mach.pattern (m : Mach) (x l : Nat) : Option (Bool × Bool) :=
  match m.rank x l with
  | 2 | 5 => some (false, false)
  | 3 => some (false, m.lowShort x)
  | 4 => if m.fld AX_GT_CTRL.HALTPAT x = 1 then some (false, false) else some (false, m.lowShort x)
  | 6 =>
    match m.fld (AX_GT_LEG.CHOPST.sh (4 * l)) x with
    | 1 => some (false, true)
    | 2 => some (true, false)
    | _ => some (false, false)
  | _ => none

/-! ### Gate edges and the blanks they start (R92, R221, R223) -/

def Mach.cmp (m : Mach) (c : Nat) : Cmp := SMap.get (fun _ => {}) m.cmps c
def Mach.setCmp (m : Mach) (c : Nat) (d : Cmp) : Mach := { m with cmps := SMap.set (fun _ => {}) m.cmps c d }

/-- Whether comparator `c` is a member of an enabled window (R100). -/
def Mach.inWindow (m : Mach) (c : Nat) : Bool := m.flg CMP_WIN_CTRL.EN (c / 2)

/-- The comparator whose CMP_ACT and ARM stand for `c` (R100): member 2w's for both members of an enabled window. -/
def Mach.actOf (m : Mach) (c : Nat) : Nat := if m.inWindow c then c / 2 * 2 else c

/-- The owning timer (R97): 72 to 127 name none. -/
def Mach.cmpOwner (m : Mach) (c : Nat) : Option Nat :=
  let o := m.fld CMP_ACT.OWN (m.actOf c)
  if o < 72 then some o else none

/-- Puts a blank start in its place by time. -/
def insertStart (b : Stamp × Nat) : List (Stamp × Nat) → List (Stamp × Nat)
  | [] => [b]
  | a :: as => if a.1 ≤ b.1 then a :: insertStart b as else b :: a :: as

/-- A blank of comparator `c` starts at `t`, where BLEN is not 0 (R92). -/
def Mach.blankStart (m : Mach) (c : Nat) (t : Stamp) : Mach :=
  let len := m.fld CMP_CHAT.BLEN c
  if len = 0 ∨ ¬ m.flg CMP_CTRL.EN c then m
  else m.setCmp c { m.cmp c with starts := insertStart (t, len * 16) (m.cmp c).starts }

/-- Whether comparator `c` takes an edge of leg `l` of timer `x` for the start of a blank. -/
def Mach.blanksOn (m : Mach) (c x l : Nat) (on : Bool) : Bool :=
  m.cmpOwner c = some x && (match m.fld CMP_CHAT.BSRC c with
    | 1 => true
    | 2 => m.fld CMP_ACT.LEG (m.actOf c) = l
    | 3 => m.fld CMP_ACT.LEG (m.actOf c) = l && on
    | _ => false)

/-- A gate edge of leg `l` of timer `x` at `t` starts the blanks that select it. -/
def Mach.blankOnEdge (m : Mach) (x l : Nat) (on : Bool) (t : Stamp) : Mach :=
  (List.range 256).foldl (fun m c => if m.blanksOn c x l on then m.blankStart c t else m) m

/-- An edge that was to come at `t` does not: neither does its blank. -/
def Mach.unblank (m : Mach) (x l : Nat) (on : Bool) (t : Stamp) : Mach :=
  (List.range 256).foldl (fun m c =>
    if m.blanksOn c x l on then m.setCmp c { m.cmp c with starts := (m.cmp c).starts.filter (fun b => b.1 ≠ t) } else m) m

/-- A carrier event of timer `x` at `t` starts the blanks that select it. -/
def Mach.blankOnCarrier (m : Mach) (x : Nat) (t : Stamp) : Mach :=
  (List.range 256).foldl (fun m c =>
    if m.cmpOwner c = some x ∧ m.fld CMP_CHAT.BSRC c = 4 then m.blankStart c t else m) m

def Mach.putGate (m : Mach) (x g : Nat) (a : Gate) : Mach := m.setTimer x ((m.timer x).setGate g a)

/-- Whether a gate is driven on at `t`: its last change may still be to come. -/
def Gate.isOn (a : Gate) (t : Stamp) : Bool := if a.on then a.at_ ≤ t else t < a.at_

/-- The latest turn-off of a gate, made or to come. -/
def Gate.offAt (a : Gate) : Stamp := if a.on then a.prev else a.at_

/-- Gate `g` turns off at `t`, whatever edge was still to come. -/
def Mach.turnOff (m : Mach) (x g : Nat) (t : Stamp) : Mach :=
  let t := m.edgeAt false t
  let a := (m.timer x).gate g
  if a.on then
    if a.at_ ≤ t then (m.putGate x g { on := false, at_ := t, prev := a.at_ }).blankOnEdge x (g / 2) false t
    else (m.putGate x g { on := false, at_ := a.prev, prev := 0 }).unblank x (g / 2) true a.at_
  else if t < a.at_ then
    ((m.unblank x (g / 2) false a.at_).putGate x g { a with at_ := t }).blankOnEdge x (g / 2) false t
  else m

/-- Gate `g` turns on, no earlier than `t` and DT after its complement's turn-off (R221). -/
def Mach.turnOn (m : Mach) (x g : Nat) (t : Stamp) : Mach :=
  let a := (m.timer x).gate g
  if a.on then m
  else if t < a.at_ then (m.unblank x (g / 2) false a.at_).putGate x g { on := true, at_ := a.prev, prev := 0 }
  else
    let c := (m.timer x).gate (if g % 2 = 0 then g + 1 else g - 1)
    let t := m.edgeAt true (max t (c.offAt + m.legDT x (g / 2)))
    (m.putGate x g { on := true, at_ := t, prev := a.at_ }).blankOnEdge x (g / 2) true t

/-- Brings the gates of leg `l` to the pattern of the winning rank at `t`: off at once, on after dead time (R227). -/
def Mach.drive (m : Mach) (x l : Nat) (t : Stamp) : Mach :=
  match m.pattern x l with
  | none => m
  | some (hi, lo) =>
    let m := if hi then m else m.turnOff x (2 * l) t
    let m := if lo then m else m.turnOff x (2 * l + 1) t
    let m := if hi then m.turnOn x (2 * l) t else m
    if lo then m.turnOn x (2 * l + 1) t else m

/-- Brings every leg of a timer to its winning pattern. -/
def Mach.driveAll (m : Mach) (x : Nat) (t : Stamp) : Mach :=
  (List.range (legsOf x)).foldl (fun m l => m.drive x l t) m

/-! ### Pulse-width modulation (R221, R222, R225) -/

/-- A pulse that a value has running: its width and its end. -/
structure Pulse where
  width : Int
  ends : Int
  deriving DecidableEq, Repr

/-- The pulses (high side, low side) that the value `d` has running at `t` in the carrier period that starts at `c`. Up to r the low
side's pulse is that of the period before. -/
def Mach.pwmAt (m : Mach) (x l d : Nat) (c t : Int) : Option Pulse × Option Pulse :=
  let tc : Int := m.tc x
  let (r, f) := switchAt (m.flg AX_GT_CTRL.CMODE x) d (m.tc x)
  let dt : Int := m.legDT x l
  let rel := t - c
  let low := tc + r - f - dt
  (if r + dt ≤ rel ∧ rel < f then some ⟨f - r - dt, c + f⟩ else none,
   if rel < r ∧ f + dt - tc ≤ rel then some ⟨low, c + r⟩
   else if f + dt ≤ rel ∧ rel < tc + r then some ⟨low, c + tc + r⟩ else none)

/-- Whether a pulse of width `w` is produced (R222), and MINP_HIT. -/
def Mach.produced (m : Mach) (x l : Nat) (w : Int) : Bool × Mach :=
  if w ≤ 0 then (false, m)
  else if w < m.legMINP x l then (false, m.raise AX_GT_STAT.MINP_HIT x)
  else (true, m)

/-- A running pulse where it is produced. -/
def Mach.runs (m : Mach) (x l : Nat) (p : Option Pulse) : Option Int × Mach :=
  match p with
  | none => (none, m)
  | some p =>
    let (ok, m) := m.produced x l p.width
    (if ok then some p.ends else none, m)

/-- Each gate of leg `l` goes at `t` to the level the live value gives in the present carrier period: off at once, with `keep`
no sooner than MINP after its turn-on; on after dead time, unless less than MINP would be left (R225). -/
def Mach.pwm (m : Mach) (x l : Nat) (t : Stamp) (keep : Bool) : Mach :=
  let leg := (m.timer x).leg l
  let c := m.carrierAt x l (if leg.started then leg.m else m.carrierIdx x l t)
  let (ph, pl) := m.pwmAt x l leg.d c t
  let (hi, m) := m.runs x l ph
  let (lo, m) := m.runs x l pl
  let mp := m.legMINP x l
  let stop (m : Mach) (g : Nat) (e : Option Int) : Mach :=
    let a := (m.timer x).gate g
    if e.isSome then m else m.turnOff x g (if keep && a.isOn t then max t ((if a.on then a.at_ else a.prev) + mp) else t)
  let go (m : Mach) (g o : Nat) (e : Option Int) : Mach :=
    match e with
    | none => m
    | some e => if e < max t (((m.timer x).gate o).offAt + m.legDT x l) + mp then m else m.turnOn x g t
  let m := stop (stop m (2 * l) hi) (2 * l + 1) lo
  go (go m (2 * l) (2 * l + 1) hi) (2 * l + 1) (2 * l) lo

/-- Brings leg `l`, whose rank was `was`, to the pattern of the rank that wins now. -/
def Mach.redrive (m : Mach) (x l was : Nat) (t : Stamp) : Mach :=
  if m.rank x l = 7 then (if was = 7 then m else m.pwm x l t false) else m.drive x l t

/-- The ranks of a timer's legs. -/
def Mach.ranks (m : Mach) (x : Nat) : List Nat := (List.range (legsOf x)).map (m.rank x)

/-- Brings every leg of a timer, whose ranks were `was`, to the pattern of the rank that wins now. -/
def Mach.redriveAll (m : Mach) (x : Nat) (was : List Nat) (t : Stamp) : Mach :=
  (List.range (legsOf x)).foldl (fun m l => m.redrive x l (was.getD l 7) t) m

/-- Whether a gate ball reads at its off level under AX_GT_POL: it is not driven on, or not driven at all (R297). -/
def Mach.gateOff (m : Mach) (x g : Nat) : Bool := m.rank x (g / 2) = 1 || !((m.timer x).gate g).isOn m.now

/-! ### Timer records (R242) -/

/-- Posts a timer record of `kind`. -/
def Mach.gtRecord (m : Mach) (x kind : Nat) (stamp : Stamp) (arb dir : Bool) (inp : Nat := 0) : Mach :=
  m.postIf (m.flg AX_GT_EVQ.EN x) (m.fld AX_GT_EVQ.QUEUE x)
    (bytesOfNat 8 stamp ++ bytesOfNat 1 kind ++ bytesOfNat 1 x ++ bytesOfNat 2 (m.fld AX_GT_CAUSE.CAUSE x)
      ++ bytesOfNat 1 (bit arb + 2 * bit dir + 4 * inp))

/-! ### Shutter (R229, R232) -/

/-- A shutter or an escalation while MASS or RESP runs is a cause of abort at the next commit fence (R200). -/
def Mach.seqStopped (m : Mach) (x : Nat) : Mach :=
  let s := m.slice x
  if (s.comm.part = 1 || s.comm.part = 2) && s.comm.abort ≠ 8 then m.setSlice x { s with comm := { s.comm with abort := 9 } } else m

/-- A shutter comes into force, or is kept, for cause bit `c` at `stamp`: the cause is recorded; the first cause is stamped,
posted and brings in the pattern; any cause cancels a pending release. -/
def Mach.shutter (m : Mach) (x c : Nat) (stamp : Stamp) (arb : Bool := false) (dir : Bool := false) : Mach :=
  let m := m.setFld AX_GT_CAUSE.CAUSE x (m.fld AX_GT_CAUSE.CAUSE x ||| 2 ^ c)
  let m := m.setFld AX_GT_STAT.RELPEND x 0
  let m := m.setTimer x { m.timer x with pendRel := false }
  if m.flg AX_GT_STAT.SHUT x then m
  else
    let m := (m.raise AX_GT_STAT.SHUT x).setFld AX_GT_SHSTAMP.STAMP x stamp
    (((m.gtRecord x 0 stamp arb dir).driveAll x stamp).tell 4 x 0 stamp).seqStopped x

/-- The output whose trips carry out the actions of comparator `c` (R100): its own, or, while its window is enabled, the
window's for member 2w and none for member 2w + 1. -/
def Mach.actingOut (m : Mach) (c : Nat) : Bool :=
  if m.flg CMP_WIN_CTRL.EN (c / 2) then c % 2 = 0 && m.flg CMP_WIN_STAT.OUT (c / 2) else m.flg CMP_STAT.OUT c

/-- Whether a level cause refuses a release (R232). -/
def Mach.releaseBlocked (m : Mach) (x : Nat) : Bool :=
  let flt (i : Nat) := bitOf (m.fld AX_GT_STAT.FLT x) i && 2 ≤ m.fld (AX_GT_FLT.ACT.sh (4 * i)) x
  flt 0 || flt 1 || m.stoOn x ||
    (List.range 256).any (fun c => m.flg CMP_CTRL.ARM c && m.flg CMP_ACT.SHUT c && m.fld CMP_ACT.OWN c = x
      && m.actingOut c)

/-- The shutter ends at `t` (R232): RELPEND clears and KIND 1 is posted. -/
def Mach.shutterEnd (m : Mach) (x : Nat) (t : Stamp) : Mach :=
  let was := m.ranks x
  let m := (m.setFld AX_GT_STAT.SHUT x 0).setFld AX_GT_STAT.RELPEND x 0
  let m := m.setTimer x { m.timer x with pendRel := false }
  (m.gtRecord x 1 t false false).redriveAll x was t

/-- AX_GT_CMD RELEASE (R232): refused under a level cause; otherwise CAUSE clears and the shutter waits for the first new
duties, or ends at once where the slice is disabled or its group is not running. -/
def Mach.release (m : Mach) (x : Nat) : Mach :=
  if m.releaseBlocked x then (m.raise AX_GT_STAT.REL_REFUSED x).gtRecord x 4 m.now false false
  else
    let m := m.setFld AX_GT_CAUSE.CAUSE x 0
    if !m.flg AX_GT_STAT.SHUT x then m
    else if !(m.en x || m.flg AX_STATE.RUN x) || !m.flg TB_PG_STAT.RUN (m.pgOf x) then m.shutterEnd x m.now
    else (m.raise AX_GT_STAT.RELPEND x).setTimer x { m.timer x with relFrom := m.now + 16 * 64, pendRel := false }

/-! ### Stop triggers (R168) -/

/-- Whether the slice has a limiter to stop with: an axis in servo mode. -/
def Mach.servo (m : Mach) (x : Nat) : Bool := x < 64 && (m.fld AX_CTRL.MODE x = 0 || m.fld AX_CTRL.MODE x = 3)

/-- A stop trigger for axis `x` (R168); `sup` when supervision starts it, which the timeout of R440 then watches. A trigger
during STOP or STOPPED changes nothing (R170). In a mode without a limiter it is kept for the commit fence's shutter. -/
def Mach.stopAxis (m : Mach) (x : Nat) (sup : Bool) : Mach :=
  let s := m.slice x
  let ph := m.fld AX_LIM_STAT.PHASE x
  if !(m.en x || m.flg AX_STATE.RUN x) then m
  else if m.servo x && (ph = 3 || ph = 4) then m
  else m.setSlice x { s with stopTrig := true, supStop := if sup then s.supStop.or (some m.now) else s.supStop }

/-- Stops every axis of the list that holds `p`. -/
def Mach.stopAxes (m : Mach) (p : Nat → Bool) : Mach :=
  (List.range 64).foldl (fun m x => if p x then m.stopAxis x true else m) m

/-- AX_STOP_CTRL.PAIR: values 8 to 14 are treated as 15, none (R170). -/
def Mach.stopPair (m : Mach) (x : Nat) : Option Nat :=
  let p := m.fld AX_STOP_CTRL.PAIR x
  if p < 8 then some p else none

/-- Starts the stop profile of every axis whose AX_STOP_CTRL.PAIR names pair `p` (R168, R408). -/
def Mach.stopPairAxes (m : Mach) (p : Nat) : Mach := m.stopAxes (fun x => m.stopPair x = some p)

end Sys2Proof.Machine
end

