-- ==== Sys2Proof/Machine/Instants.lean ====
section
/-! DEFINITION. Where the fences of a period group lie (R38, R23). -/

namespace Sys2Proof.Machine

/-! ### Fence instants (R38) -/

def Mach.pgSF (m : Mach) (g : Nat) : Nat := m.fld TB_PG_SF.OFS g
def Mach.pgCF (m : Mach) (g : Nat) : Nat := m.fld TB_PG_CF.OFS g
def Mach.pgAF (m : Mach) (g : Nat) : Nat := m.fld TB_PG_AF.OFS g

/-- First tick of period `k`. -/
def Mach.startTick (m : Mach) (g k : Nat) : Nat := m.fld TB_PG_PHASE.PHASE g + k * m.pgP g

/-- The lead L = (CF − SF) mod P. -/
def Mach.lead (m : Mach) (g : Nat) : Nat := (m.pgCF g + m.pgP g - m.pgSF g % m.pgP g) % m.pgP g

def Mach.sampleTick (m : Mach) (g k : Nat) : Nat := m.startTick g k + m.pgSF g

/-- The sample instant, vernier SV included. -/
def Mach.sampleStamp (m : Mach) (g k : Nat) : Stamp := m.sampleTick g k * 64 + m.fld TB_PG_SF.SV g

def Mach.commitStamp (m : Mach) (g k : Nat) : Stamp := (m.sampleTick g k + m.lead g) * 64
def Mach.applyStamp (m : Mach) (g k : Nat) : Stamp := (m.startTick g k + m.pgAF g) * 64

/-- The staging lock is 2 tk before its apply fence (R23). -/
def Mach.lockStamp (m : Mach) (g k : Nat) : Stamp := m.applyStamp g k - 2 * 64

/-- Least k with a + k × p at or above n. -/
def leastIndex (a p n : Nat) : Nat := if n ≤ a then 0 else (n - a + p - 1) / p

/-- The slices of group `g`. -/
def Mach.members (m : Mach) (g : Nat) : List Nat := (List.range 72).filter (fun x => m.pgOf x = g)

/-- One tick of the timebase passes, where the counter runs (R34, R461, R462). -/
def Mach.tickOn (m : Mach) : Mach :=
  if m.held.isEmpty && (m.flg TB_STATUS.LOCK 0 || m.flg SYS_CLK_STAT.HOLD 0) then { m with now := m.now + vnPerTick } else m

end Sys2Proof.Machine
end

