-- ==== Sys2Proof/Machine/Banks.lean ====
section
/-! DEFINITION. The converter banks (R57 to R85): conversion grid, correction, window filter, injected conversions, start-up
calibration and the rotating spare. Slots and cells are numbered 16 × bank + slot or cell. -/

namespace Sys2Proof.Machine

def Mach.bank (m : Mach) (b : Nat) : Bank := SMap.get (fun _ => {}) m.banks b
def Mach.setBank (m : Mach) (b : Nat) (d : Bank) : Mach := { m with banks := SMap.set (fun _ => {}) m.banks b d }
def Mach.slot (m : Mach) (s : Nat) : Slot := SMap.get (fun _ => {}) m.slots s
def Mach.setSlot (m : Mach) (s : Nat) (d : Slot) : Mach := { m with slots := SMap.set (fun _ => {}) m.slots s d }
def Mach.cell (m : Mach) (c : Nat) : Cell := SMap.get (fun _ => {}) m.cells c
def Mach.setCell (m : Mach) (c : Nat) (d : Cell) : Mach := { m with cells := SMap.set (fun _ => {}) m.cells c d }

/-- Division rounded to nearest, ties away from zero. -/
def roundDiv (n : Int) (d : Nat) : Int := if 0 ≤ n then (2 * n + d) / (2 * d) else -((-2 * n + d) / (2 * d))

/-- The slice that owns a slot (R58, R59). -/
def slotOwner (s : Nat) : Nat :=
  if s % 16 = 12 then 64 + s / 32 else 4 * (s / 16) + s % 16 / 3

/-- The slots a slice owns. -/
def slotsOf (x : Nat) : List Nat :=
  if x < 64 then (List.range 3).map (fun p => 16 * (x / 4) + 3 * (x % 4) + p)
  else [16 * (2 * (x - 64)) + 12, 16 * (2 * (x - 64) + 1) + 12]

/-- Slots and cells of a bank. -/
def bankSlots (b : Nat) : List Nat := (List.range 13).map (fun s => 16 * b + s)
def bankCells (b : Nat) : List Nat := (List.range 14).map (fun c => 16 * b + c)

/-! ### Correction (R64) -/

/-- The corrected value before clipping. -/
def corrected (code ofs : Int) (gain : Nat) : Int := ((code * 16 - ofs) * gain + 16384) / 32768

/-- Clipping to 12.4 format in 16 bits. -/
def clip16 (v : Int) : Int := if 32767 < v then 32767 else if v < -32768 then -32768 else v

/-- Whether a conversion is over-range or clipped. -/
def overRange (code v : Int) : Bool := 32767 < v || v < -32768 || code = -2048 || code = 2047

def Mach.cellOfs (m : Mach) (c : Nat) : Int := signed 16 (m.fld CB_CELL_OFS.OFS c)
def Mach.cellGain (m : Mach) (c : Nat) : Nat := m.fld CB_CELL_GAIN.GAIN c

/-! ### Window and grid (R61, R67) -/

/-- WLEN, 0 treated as 1 (R83). -/
def Mach.wlen (m : Mach) (s : Nat) : Nat := max (m.fld CB_SLOT_FCFG.WLEN s) 1

/-- The carrier lock: M where it is an integer from 1 to 16. -/
def Mach.carrierM (m : Mach) (s : Nat) : Option Nat :=
  let x := slotOwner s
  let p := m.pgP (m.pgOf x) * 64
  let t := m.tc x
  if p % t = 0 ∧ 1 ≤ p / t ∧ p / t ≤ 16 then some (p / t) else none

/-- N, W, M and LOCK_ERR of a slot, for a locked or an unlocked grid. -/
def Mach.gridOf (m : Mach) (s : Nat) (locked : Bool) : Nat × Nat × Nat × Bool :=
  let p := m.pgP (m.pgOf (slotOwner s)) * 64
  if !locked then (0, m.wlen s, 0, false)
  else if m.flg CB_SLOT_FCFG.MODE s then (p / 800, m.wlen s, 0, false)
  else
    match m.carrierM s with
    | some k => (k * (p / (k * 800)), p / (k * 800), k, false)
    | none => (p / 800, m.wlen s, 0, true)

/-- Takes the grid and the filter settings in use and restarts the cascade (R67, R68). DESIGN CHOICE (log entry 118): M = 16, which
its field of 4 bits cannot show, reads 0. -/
def Mach.restartSlot (m : Mach) (s : Nat) : Mach :=
  let (n, w, k, err) := m.gridOf s (m.flg CB_SLOT_STAT.LOCKED s)
  let m := (m.setFld CB_SLOT_GRID.N s n).setFld CB_SLOT_GRID.W s w
  let m := (m.setFld CB_SLOT_STAT.M s k).setFlg CB_SLOT_STAT.LOCK_ERR s err
  let m := m.setFld CB_SLOT_STAT.SETTLED s 0
  m.setSlot s { m.slot s with order := m.fld CB_SLOT_FCFG.ORDER s, stages := [], absorbed := 0, restart := 0 }

/-- A reason to restart (R68): at once on an unlocked grid, else at hold j = 1 after the next sample instant. -/
def Mach.askRestart (m : Mach) (s : Nat) : Mach :=
  if m.flg CB_SLOT_STAT.LOCKED s then m.setSlot s { m.slot s with restart := 1 } else m.restartSlot s

/-- A change of lock (R62, R67): the grid in use is taken over, and the cascade restarts where the window length changes: at once
on a grid that unlocks, at hold j = 1 on one that locks (R68), so that the fence it locks at still has its FLT. -/
def Mach.regrid (m : Mach) (s : Nat) (locked : Bool) : Mach :=
  let m := m.setFlg CB_SLOT_STAT.LOCKED s locked
  let (n, w, k, err) := m.gridOf s locked
  let change := w ≠ m.fld CB_SLOT_GRID.W s ∨ (m.slot s).restart ≠ 0
  if change ∧ ¬ locked then m.restartSlot s
  else
    let m := if change then m.setSlot s { m.slot s with restart := 2 } else m
    ((m.setFld CB_SLOT_GRID.N s n).setFld CB_SLOT_STAT.M s k).setFlg CB_SLOT_STAT.LOCK_ERR s err

/-- The grids of a slice unlock (R62). -/
def Mach.unlockSlots (m : Mach) (x : Nat) : Mach :=
  (slotsOf x).foldl (fun m s => if m.flg CB_SLOT_STAT.LOCKED s then m.regrid s false else m) m

/-- Every filter of a slice restarts (R68). -/
def Mach.restartSlots (m : Mach) (x : Nat) : Mach :=
  (slotsOf x).foldl (fun m s => if m.flg CB_STAT.READY (s / 16) then m.askRestart s else m) m

/-- Instant of hold `j` of period `k` on a locked grid of N holds (R61). -/
def Mach.gridStamp (m : Mach) (s k j : Nat) : Stamp :=
  let g := m.pgOf (slotOwner s)
  let n := if 2 ≤ (m.slot s).restart ∧ j ≠ 0 then (m.gridOf s true).1 else m.fld CB_SLOT_GRID.N s
  m.sampleStamp g k + j * (m.pgP g * 64) / max n 1

/-- The first sample instant to lock on (R62): that of the group's and the slice's first period not before `t`. -/
def Mach.lockTarget (m : Mach) (s t : Nat) : Option (Nat × Stamp) :=
  let x := slotOwner s
  let g := m.pgOf x
  if m.en x && m.pgOn g then
    let from_ := max ((m.slice x).from_) ((t + 63 - m.fld TB_PG_SF.SV g) / 64)
    let k := max (m.group g).k0 (leastIndex (m.startTick g 0 + m.pgSF g) (m.pgP g) from_)
    some (k, m.sampleStamp g k)
  else none

/-- The next hold of the cell that serves slot `s`: instant, period, hold number, and whether the grid locks there. -/
def Mach.slotNext (m : Mach) (s : Nat) : Stamp × Nat × Nat × Bool :=
  let d := m.slot s
  if m.flg CB_SLOT_STAT.LOCKED s then (m.gridStamp s d.k d.j, d.k, d.j, false)
  else
    let t := (m.cell (s / 16 * 16 + m.fld CB_SLOT_STAT.CELL s)).next
    match m.lockTarget s t with
    | some (k, st) => if t ≤ st ∧ st < t + 800 then (st, k, 0, true) else (t, 0, 0, false)
    | none => (t, 0, 0, false)

/-! ### The window filter (R65) -/

/-- One stage absorbs a value: its last W values, and their average. -/
def stagePush (w : Nat) (vs : List Int) (v : Int) : List Int × Int :=
  let vs := (v :: vs).take w
  (vs, roundDiv (vs.foldl (· + ·) 0) vs.length)

/-- The cascade absorbs a conversion. -/
def cascadePush (w : Nat) : Nat → List (List Int) → Int → List (List Int)
  | 0, _, _ => []
  | n + 1, st, v =>
    let (vs, o) := stagePush w (st.headD []) v
    vs :: cascadePush w n st.tail o

/-- Output of the last stage; a cascade that has absorbed nothing has none (`slotDone`). -/
def cascadeOut (st : List (List Int)) : Int :=
  match st.getLast? with
  | some vs => if vs = [] then 0 else roundDiv (vs.foldl (· + ·) 0) vs.length
  | none => 0

/-- The slot absorbs a corrected conversion (R65, R68). -/
def Mach.absorb (m : Mach) (s : Nat) (v : Int) : Mach :=
  let d := m.slot s
  let w := m.fld CB_SLOT_GRID.W s
  let d := { d with stages := cascadePush w d.order d.stages v, absorbed := d.absorbed + 1 }
  (m.setSlot s d).raiseIf (d.order * w ≤ d.absorbed) CB_SLOT_STAT.SETTLED s

/-! ### Injected conversions (R70 to R73, R80) -/

/-- PEND shows the requests pending. -/
def Mach.setReqs (m : Mach) (b : Nat) (rs : List Inj) : Mach :=
  (m.setBank b { m.bank b with reqs := rs }).setFld CB_INJ_STAT.PEND b rs.length

/-- A store injection of channel slice `x` ended without DONE (R186). -/
def Mach.storeFails (m : Mach) (x : Nat) : Mach :=
  (m.raise CV_BRK_STAT.STFAIL x).setSlice x { m.slice x with stBad := (m.slice x).stBad + 1 }

/-- The result of an injected conversion (R73): CB_INJ_RES, and the entry to INJ_Q. -/
def Mach.injResult (m : Mach) (b : Nat) (r : Inj) (st : Nat) (stamp : Stamp) (cell : Nat) (v : Int) : Mach :=
  let code := unsigned 16 v
  let m := (m.raise CB_INJ_RES.VALID b).setFld CB_INJ_RES.ST b st
  let m := ((m.setFld CB_INJ_RES.SRC b r.src).setFld CB_INJ_RES.TAG b r.tag).setFld CB_INJ_RES.CODE b code
  let m := if r.use = 1 && st ≠ 0 then m.storeFails (64 + b / 2) else m
  let m := m.tell 9 b ((m.rg (CB_INJ_RES.ST.addr b)).toNat + 2 ^ 32 * r.use + 2 ^ 48 * cell) stamp
  m.postIf (m.flg CB_CTRL.INJ_QEN b) (m.fld CB_CTRL.INJ_Q b)
    (bytesOfNat 8 stamp ++ bytesOfNat 2 code ++ bytesOfNat 1 r.tag ++ bytesOfNat 1 (r.src * 16 + st) ++ bytesOfNat 1 b
      ++ bytesOfNat 1 cell ++ bytesOfNat 1 (if r.src = 4 then r.cmp else 0)) (some (CB_STAT.INJ_DROP, b))

/-- Every pending request ends NO_SPARE with no conversion (R79, R84). -/
def Mach.endReqs (m : Mach) (b : Nat) : Mach :=
  let rs := (m.bank b).reqs
  rs.foldl (fun m r => m.injResult b r 3 0 15 0) (m.setReqs b [])

/-- The cell with the spare role, if any. -/
def Mach.spare (m : Mach) (b : Nat) : Option Nat :=
  let c := m.fld CB_CAL_STAT.SPARE b
  if c < 14 then some c else none

/-- Whether a request can be taken: the bank is READY and a cell holds the spare role (R71, R79). -/
def Mach.spareReady (m : Mach) (b : Nat) : Bool :=
  m.flg CB_CTRL.EN b && m.flg CB_STAT.READY b && (m.spare b).isSome

/-- The sample instant a timed request of group `g` takes (R72): the first at least 14 tk from now. DESIGN CHOICE (log entry 118):
the request keeps it when the group stops before. -/
def Mach.timedDue (m : Mach) (g : Nat) : Stamp :=
  let t := (m.now + 14 * 64 + 63 - m.fld TB_PG_SF.SV g) / 64
  m.sampleStamp g (max (m.group g).k0 (leastIndex (m.startTick g 0 + m.pgSF g) (m.pgP g) t))

/-- A request reaches the bank: it is queued, or completes at once with a refusal (R71). No spare is looked at first, as
R79 and R84 give it for every request; then the causes in the order of the table. -/
def Mach.injAsk (m : Mach) (b : Nat) (timed : Bool) (pg : Nat) (r : Inj) : Mach :=
  let m := m.raiseIf (7 < r.src) CB_STAT.RSVW b
  if !m.spareReady b then m.injResult b r 3 0 15 0
  else if 7 < r.src || (r.src = 4 && r.cmp / 16 ≠ b) then m.injResult b r 1 0 15 0
  else if 4 ≤ (m.bank b).reqs.length then m.injResult b r 2 0 15 0
  else if timed && (r.use = 0 || 16 ≤ r.use) && !m.flg TB_PG_STAT.RUN pg then m.injResult b r 4 0 15 0
  else m.setReqs b ((m.bank b).reqs ++
    [{ r with arrive := m.now, due := if timed then some (m.timedDue pg) else none, held := none }])

/-- A write of CB_INJ_REQ. -/
def Mach.injReqWrite (m : Mach) (b : Nat) (v : W32) : Mach :=
  if CB_INJ_REQ.GO.of v = 0 then m
  else m.injAsk b (CB_INJ_REQ.TIMED.of v ≠ 0) (CB_INJ_REQ.PG.of v)
    { src := CB_INJ_REQ.SRC.of v, cmp := CB_INJ_REQ.CMP.of v, tag := CB_INJ_REQ.TAG.of v }

/-- Whether request `r` may take a hold at `t`: a timed one from its sample instant on, an immediate one 4 ns after it
reached the bank (R72). -/
def injFits (r : Inj) (t : Stamp) : Bool :=
  r.held.isNone && (match r.due with
    | some d => d ≤ t
    | none => r.arrive + 64 ≤ t)

/-- The request that takes a hold at `t`: timed before immediate, then in arrival order. -/
def injPick (rs : List Inj) (t : Stamp) : Option Nat :=
  match rs.findIdx? (fun r => r.due.isSome && injFits r t) with
  | some i => some i
  | none => rs.findIdx? (fun r => r.due.isNone && injFits r t)

/-- The earliest sample instant a timed request waits for from `t` on, before the hold after it (R72). -/
def injStretch (rs : List Inj) (t : Stamp) : Stamp :=
  rs.foldl (fun a r => match r.due with
    | some d => if r.held.isNone ∧ t ≤ d ∧ d < t + 800 then (if a = t then d else min a d) else a
    | none => a) t

/-- The spare's latest hold for an injection is at `t` (R77). -/
def Mach.noteInj (m : Mach) (b : Nat) (t : Stamp) : Mach := m.setBank b { m.bank b with injAt := some t }

/-- Request `i` is held by cell `c` at `t`, with the coefficients the cell holds (R73). -/
def Mach.holdInj (m : Mach) (b i c : Nat) (t : Stamp) : Mach :=
  let rs := (m.bank b).reqs
  match rs[i]? with
  | none => m
  | some r => (m.setReqs b (rs.set i { r with
      held := some (t, c), ofs := m.cellOfs (16 * b + c), gain := m.cellGain (16 * b + c) })).noteInj b t

/-! ### Rotation steps (R76 to R82) -/

/-- Sets a cell's role and slot. -/
def Mach.setRole (m : Mach) (c role slot : Nat) : Mach :=
  (m.setFld CB_CELL_ROLE.ROLE c role).setFld CB_CELL_ROLE.SLOT c slot

/-- Sets the spare; no spare shows NO_SPARE and ends every pending request (R79). -/
def Mach.setSpare (m : Mach) (b : Nat) (c : Option Nat) : Mach :=
  match c with
  | some c => ((m.setFld CB_CAL_STAT.SPARE b c).setFld CB_STAT.NO_SPARE b 0).setRole (16 * b + c) 1 15
  | none =>
    let m := (m.setFld CB_CAL_STAT.SPARE b 15).raise CB_STAT.NO_SPARE b
    (m.setBank b { m.bank b with left := 0 }).endReqs b

/-- A cell is marked bad. -/
def Mach.markBad (m : Mach) (b c : Nat) : Mach :=
  (m.setFld CB_CAL_STAT.BAD b (m.fld CB_CAL_STAT.BAD b ||| 2 ^ c)).setRole (16 * b + c) 3 15

/-- Phase 2 begins: X joins slot s's grid at the first slot hold at least 4 ns from now (R76). -/
def Mach.overlapStart (m : Mach) (b : Nat) : Mach :=
  let m := m.setFld CB_CAL_STAT.PHASE b 2
  let m := m.setBank b { m.bank b with
    bound := false, pairs := 0, sum := 0, skip := 0, xPair := none, from_ := m.now + 64 }
  match m.spare b with
  | some c => m.setRole (16 * b + c) 2 (m.fld CB_CAL_STAT.SLOT b)
  | none => m

/-- A step starts on slot NEXT (R76): phase 1 while the spare's conversion in progress and the injection bound to its next
hold are to finish. -/
def Mach.stepStart (m : Mach) (b : Nat) : Mach :=
  let s := m.fld CB_CAL_STAT.NEXT b
  let m := (m.setFld CB_CAL_STAT.SLOT b s).setFld CB_CAL_STAT.NEXT b (if s = 12 then 0 else s + 1)
  let m := (m.raise CB_STAT.CAL_BUSY b).setFld CB_CAL_STAT.PHASE b 1
  let d := m.bank b
  match m.spare b with
  | none => m
  | some c =>
    let cl := m.cell (16 * b + c)
    let bound := (injPick d.reqs (injStretch d.reqs cl.next)).isSome
    let m := m.setBank b { d with second := false, yBad := false, gapFrom := none, bound := bound }
    if cl.hold.isNone && !bound && d.reqs.all (fun r => r.held.isNone) then m.overlapStart b else m

/-- Whether a step can start: READY, a spare, and none in progress. -/
def Mach.canStep (m : Mach) (b : Nat) : Bool :=
  m.spareReady b && m.fld CB_CAL_STAT.PHASE b = 0

/-- Starts the next of the steps asked for, or of AUTO, if there is no pause to wait for. -/
def Mach.stepNext (m : Mach) (b : Nat) : Mach :=
  let d := m.bank b
  if !m.canStep b then m
  else if 0 < d.left then (m.setBank b { d with left := d.left - 1 }).stepStart b
  else if m.flg CB_CAL_CTRL.AUTO b then m.stepStart b else m

/-- The step ends (R76, R82): the pause GAP begins. -/
def Mach.stepEnd (m : Mach) (b : Nat) : Mach :=
  let m := ((m.setFld CB_CAL_STAT.SLOT b 15).setFld CB_CAL_STAT.PHASE b 0).setFld CB_STAT.CAL_BUSY b 0
  let m := m.countSat CB_CAL_CNT.STEPS b
  let m := m.setBank b { m.bank b with gapFrom := some m.now }
  if m.fld CB_CAL_CTRL.GAP b = 0 then m.stepNext b else m

/-- A write of CB_CAL_CMD (R83): one step, 13 steps, or a stop. The first step of a command starts at once when none is in
progress. DESIGN CHOICE (log entry 118): 0b011 clears AUTO also where no cell is the spare. -/
def Mach.calCmdWrite (m : Mach) (b : Nat) (cmd : Nat) : Mach :=
  let run (n : Nat) : Mach :=
    if !m.spareReady b then m
    else (m.setBank b { m.bank b with left := (m.bank b).left + n }).stepNext b
  match cmd with
  | 0 => m
  | 1 => run 1
  | 2 => run 13
  | 3 => (m.setFld CB_CAL_CTRL.AUTO b 0).setBank b { m.bank b with left := 0 }
  | _ => m.raise CB_STAT.RSVW b

/-- A write of CB_CAL_CTRL (R83): AUTO set with no step or pause under way starts a step. -/
def Mach.calCtrlWrite (m : Mach) (b : Nat) (v : W32) : Mach :=
  let m := (m.setFld CB_CAL_CTRL.AUTO b (CB_CAL_CTRL.AUTO.of v)).setFld CB_CAL_CTRL.GAP b (CB_CAL_CTRL.GAP.of v)
  let m := (m.setFld CB_CAL_CTRL.MATCH b (CB_CAL_CTRL.MATCH.of v)).raiseIf (CB_CAL_CTRL.MATCH.of v = 0) CB_STAT.RSVW b
  if m.flg CB_CAL_CTRL.AUTO b && (m.bank b).gapFrom.isNone then m.stepNext b else m

/-- MATCH, 0 treated as 0x20. -/
def Mach.calMatch (m : Mach) (b : Nat) : Nat :=
  let v := m.fld CB_CAL_CTRL.MATCH b
  if v = 0 then 32 else v

/-- The handover (R77): X serves the slot; Y is freed and calibrates from its next hold, or, judged bad, ends the step with
no spare (R78). -/
def Mach.handover (m : Mach) (b : Nat) : Mach :=
  let s := m.fld CB_CAL_STAT.SLOT b
  let y := m.fld CB_SLOT_STAT.CELL (16 * b + s)
  match m.spare b with
  | none => m
  | some x =>
    let m := (m.setFld CB_SLOT_STAT.CELL (16 * b + s) x).setRole (16 * b + x) 0 s
    if (m.bank b).yBad then ((m.markBad b y).setSpare b none).stepEnd b
    else
      let m := ((m.setFld CB_CAL_STAT.SPARE b y).setRole (16 * b + y) 2 15).setFld CB_CAL_STAT.PHASE b 5
      m.setBank b { m.bank b with calFrom := (m.cell (16 * b + y)).next, calLen := 816 }

/-- Whether the hold (instant `t`, number `j`) that cell Y of slot `s` is about to make is the handover hold (R77): no sample
instant, so not the hold at which the grid locks, and on a locked grid no injection is bound to it or to the hold before. -/
def Mach.handoverDue (m : Mach) (b s j : Nat) (t : Stamp) (lock : Bool) : Bool :=
  let d := m.bank b
  let i := 16 * b + s
  m.fld CB_CAL_STAT.PHASE b = 3 && m.fld CB_CAL_STAT.SLOT b = s && d.from_ ≤ t && !lock &&
    (if m.flg CB_SLOT_STAT.LOCKED i then
       j = 1 && d.from_ ≤ m.sampleStamp (m.pgOf (slotOwner i)) (m.slot i).k && d.injAt ≠ some (m.slot i).last &&
         (injPick d.reqs t).isNone
     else true)

/-! ### Holds (R61, R62, R72, R77) -/

/-- The cell serving a slot holds: the grid moves on, a restart that waits comes nearer or happens, and the conversion is
under way. -/
def Mach.slotHold (m : Mach) (b s c : Nat) : Mach :=
  let i := 16 * b + s
  let (t, k, j, lock) := m.slotNext i
  let m := if lock then m.regrid i true else m
  let m := if (m.slot i).restart = 2 ∧ j = 1 then m.restartSlot i else m
  let n := m.fld CB_SLOT_GRID.N i
  let d := m.slot i
  let d := { d with last := t, restart := if d.restart = 1 ∧ j = 0 ∧ m.flg CB_SLOT_STAT.LOCKED i then 2 else d.restart }
  let d := if m.flg CB_SLOT_STAT.LOCKED i then
      (if j + 1 < n then { d with k := k, j := j + 1 } else { d with k := k + 1, j := 0 }) else d
  let m := (m.setSlot i d).until t
  m.setCell (16 * b + c) { next := t + 800, hold := some {
    stamp := t, slot := some s, first := m.flg CB_SLOT_STAT.LOCKED i && j = 0,
    pair := m.fld CB_CAL_STAT.PHASE b = 2 && m.fld CB_CAL_STAT.SLOT b = s } }

/-- X holds on the grid of slot `s` during an overlap: an injection takes its hold, so that it makes no pair, and the next is not
compared (R80). -/
def Mach.overlapHold (m : Mach) (b s x : Nat) : Mach :=
  let d := m.bank b
  let cl := m.cell (16 * b + x)
  let last := (m.slot (16 * b + s)).last
  let t := if cl.next ≤ last then last else (m.slotNext (16 * b + s)).1
  if t < d.from_ ∨ t < cl.next then m
  else
    let m := m.until t
    match injPick d.reqs t with
    | some i =>
      let m := m.holdInj b i x t
      (m.setBank b { m.bank b with skip := 1 }).setCell (16 * b + x) { next := t + 800, hold := some { stamp := t } }
    | none => m.setCell (16 * b + x) { next := t + 800, hold := some { stamp := t, slot := none, pair := true } }

/-- The spare holds on its free grid (R72, R76); in phase 1 only the injection bound when the step began. -/
def Mach.spareHold (m : Mach) (b c : Nat) : Mach :=
  let d := m.bank b
  let cl := m.cell (16 * b + c)
  let t := if m.fld CB_CAL_STAT.PHASE b = 0 ∨ d.bound then injStretch d.reqs cl.next else cl.next
  let m := (m.until t).setCell (16 * b + c) { next := t + 800, hold := some { stamp := t } }
  if m.fld CB_CAL_STAT.PHASE b = 0 ∨ d.bound then
    match injPick d.reqs t with
    | some i => (m.setBank b { m.bank b with bound := false }).holdInj b i c t
    | none => m.setBank b { m.bank b with bound := false }
  else m

/-- The hold, counted from `t0` in steps of 800 vn, that request `r` wants of a calibrating cell: an immediate one the first 4 ns
after it arrived, a timed one the hold whose track time is lengthened up to its sample instant (R72). -/
def Inj.step (r : Inj) (t0 : Stamp) : Nat :=
  match r.due with
  | some x => (x - t0) / 800
  | none => (r.arrive + 64 - t0 + 799) / 800

/-- A hold of the calibrating spare: only for an injection, which extends the calibration by 5 conversions (R80) and by the track
time it lengthens (R72). -/
def Mach.calHold (m : Mach) (b c : Nat) : Mach :=
  let d := m.bank b
  let from_ := (m.cell (16 * b + c)).next
  match ((d.reqs.filter (fun r => r.held.isNone)).map (fun r => r.step from_)).min? with
  | none => m
  | some n =>
    let g := from_ + n * 800
    let t := injStretch d.reqs g
    match injPick d.reqs t with
    | none => m
    | some i =>
      let m := ((m.until t).setCell (16 * b + c) { next := t + 800, hold := some { stamp := t } }).holdInj b i c t
      m.setBank b { m.bank b with calFrom := (m.bank b).calFrom + (t - g), calLen := (m.bank b).calLen + 5 }

/-- The next hold of cell `c` of bank `b` (R61): the cell that serves a slot holds on its grid, or hands over; the spare on
its free grid or in an overlap. A cell that has a conversion under way, and a bad one, hold nothing. -/
def Mach.cellHold (m : Mach) (b c : Nat) : Mach :=
  let role := m.fld CB_CELL_ROLE.ROLE (16 * b + c)
  let s := m.fld CB_CELL_ROLE.SLOT (16 * b + c)
  let ph := m.fld CB_CAL_STAT.PHASE b
  if !m.flg CB_STAT.READY b ∨ (m.cell (16 * b + c)).hold.isSome then m
  else if role = 0 then
    let (t, _, j, lock) := m.slotNext (16 * b + s)
    if m.handoverDue b s j t lock then
      match m.spare b with
      | none => m
      | some x =>
        let m := m.handover b
        m.slotHold b s x
    else m.slotHold b s c
  else if role = 1 then m.spareHold b c
  else if role = 2 then
    if (ph = 2 ∨ ph = 3) ∧ m.spare b = some c then m.overlapHold b s c else m.calHold b c
  else m

/-! ### Completions (R60, R63 to R65, R73, R76) -/

/-- A pair of an overlap is compared once both results of one hold are in (R76). -/
def Mach.pairUp (m : Mach) (b s : Nat) : Mach :=
  let d := m.bank b
  match d.xPair, (m.slot (16 * b + s)).pair with
  | some (tx, x), some (ty, y) =>
    if tx = ty ∧ d.pairs < 64 then
      if 0 < d.skip then m.setBank b { d with xPair := none, skip := d.skip - 1 }
      else m.setBank b { d with xPair := none, pairs := d.pairs + 1, sum := d.sum + (x - y) }
    else m
  | _, _ => m

/-- FLT of the fence whose raw result is `v` (R65): with the filter off that result; of a cascade that has absorbed nothing since its
restart the spec states none, and it is a free value (log entry 118). -/
def Mach.filtered (m : Mach) (i : Nat) (v : Int) : Int × Mach :=
  if (m.slot i).order = 0 then (v, m)
  else if (m.slot i).absorbed = 0 then (let (f, m) := m.draw; (f, m))
  else (cascadeOut (m.slot i).stages, m)

/-- A slot's conversion completes: corrected, delivered if held at the sample instant, absorbed (R63 to R65). -/
def Mach.slotDone (m : Mach) (b s c : Nat) (h : Hold) (code : Int) : Mach :=
  let i := 16 * b + s
  let raw := corrected code (m.cellOfs (16 * b + c)) (m.cellGain (16 * b + c))
  let v := clip16 raw
  let m := m.raiseIf (overRange code raw) CB_SLOT_STAT.OVR i
  let m := m.setFld CB_SLOT_LIVE.CODE i (unsigned 16 v)
  let m := if h.first then
      let (f, m) := m.filtered i v
      (m.setFld CB_SLOT_RES.RAW i (unsigned 16 v)).setFld CB_SLOT_RES.FLT i (unsigned 16 f)
    else m
  let m := m.absorb i v
  if h.pair then (m.setSlot i { m.slot i with pair := some (h.stamp, v) }).pairUp b s else m

/-- After a conversion of the spare in phase 1: the overlap begins once nothing bound is left. -/
def Mach.phase1Done (m : Mach) (b : Nat) : Mach :=
  if m.fld CB_CAL_STAT.PHASE b = 1 ∧ ¬ (m.bank b).bound ∧ (m.bank b).reqs.all (fun r => r.held.isNone) then m.overlapStart b
  else m

/-- Bit-cycling of cell `c` ends with `code` (R60). A hold that an injection took completes as INJECTED_CONVERSION_DONE. -/
def Mach.conversionDone (m : Mach) (b c : Nat) (code : Int) : Mach :=
  match (m.cell (16 * b + c)).hold with
  | none => m
  | some h =>
    if (m.bank b).reqs.any (fun r => r.held = some (h.stamp, c)) then m
    else
      let m := m.setCell (16 * b + c) { m.cell (16 * b + c) with hold := none }
      match h.slot with
      | some s => m.slotDone b s c h code
      | none =>
        if h.pair then
          let s := m.fld CB_CAL_STAT.SLOT b
          let v := clip16 (corrected code (m.cellOfs (16 * b + c)) (m.cellGain (16 * b + c)))
          (m.setBank b { m.bank b with xPair := some (h.stamp, v) }).pairUp b s
        else m.phase1Done b

/-- The injected conversion held first completes at `t` (R73). -/
def Mach.injectedDone (m : Mach) (b : Nat) (t : Stamp) (code : Int) : Mach :=
  let d := m.bank b
  match d.reqs.findIdx? (fun r => r.held.isSome) with
  | none => m
  | some i =>
    match d.reqs[i]? with
    | none => m
    | some r =>
      match r.held with
      | none => m
      | some (stamp, c) =>
        let m := (m.until (max t stamp)).setReqs b (d.reqs.eraseIdx i)
        let m := m.setCell (16 * b + c) { m.cell (16 * b + c) with hold := none }
        let m := m.injResult b r 0 stamp c (clip16 (corrected code r.ofs r.gain))
        m.phase1Done b

/-- After 64 compared pairs the mean difference is judged (R76, R78). -/
def Mach.overlapEnd (m : Mach) (b : Nat) : Mach :=
  let d := m.bank b
  if m.fld CB_CAL_STAT.PHASE b ≠ 2 ∨ d.pairs < 64 then m
  else if d.sum.natAbs ≤ m.calMatch b * 64 then
    (m.setFld CB_CAL_STAT.PHASE b 3).setBank b { d with from_ := m.now }
  else
    let m := (m.raise CB_STAT.MATCH_FAIL b).countSat CB_CAL_CNT.FAIL b
    if d.second then (m.setFld CB_CAL_STAT.PHASE b 3).setBank b { d with from_ := m.now, yBad := true }
    else
      let m := m.setFld CB_CAL_STAT.PHASE b 4
      match m.spare b with
      | none => m
      | some x => (m.setRole (16 * b + x) 2 15).setBank b { d with
          second := true, calFrom := (m.cell (16 * b + x)).next, calLen := 816 }

/-! ### Calibration (R74, R75) -/

/-- The coefficients a calibration sets, and whether the cell passes. Where p = n, or the quotient does not fit the 16 bits of GAIN,
the spec states no value: GAIN is a free value, and the cell fails (log entry 118). -/
def Mach.calibrate (m : Mach) (c : Nat) (z p n : Int) : Bool × Mach :=
  let m := m.setFld CB_CELL_OFS.OFS c (unsigned 16 z)
  let q := p - n
  let g := roundDiv (57344 * 32768) q.toNat
  let (gain, m) : Int × Mach :=
    if 0 < q ∧ g < 65536 then (g, m) else (let (f, m) := m.draw; ((f : Int), m))
  let m := m.setFld CB_CELL_GAIN.GAIN c (unsigned 16 gain)
  (z.natAbs ≤ 1024 && decide (n < p) && decide (31457 ≤ g) && decide (g ≤ 34079), m)

/-- A cell's calibration ends (R74): at start-up, of X after a mismatch (phase 4), or of the freed cell (phase 5). DESIGN CHOICE
(log entry 118): a spare that fails in phase 4 is marked bad and ends the step with no spare, Y keeping the slot. -/
def Mach.calDone (m : Mach) (b c : Nat) (z p n : Int) : Mach :=
  let d := m.bank b
  let ph := m.fld CB_CAL_STAT.PHASE b
  if m.flg CB_CTRL.EN b ∧ ¬ m.flg CB_STAT.READY b then
    if c ∈ d.done then m
    else
      let (ok, m) := m.calibrate (16 * b + c) z p n
      let m := if ok then m else m.setFld CB_CAL_STAT.BAD b (m.fld CB_CAL_STAT.BAD b ||| 2 ^ c)
      m.setBank b { d with done := d.done ++ [c] }
  else if m.flg CB_STAT.READY b ∧ (ph = 4 ∨ ph = 5) ∧ m.spare b = some c ∧ d.reqs.all (fun r => r.held.isNone) then
    let last := d.calFrom + (d.calLen - 1) * 800
    let m := m.until last
    let (ok, m) := m.calibrate (16 * b + c) z p n
    let m := m.setCell (16 * b + c) { m.cell (16 * b + c) with next := last + 800, hold := none }
    if !ok then ((m.markBad b c).setSpare b none).stepEnd b
    else if ph = 4 then m.overlapStart b
    else (m.setSpare b (some c)).stepEnd b
  else m

/-- Start-up calibration has ended (R75): the good cells with the lowest numbers take the slots, the one left becomes the
spare. Bits 10c + 9 to 10c of `phase` give the phase of cell c's free grid (R62). -/
def Mach.bankReady (m : Mach) (b : Nat) (phase : Nat) : Mach :=
  let d := m.bank b
  if m.flg CB_STAT.READY b ∨ ¬ m.flg CB_CTRL.EN b ∨ d.done.length < 14 then m
  else
    let good := (List.range 14).filter (fun c => !bitOf (m.fld CB_CAL_STAT.BAD b) c)
    let bad := (List.range 14).filter (fun c => bitOf (m.fld CB_CAL_STAT.BAD b) c)
    let m := bad.foldl (fun m c => m.markBad b c) m
    if good.length < 13 then m.setFld CB_STAT.CFG_ERR b 3
    else
      let m := (List.range 14).foldl (fun m c =>
        m.setCell (16 * b + c) { next := m.now + bitsOf phase (10 * c + 9) (10 * c) % 800, hold := none }) m
      let m := (List.range 13).foldl (fun m s =>
        let c := good.getD s 0
        let m := (m.setFld CB_SLOT_STAT.CELL (16 * b + s) c).setRole (16 * b + c) 0 s
        (m.setSlot (16 * b + s) {}).restartSlot (16 * b + s)) m
      let m := m.setSpare b good[13]?
      let m := m.raise CB_STAT.READY b
      if m.flg CB_CAL_CTRL.AUTO b then m.stepNext b else m

/-- Whether a slice is enabled or still runs. -/
def Mach.liveSlice (m : Mach) (x : Nat) : Bool := m.en x || m.flg AX_STATE.RUN x

/-- The bank is disabled (R84): READY clears, pending injections end NO_SPARE, a rotation step ends, the roles read as before
READY. -/
def Mach.bankOff (m : Mach) (b : Nat) : Mach :=
  let m := ((m.setFld CB_CTRL.EN b 0).setFld CB_STAT.READY b 0).setFld CB_STAT.CFG_ERR b 0
  let m := m.endReqs b
  let m := (m.setFld CB_STAT.NO_SPARE b 0).setFld CB_STAT.CAL_BUSY b 0
  let m := ((m.setFld CB_CAL_STAT.SLOT b 15).setFld CB_CAL_STAT.PHASE b 0).setFld CB_CAL_STAT.SPARE b 15
  let m := (bankSlots b).foldl (fun m s =>
    let m := if m.flg CB_SLOT_STAT.LOCKED s then m.regrid s false else m
    m.setFld CB_SLOT_STAT.CELL s (s % 16)) m
  let m := (bankCells b).foldl (fun m c =>
    let m := m.setCell c {}
    if bitOf (m.fld CB_CAL_STAT.BAD b) (c % 16) then m
    else if c % 16 = 13 then m.setRole c 1 15 else m.setRole c 0 (c % 16)) m
  m.setBank b {}

/-- A write of CB_CTRL (R75, R84). DESIGN CHOICE (log entry 118): a slice whose disable has not taken effect keeps its banks from a
disable too, a refused write still sets INJ_QEN and INJ_Q, and one that leaves EN as it is keeps CFG_ERR. -/
def Mach.bankCtrlWrite (m : Mach) (b : Nat) (v : W32) : Mach :=
  let m := (m.setFld CB_CTRL.INJ_QEN b (CB_CTRL.INJ_QEN.of v)).setFld CB_CTRL.INJ_Q b (CB_CTRL.INJ_Q.of v)
  let on := CB_CTRL.EN.of v ≠ 0
  if m.flg CB_CTRL.EN b then
    if on then m
    else if (bankSlots b).any (fun s => m.liveSlice (slotOwner s)) then m.setFld CB_STAT.CFG_ERR b 1
    else m.bankOff b
  else if on then
    if !m.pdOn (18 + b) then m.setFld CB_STAT.CFG_ERR b 2
    else ((m.raise CB_CTRL.EN b).setFld CB_STAT.CFG_ERR b 0).setBank b {}
  else m

/-- The pause after a step ends (R82): the next step starts, under AUTO or while steps are left. -/
def Mach.gapEnd (m : Mach) (b : Nat) : Mach :=
  match (m.bank b).gapFrom with
  | none => m
  | some t =>
    if m.canStep b && (m.flg CB_CAL_CTRL.AUTO b || 0 < (m.bank b).left) then
      (m.until (t + m.fld CB_CAL_CTRL.GAP b * 1600000)).stepNext b
    else m

/-- A write of CB_SLOT_FCFG (R68). -/
def Mach.slotFcfgWrite (m : Mach) (s : Nat) (v : W32) : Mach :=
  let m := [CB_SLOT_FCFG.MODE, CB_SLOT_FCFG.ORDER, CB_SLOT_FCFG.WLEN].foldl (fun m f => m.setFld f s (f.of v)) m
  (m.raiseIf (CB_SLOT_FCFG.WLEN.of v = 0) CB_STAT.RSVW (s / 16)).askRestart s

end Sys2Proof.Machine
end

