-- ==== Sys2Proof/Machine/Numbers.lean ====
section
/-! DEFINITION. Block-floating numbers (R127 to R131): exact dyadic values, the accumulator, block rounding, 40-bit states,
the reciprocal and square-root unit, sine and cosine, and the PI rule. -/

namespace Sys2Proof.Machine

/-- An exact value m × 2^e. -/
structure Dy where
  m : Int := 0
  e : Int := 0
  deriving DecidableEq, Repr

/-- m × 2^k for any integer k, rounded down. -/
def shiftI (m k : Int) : Int := if 0 ≤ k then m * 2 ^ k.toNat else m / 2 ^ (-k).toNat

/-- m × 2^k rounded to nearest, ties away from zero. -/
def shiftRound (m k : Int) : Int := if 0 ≤ k then m * 2 ^ k.toNat else roundDiv m (2 ^ (-k).toNat)

/-- The sign of an integer. -/
def sgn (i : Int) : Int := if 0 < i then 1 else if i < 0 then -1 else 0

def Dy.neg (a : Dy) : Dy := { a with m := -a.m }
def Dy.add (a b : Dy) : Dy :=
  let e := min a.e b.e
  { m := shiftI a.m (a.e - e) + shiftI b.m (b.e - e), e := e }
def Dy.sub (a b : Dy) : Dy := a.add b.neg
def Dy.mul (a b : Dy) : Dy := { m := a.m * b.m, e := a.e + b.e }
def Dy.le (a b : Dy) : Bool := (a.sub b).m ≤ 0
def Dy.lt (a b : Dy) : Bool := (a.sub b).m < 0
def Dy.abs (a : Dy) : Dy := { a with m := a.m.natAbs }

/-- `v` held within ±`lim`. -/
def Dy.clip (v lim : Dy) : Dy := if lim.lt v then lim else if v.lt lim.neg then lim.neg else v

/-- `v` held within [`lo`, `hi`]. -/
def Dy.clamp (v lo hi : Dy) : Dy := if hi.lt v then hi else if v.lt lo then lo else v

def Num.dy (a : Num) : Dy := { m := a.m, e := a.e - 19 }
def Num.neg (a : Num) : Num := { a with m := -a.m }
def Num.abs (a : Num) : Num := { a with m := a.m.natAbs }
def St40.dy (a : St40) : Dy := { m := a.m, e := a.e - 39 }

/-- A coefficient word (R127). -/
def numOfWord (w : W32) : Num := { m := signed 20 (bitsOf w.toNat 19 0), e := signed 5 (bitsOf w.toNat 28 24) }
def wordOfNum (a : Num) : W32 := BitVec.ofNat 32 (unsigned 20 a.m + unsigned 5 a.e * 2 ^ 24)

/-! ### The accumulator (R129) -/

/-- A term M × 2^(E − 38): a product of two mantissas, with the sum of their exponents. -/
abbrev Term := Int × Int

def Num.term (a : Num) : Term := (a.m * 2 ^ 19, a.e)

/-- A 20-bit value with the bits of a product below its mantissa, so that it enters a sum as a term of its own exponent. -/
def Num.wide (a : Num) : Dy := { m := a.m * 2 ^ 19, e := a.e - 38 }
def mulT (a b : Num) : Term := (a.m * b.m, a.e + b.e)
def St40.term (a : St40) : Term := (a.m, a.e - 1)
def Dy.term (a : Dy) : Term := (a.m, a.e + 38)
def negT (t : Term) : Term := (-t.1, t.2)

/-- The sum of terms aligned to the largest exponent among them; bits shifted out are dropped. -/
def accum (ts : List Term) : Dy :=
  match ts with
  | [] => {}
  | t :: rest =>
    let e := rest.foldl (fun e u => max e u.2) t.2
    { m := ts.foldl (fun s u => s + shiftI u.1 (u.2 - e)) 0, e := e - 38 }

/-! ### Blocks (R128, R130, R131) -/

/-- The mantissa of `v` at exponent `e`. -/
def Dy.mant (v : Dy) (e : Int) : Int := shiftRound v.m (v.e - e + 19)

/-- Whether every value fits a mantissa at exponent `e`. -/
def blockFits (vs : List Dy) (e : Int) : Bool := vs.all (fun v => (v.mant e).natAbs ≤ 524287)

/-- The smallest exponent from −16 up to EMAX at which the block fits; EMAX if none. -/
def blockExp (emax : Int) (vs : List Dy) : Int :=
  match (List.range (emax + 17).toNat).find? (fun (i : Nat) => blockFits vs ((i : Int) - 16)) with
  | some i => (i : Int) - 16
  | none => emax

/-- The block of a stage: its values, and whether one did not fit (OVF). -/
def block (emax : Int) (vs : List Dy) : List Num × Bool :=
  let e := blockExp emax vs
  (vs.map (fun v =>
    let k := v.mant e
    { m := if 524287 < k then 524287 else if k < -524287 then -524287 else k, e := e }), !blockFits vs e)

/-- A block of one value. -/
def round1 (emax : Int) (v : Dy) : Num × Bool :=
  let (l, o) := block emax [v]
  (l.headD {}, o)

/-- A 40-bit state (R131): held at exponent `e0`, or at the larger one it needs up to EMAX; else clamped, with OVF. -/
def state40 (emax e0 : Int) (v : Dy) : St40 × Bool :=
  let at_ (e : Int) : Int := shiftRound v.m (v.e - e + 39)
  let top : Int := 549755813887
  match (List.range (emax - e0 + 1).toNat).find? (fun (i : Nat) => (at_ (e0 + (i : Int))).natAbs ≤ 549755813887) with
  | some i => ({ m := at_ (e0 + i), e := e0 + i }, false)
  | none => ({ m := if v.m < 0 then -top else top, e := emax }, true)

/-! ### Reciprocal and square root, to 1 unit in the last place (R129) -/

/-- A mantissa within 1 unit of an exact value that is `n` or, where `exact` is false, lies between `n` and `n` + 1: `f` picks. -/
def nearUlp (f : Nat) (exact : Bool) (n : Int) : Int :=
  let q : Int := if exact then n + (f % 3 : Nat) - 1 else n + (f % 2 : Nat)
  if 524287 < q then 524287 else if q < -524287 then -524287 else q

/-- n / d to 20 bits, with any exponent; `f` picks within 1 unit in the last place. The spec states no quotient by 0: then
`f` is the whole value. -/
def quot20 (f : Nat) (n : Int) (d : Nat) : Num :=
  if d = 0 then { m := signed 20 f, e := 15 }
  else if n = 0 then {}
  else
    let k : Int := (Nat.log2 n.natAbs : Int) - Nat.log2 d
    let num (s : Int) : Int := shiftI n (max s 0)
    let den (s : Int) : Nat := d * 2 ^ (-s).toNat
    let s : Int := if 524287 < (roundDiv (num (19 - k)) (den (19 - k))).natAbs then 18 - k else 19 - k
    { m := nearUlp f (num s % (den s : Int) = 0) (num s / (den s : Int)), e := 19 - s }

/-- 1 / x. -/
def recip (f : Nat) (x : Num) : Num :=
  let r := quot20 f (sgn x.m) x.m.natAbs
  if x.m = 0 then r else { r with e := r.e + 19 - x.e }

/-- Integer square root by bits, from bit `n` down. -/
def isqrtGo : Nat → Nat → Nat → Nat
  | 0, v, r => if (r + 1) * (r + 1) ≤ v then r + 1 else r
  | n + 1, v, r => isqrtGo n v (if (r + 2 ^ (n + 1)) * (r + 2 ^ (n + 1)) ≤ v then r + 2 ^ (n + 1) else r)

def isqrt (v : Nat) : Nat := isqrtGo (Nat.log2 v / 2 + 1) v 0

/-- √v to 20 bits; a value of 0 or less gives 0. -/
def sqrt20 (f : Nat) (v : Dy) : Num :=
  if v.m ≤ 0 then {}
  else
    let l : Int := Nat.log2 v.m.natAbs
    let t : Int := max (60 - l) 0
    let t := if (v.e - t) % 2 = 0 then t else t + 1
    let w := v.m.natAbs * 2 ^ t.toNat
    let r := isqrt w
    let e := blockExp 15 [{ m := r, e := (v.e - t) / 2 }]
    let k := (v.e - t) / 2 - e + 19
    let n := shiftI r k
    { m := max 0 (nearUlp f (r * r = w && shiftI n (-k) = (r : Int)) n), e := e }

/-! ### Sine and cosine, accurate to 2^−18 (R133) -/

/-- π × 2^70, rounded down. -/
def piQ70 : Nat := 3708937962535486895300

/-- Taylor sum of cos (from i = 0) or sin (from i = 1) at the angle x × 2^−70, by Horner's rule; `n` counts down. -/
def taylor (x2 : Nat) : Nat → Nat → Int
  | 0, _ => 2 ^ 70
  | n + 1, i => 2 ^ 70 - (x2 : Int) * taylor x2 n (i + 2) / ((i + 1) * (i + 2) : Nat) / 2 ^ 70

/-- cos and sin × 2^70 of θ × 2^−32 turns. -/
def cosSinQ70 (theta : Nat) : Int × Int :=
  let r : Nat := theta % 2 ^ 30
  let x : Nat := r * piQ70 / 2 ^ 31
  let x2 : Nat := x * x / 2 ^ 70
  let c := taylor x2 16 0
  let s := (x : Int) * taylor x2 16 1 / 2 ^ 70
  match theta / 2 ^ 30 % 4 with
  | 0 => (c, s)
  | 1 => (-s, c)
  | 2 => (-c, -s)
  | _ => (s, -c)

/-- A 20-bit value within 2^−18 of v × 2^−70; `f` picks among them. -/
def near18 (f : Nat) (v : Int) : Num :=
  let q := v / 2 ^ 51 + (f % 4 : Nat) - 1
  { m := if 524287 < q then 524287 else if q < -524287 then -524287 else q, e := 0 }

/-- cos θ and sin θ as the datapath has them. -/
def cosSin (f1 f2 : Nat) (theta : Nat) : Num × Num :=
  let (c, s) := cosSinQ70 theta
  (near18 f1 c, near18 f2 s)

/-- 1 / √3, √3 / 2, 1 / 3 to 20 bits. -/
def invSqrt3 : Num := { m := 302697, e := 0 }
def halfSqrt3 : Num := { m := 454047, e := 0 }
def third : Num := { m := 349525, e := -1 }

/-! ### The PI rule (R131) -/

/-- What one PI update gives: the candidate integrator, the output before and after the controller's limit. -/
structure PiOut where
  cand : Dy
  raw : Dy
  u : Dy
  deriving DecidableEq, Repr

/-- One PI update, with a feedforward term, with output limits [lo, hi] and integrator limits the same. -/
def piStep (kp ki : Num) (i : St40) (e : Num) (ff : List Term) (lo hi : Num) : PiOut :=
  let cand := (accum [i.term, mulT ki e]).clamp lo.wide hi.wide
  let raw := accum ([mulT kp e, cand.term] ++ ff)
  { cand := cand, raw := raw, u := raw.clamp lo.wide hi.wide }

/-- Whether the integrator is kept: the output was limited and the error pushes further into the limit. -/
def piKeeps (e : Num) (raw u : Dy) : Bool :=
  let d := (raw.sub u).m
  d ≠ 0 && sgn e.m = sgn d

end Sys2Proof.Machine
end

