-- ==== Sys2Proof/Machine/Limiter.lean ====
section
/-! DEFINITION. The set-point limiter (R154 to R162, R168 to R170, R530) on its grid of 2^−64. A plan is worked out in the
frame whose positive direction is that of the motion; of the jerks the rules leave open, a free value picks one. -/

namespace Sys2Proof.Machine

/-- Position, velocity and acceleration in units of 2^−64. -/
structure LS where
  p : Int
  v : Int
  a : Int
  deriving DecidableEq, Repr

/-- Limits of velocity, acceleration, deceleration and jerk in units of 2^−64, and the velocity of the frame in which a plan is
made (R160): the limits hold for absolute values. -/
structure LL where
  V : Int
  A : Int
  D : Int
  J : Int
  W : Int := 0
  deriving DecidableEq, Repr

/-- The advance of one period (R154), each value rounded to the grid. -/
def LS.adv (s : LS) (j : Int) : LS :=
  { p := roundDiv (6 * (s.p + s.v) + 3 * s.a + j) 6, v := roundDiv (2 * (s.v + s.a) + j) 2, a := s.a + j }

def LS.rest (s : LS) : Bool := s.v = 0 && s.a = 0
def LS.mirror (s : LS) (m : Int) : LS := { p := m * s.p, v := m * s.v, a := m * s.a }
def LL.mirror (l : LL) (m : Int) : LL := { l with W := m * l.W }

/-- The limit of an acceleration `a` beside the absolute velocity `v` (R155). -/
def LL.cap (l : LL) (v a : Int) : Int := if v = 0 || a = 0 || sgn a = sgn v then l.A else l.D

/-- Whether the present velocity or acceleration lies outside a limit (R156). -/
def LL.outside (l : LL) (s : LS) : Bool := l.V < (s.v + l.W).natAbs || l.cap (s.v + l.W) s.a < s.a.natAbs

/-- Whether a period that ends in `n` with jerk `j` obeys every limit (R155). -/
def LL.meets (l : LL) (n : LS) (j : Int) : Bool := j.natAbs ≤ l.J && !l.outside n

/-- Whether a limit is zero (R156). -/
def LL.zero (l : LL) : Bool := l.V = 0 || l.A = 0 || l.D = 0 || l.J = 0

/-! ### Paths -/

/-- Twice the velocity gained while a > 0 falls to 0 as fast as the jerk limit allows. -/
def gain2 (a j : Int) : Int :=
  if a ≤ 0 then 0
  else
    let k := (a - 1) / j
    a + 2 * k * a - j * k * (k + 1)

/-- The largest x in [lo, hi] for which `f` holds, for an f that does not hold again once it has failed; lo if none. -/
def bisect (f : Int → Bool) : Nat → Int → Int → Int
  | 0, lo, _ => lo
  | n + 1, lo, hi =>
    if hi ≤ lo then lo
    else
      let mid := (lo + hi + 1) / 2
      if f mid then bisect f n mid hi else bisect f n lo (mid - 1)

/-- The least count for which `f` holds, for an f that stays true; 2^40 if none below. -/
def leastCount (f : Nat → Bool) : Nat :=
  match (List.range 41).find? (fun i => f (2 ^ i)) with
  | none => 2 ^ 40
  | some 0 => if f 0 then 0 else 1
  | some (i + 1) => (bisect (fun n => !f n.toNat) 64 (2 ^ i : Nat) (2 ^ (i + 1) : Nat)).toNat + 1

/-- The largest next acceleration up to `want` that the limits allow beside the velocity it leads to. -/
def capUp (l : LL) (s : LS) (want : Int) : Int :=
  let u := 2 * (s.v + l.W) + s.a
  let x := min want l.A
  if 0 ≤ u + x then x else min want (min l.D (-u - 1))

/-- The smallest next acceleration from `want` up that the limits allow beside the velocity it leads to. -/
def capDown (l : LL) (s : LS) (want : Int) : Int :=
  let u := 2 * (s.v + l.W) + s.a
  let x := max want (-l.D)
  let y := max want (-l.A)
  if 0 < u + x then x else if 0 < u + y then max x (1 - u) else y

/-- The next acceleration on the path of parameter `c` in its period `i`, with `left` periods to come after it: it rises as
fast as the limits allow, falls from c, turns in time for the velocity limit, and is back at 0 at the end. -/
def pathA (l : LL) (s : LS) (c : Int) (i left : Nat) : Int :=
  let want := capUp l s (min (s.a + l.J) (c - i * l.J))
  let fits (a : Int) : Bool := 2 * s.v + s.a + a + gain2 a l.J ≤ 2 * (l.V - l.W)
  let want := if fits want then want else bisect fits 200 (s.a - l.J) want
  let want := capDown l s want
  let t := left * l.J
  let want := if t < want then t else if want < -t then -t else want
  if s.a + l.J < want then s.a + l.J else if want < s.a - l.J then s.a - l.J else want

/-- The state at the end of the path of parameter `c`. -/
def walk (l : LL) (c : Int) : Nat → Nat → LS → LS
  | 0, _, s => s
  | n + 1, i, s => walk l c n (i + 1) (s.adv (pathA l s c i n - s.a))

/-- The parameter with which the path of `n` periods ends nearest to rest without passing it. -/
def restC (l : LL) (s : LS) (n : Nat) : Int :=
  bisect (fun c => (walk l c n 1 s).v ≤ 0) 200 s.a (l.A + l.D + s.a.natAbs + (n + 1) * l.J)

/-- Where the longest path of `n` periods to rest ends. -/
def endP (l : LL) (s : LS) (n : Nat) : Int := (walk l (restC l s n) n 1 s).p

/-! ### The time-optimal stop (R530) -/

/-- The direction in which the axis still moves once its acceleration is taken to 0. -/
def stopDir (l : LL) (s : LS) : Int :=
  let u := 2 * s.v + (if 0 ≤ s.a then gain2 s.a l.J else -gain2 (-s.a) l.J)
  if u ≠ 0 then sgn u else if s.a ≠ 0 then sgn s.a else 1

/-- Fewest periods of a stop. -/
def stopCount (l : LL) (s : LS) : Nat :=
  let m := stopDir l s
  let l := l.mirror m
  let s := s.mirror m
  leastCount (fun n => s.a.natAbs ≤ n * l.J && (walk l s.a n 1 s).v ≤ 0)

/-- Whether no stop exists: the axis moves, and the deceleration or jerk limit is 0. -/
def LL.noStop (l : LL) (s : LS) : Bool := !s.rest && (l.D = 0 || l.J = 0)

/-- The sign of v, or of a where v = 0 (R158). -/
def LS.dir (s : LS) : Int := if s.v ≠ 0 then sgn s.v else sgn s.a

/-- A jerk of the range the limit allows, picked by `f`. -/
def freeJerk (l : LL) (f : Nat) : Int := (f : Int) % (2 * l.J + 1) - l.J

/-- One period of a stop with `left` periods left: a free jerk, the same wherever that stop is worked out, where it keeps the stop
time-optimal, else the planned one; the last period lands exactly (R154). -/
def stopPeriod (l : LL) (s : LS) (left : Nat) : LS :=
  let m := stopDir l s
  let t := s.mirror m
  let lm := l.mirror m
  let plan := m * (pathA lm t (restC lm t left) 1 (left - 1) - t.a)
  if left ≤ 1 then { p := (s.adv plan).p, v := 0, a := 0 }
  else
    let j := freeJerk l (Config.stopJerk [l.V, l.A, l.D, l.J, l.W] [s.p, s.v, s.a] left)
    let n := s.adv j
    if l.meets n j && stopCount l n ≤ left - 1 then n else s.adv plan

/-- A stop run to its end. -/
def stopRun (l : LL) : Nat → LS → LS
  | 0, s => s
  | n + 1, s => stopRun l n (stopPeriod l s (n + 1))

/-- The stopping point S (R530): where the limiter's own stop ends. Where no stop exists, the outermost value of the 48.16
format. -/
def stopPoint (l : LL) (s : LS) : Int :=
  if s.rest then s.p
  else if l.noStop s then (if 0 < s.dir then 9223372036854775807 else -9223372036854775808) * 2 ^ 48
  else (stopRun l (stopCount l s) s).p

/-- A period of an axis for which no stop exists: the acceleration goes to 0 as fast as the jerk limit allows (R154, R530). -/
def coast (l : LL) (s : LS) : LS := s.adv (if l.J < s.a.natAbs then -sgn s.a * l.J else -s.a)

/-! ### The time-optimal move to rest (R158) -/

/-- Fewest periods of a move to rest at `t`, in the frame of the motion. -/
def moveCount (l : LL) (s : LS) (t : Int) : Nat :=
  let n0 := stopCount l s
  max n0 (leastCount (fun n => n0 ≤ n && t ≤ endP l s n))

/-- The parameter and the velocity limit of the planned move of `n` periods to `t`. -/
def movePlan (l : LL) (s : LS) (t : Int) (n : Nat) : LL × Int :=
  let v := bisect (fun v => endP { l with V := v } s n ≤ t) 200 0 l.V
  let l := { l with V := v }
  (l, restC l s n)

/-- Whether a move of `n` periods from `s` to `t` exists, to within 2^−32. -/
def moveExists (l : LL) (s : LS) (t : Int) (n : Nat) : Bool :=
  stopCount l s ≤ n && t ≤ endP l s n + 2 ^ 32 && endP { l with V := max l.W 0 } s n ≤ t + 2 ^ 32

/-- The direction of a move to `t`. -/
def moveDir (s : LS) (t : Int) : Int := if t < s.p then -1 else 1

/-- Fewest periods of a move to rest at `t` (R158). -/
def moveLeft (l : LL) (s : LS) (t : Int) : Nat :=
  let m := moveDir s t
  moveCount (l.mirror m) (s.mirror m) (m * t)

/-- One period of a move to rest at `t` with `left` periods left (R154, R158). -/
def movePeriod (l : LL) (s : LS) (t : Int) (left f : Nat) : LS :=
  if left ≤ 1 then { p := t, v := 0, a := 0 }
  else
    let m := moveDir s t
    let q := s.mirror m
    let lm := l.mirror m
    let (lp, c) := movePlan lm q (m * t) left
    let plan := m * (pathA lp q c 1 (left - 1) - q.a)
    let j := freeJerk l f
    let n := s.adv j
    if l.meets n j && moveExists lm (n.mirror m) (m * t) (left - 1) then n else s.adv plan

/-! ### The limiter of an axis -/

def Lim.ls (l : Lim) : LS := { p := l.p, v := l.v, a := l.a }
def Lim.at_ (l : Lim) (s : LS) : Lim := { l with p := s.p, v := s.v, a := s.a }

/-- The limits in force. -/
def Lim.ll (l : Lim) : LL :=
  { V := l.vmax * 2 ^ 32, A := l.amax * 2 ^ 32, D := l.dmax * 2 ^ 32, J := l.jmax * 2 ^ 32 }

/-- A 48.16 position on the grid. -/
def grid48 (v : Int) : Int := v * 2 ^ 48

/-- A 32.32 value on the grid. -/
def grid32 (v : Int) : Int := v * 2 ^ 32

/-- The configured mode: 0b11 is treated as SEGMENT (R162). -/
def Mach.limMode (m : Mach) (x : Nat) : Nat :=
  let v := m.fld AX_LIM_CTRL.MODE x
  if v = 3 then 1 else v

/-- The limits in force take the live words; one of zero is held back while the axis moves (R156). -/
def Mach.takeLimits (m : Mach) (x : Nat) (l : Lim) : Lim :=
  let keep (new old : Nat) : Nat := if new = 0 && !l.ls.rest then old else new
  { l with
    vmax := keep (m.fld AX_LIM_VMAX.VAL x) l.vmax, amax := keep (m.fld AX_LIM_AMAX.VAL x) l.amax,
    dmax := keep (m.fld AX_LIM_DMAX.VAL x) l.dmax, jmax := keep (m.fld AX_LIM_JMAX.VAL x) l.jmax }

/-- The stop words as a stop profile takes them when it begins. -/
def Mach.takeStop (m : Mach) (x : Nat) (l : Lim) : Lim :=
  { l with stopD := m.fld AX_STOP_DMAX.VAL x, stopJ := m.fld AX_STOP_JMAX.VAL x, stopEnd := m.flg AX_STOP_CTRL.END x }

/-- The limits of a stop profile: a zero stop word is replaced by the matching normal limit (R169). -/
def Lim.stopLL (l : Lim) : LL :=
  { l.ll with D := (if l.stopD = 0 then l.dmax else l.stopD) * 2 ^ 32, J := (if l.stopJ = 0 then l.jmax else l.stopJ) * 2 ^ 32 }

/-- The stop-profile limits of an axis: those of a stop under way, else the live ones. -/
def Mach.stopLimits (m : Mach) (x : Nat) (l : Lim) : LL := if l.phase = 3 then l.stopLL else (m.takeStop x l).stopLL

/-- The stopping point of an axis under its stop-profile limits, in 48.16 counts (R182, R454). -/
def Mach.stopS (m : Mach) (x : Nat) (l : Lim) : Int := roundDiv (stopPoint (m.stopLimits x l) l.ls) (2 ^ 48)

/-- What one period of the limiter gives: its state, LIMITED, its events (KIND, tag), whether the part shutters at the
commit fence. -/
structure LimOut where
  lim : Lim
  limited : Bool := false
  evs : List (Nat × Nat) := []
  shut : Bool := false
  deriving DecidableEq, Repr

/-- A target in force and not reached is given up (R159). -/
def Lim.giveUp (l : Lim) : Lim × List (Nat × Nat) :=
  if l.seg then ({ l with seg := false }, [(1, l.tag)]) else (l, [])

/-- A plan from the present state to rest at the target (R158): a move where it lies beyond the stopping point in the direction of
motion or the axis is at rest, else a stop first. With a limit of zero a moving axis stops, where a stop exists, and one at rest stays
there (R156). -/
def Lim.plan (l : Lim) : Lim :=
  let s := l.ls
  let ll := l.ll
  if s.rest && (ll.zero || s.p = l.tgt) then { l with phase := 0, left := 0 }
  else if ll.noStop s then { l with phase := 2, left := 0 }
  else if ll.V ≠ 0 && (s.rest || 0 < (l.tgt - stopPoint ll s) * s.dir) then { l with phase := 1, left := moveLeft ll s l.tgt }
  else { l with phase := 2, left := stopCount ll s }

/-- One period towards the target of SEGMENT mode. -/
def Lim.segPeriod (l : Lim) (f : Nat) : LimOut :=
  let s := l.ls
  let out := l.ll.outside s
  if l.phase = 2 then
    if l.left = 0 then { lim := l.at_ (coast l.ll s), limited := out }
    else { lim := { l.at_ (stopPeriod l.ll s l.left) with left := l.left - 1 }, limited := out }
  else if l.phase = 1 then
    let n := movePeriod l.ll s l.tgt l.left f
    if l.left ≤ 1 then
      { lim := { l.at_ n with left := 0, phase := 0, seg := false }, limited := out, evs := if l.seg then [(0, l.tag)] else [] }
    else { lim := { l.at_ n with left := l.left - 1 }, limited := out }
  else if l.seg && s.rest && s.p = l.tgt then { lim := { l with seg := false }, evs := [(0, l.tag)] }
  else { lim := l, limited := out && !s.rest }

/-- SEGMENT mode (R158, R159): a new target, or limits that changed, are planned for; after the stop of a reversal the move
starts from rest. -/
def Mach.segment (m : Mach) (x : Nat) (l : Lim) (newTag changed : Bool) (f : Nat) : LimOut :=
  let (l, evs, super) : Lim × List (Nat × Nat) × Bool :=
    if newTag then
      let (l, evs) := l.giveUp
      ({ l with tgt := grid48 (m.fldS64 AX_SP_POS.POS x), tag := m.fld AX_SP_TAG.TAG x, seg := true }, evs, evs ≠ [])
    else (l, [], false)
  let again := newTag || changed || (l.phase = 2 && l.left = 0) || (l.phase = 0 && (l.ls.p ≠ l.tgt || !l.ls.rest))
  let l := if again then l.plan else l
  let o := l.segPeriod f
  { o with evs := evs ++ o.evs, limited := o.limited || (super && l.phase = 2) }

/-- PHASE of a limiter that follows a stream or samples. -/
def Lim.followPhase (l : Lim) : Lim := { l with phase := if l.ls.rest then 0 else 1 }

/-- STREAM mode (R160): the candidate on the stream where it meets R155, else a move in the frame of the stream, whose period is
`q`, or first the approach to the stream's velocity: once begun it is completed, unless a sample or a limit changes. With a limit of
zero a moving axis stops (R156). -/
def Mach.stream (m : Mach) (x : Nat) (l : Lim) (newPos changed : Bool) (f : Nat) : LimOut :=
  let l := if newPos then { l with
      sT := grid48 (m.fldS64 AX_SP_POS.POS x), sV := grid32 (m.fldS64 AX_SP_VEL.VAL x), unmarked := false }
    else { l with sT := l.sT + l.sV }
  let s := l.ls
  let c : LS := { p := l.sT, v := l.sV, a := l.sV - s.v }
  if s.rest && l.ll.zero then { lim := ({ l with locked := false, left := 0 }).followPhase, limited := true }
  else if l.ll.meets c (c.a - s.a) then { lim := ({ l.at_ c with locked := true, left := 0 }).followPhase }
  else if l.ll.zero then
    let n := if l.ll.noStop s then coast l.ll s else stopPeriod l.ll s (stopCount l.ll s)
    { lim := ({ l.at_ n with locked := false, left := 0 }).followPhase, limited := true }
  else
    let q : LS := { p := s.p - (l.sT - l.sV), v := s.v - l.sV, a := s.a }
    let ll : LL := { l.ll with W := l.sV }
    let (n, left) : LS × Nat :=
      if !(newPos || changed) && l.left ≠ 0 then (stopPeriod ll q l.left, l.left - 1)
      else if q.rest || 0 < -stopPoint ll q * q.dir then (movePeriod ll q 0 (moveLeft ll q 0) f, 0)
      else
        let k := stopCount ll q
        (stopPeriod ll q k, k - 1)
    let n : LS := { p := n.p + l.sT, v := n.v + l.sV, a := n.a }
    { lim := ({ l.at_ n with locked := false, left := left }).followPhase, limited := true }

/-- OFF mode (R161). -/
def Mach.offMode (m : Mach) (x : Nat) (l : Lim) (newPos : Bool) : LimOut :=
  let l := if newPos then { l with
      sT := grid48 (m.fldS64 AX_SP_POS.POS x), sV := grid32 (m.fldS64 AX_SP_VEL.VAL x),
      sA := grid32 (m.fldS64 AX_SP_ACC.VAL x), unmarked := false }
    else { l with sT := l.sT + l.sV }
  { lim := (l.at_ { p := l.sT, v := l.sV, a := l.sA }).followPhase }

/-- The stop profile (R169). -/
def Lim.stopProfile (l : Lim) : LimOut :=
  let ll := l.stopLL
  let s := l.ls
  if s.rest then { lim := { l with phase := 4, left := 0 }, evs := [(3, 0)], shut := l.stopEnd }
  else if ll.noStop s then { lim := l, shut := true }
  else
    let left := if l.left = 0 then stopCount ll s else l.left
    let n := stopPeriod ll s left
    let l := { l.at_ n with left := left - 1 }
    if n.rest then { lim := { l with phase := 4, left := 0 }, evs := [(3, 0)], shut := l.stopEnd }
    else { lim := l, limited := ll.outside s }

/-- A change of mode (R162). -/
def Mach.modeChange (m : Mach) (x : Nat) (l : Lim) (newTag newPos : Bool) : Lim × List (Nat × Nat) :=
  let new := m.limMode x
  if new = l.mode then (l, [])
  else
    let (l, evs) := l.giveUp
    let l := { l with mode := new, locked := false, left := 0, phase := 0 }
    if new = 1 then
      (if newTag then l else { l with tgt := stopPoint l.ll l.ls }, evs)
    else (if newPos then l else { l with sT := l.p, sV := 0, sA := 0, unmarked := true }, evs)

/-- One period of the limiter of axis `x`, in the order: first wake or shutter reset (R157, R231), release (R170), limits (R156),
which a stop profile ignores, stop trigger (R168), mode (R162), motion. `p0` is the corrected feedback on the grid. -/
def Mach.limPeriod (m : Mach) (x : Nat) (l : Lim) (first : Bool) (p0 : Int) (newTag newPos rel stop : Bool) (f : Nat) : LimOut :=
  let shut := m.flg AX_GT_STAT.SHUT x
  let (l, e0) : Lim × List (Nat × Nat) :=
    if first then
      ({ p := p0, tgt := p0, sT := p0, mode := m.limMode x, unmarked := true, tag := l.tag }, [])
    else if shut then
      let (l', e) := l.giveUp
      ({ l' with
          p := p0, v := 0, a := 0, tgt := p0, sT := p0, sV := 0, sA := 0, locked := false, left := 0,
          phase := if l.phase = 3 ∨ l.phase = 4 then 4 else 0 }, e ++ (if l.phase = 3 then [(3, 0)] else []))
    else (l, [])
  let l := if rel && l.phase = 4 then
      { l with tgt := l.p, phase := 0, left := 0, mode := m.limMode x, sT := l.p, sV := 0, sA := 0, unmarked := true }
    else l
  if l.phase = 3 then
    let o := l.stopProfile
    { o with evs := e0 ++ o.evs }
  else if l.phase = 4 then { lim := l, evs := e0 }
  else
    let old := l.ll
    let l := m.takeLimits x l
    if stop then
      let (l, e1) := l.giveUp
      let o := (m.takeStop x { l with phase := 3, left := 0, locked := false }).stopProfile
      { o with evs := e0 ++ e1 ++ o.evs }
    else
      let changed := old ≠ l.ll
      let (l, e2) := m.modeChange x l newTag newPos
      let o := match l.mode with
        | 0 => m.offMode x l newPos
        | 2 => m.stream x l newPos changed f
        | _ => m.segment x l newTag changed f
      { o with evs := e0 ++ e2 ++ o.evs }

end Sys2Proof.Machine
end

