-- ==== Sys2Proof/Machine/Windows.lean ====
section
/-! DEFINITION. Time windows (R52 to R56, R529). -/

namespace Sys2Proof.Machine

/-! ### Time windows -/

def Mach.win (m : Mach) (w : Nat) : Win := SMap.get (fun _ => {}) m.wins w
def Mach.setWin (m : Mach) (w : Nat) (d : Win) : Mach := { m with wins := SMap.set (fun _ => {}) m.wins w d }

/-- A verdict of window `w` (R54, R529): 1 INSIDE, 2 EARLY, 3 MISSED; the result, then the action of ACT. -/
def Mach.verdict (m : Mach) (w v : Nat) (stamp decided : Stamp) (arb dir : Bool) (k : Nat) : Mach :=
  let d := m.win w
  let m := ((m.setFld TB_TW_RESULT.VERDICT w v).setFlg TB_TW_RESULT.ARB w arb).setFlg TB_TW_RESULT.ARB_DIR w dir
  let m := m.setFld TB_TW_STAMP.STAMP w (if v = 3 then 0 else stamp)
  let m := if v = 1 then m else m.countSat TB_TW_RESULT.FAILS w
  let m := if d.pgMode then m else m.setFld TB_TW_CTRL.EN w 0
  let m := m.postIf (d.act ≠ 0 && m.flg TB_EVQ.EN 0) (m.fld TB_EVQ.QUEUE 0)
    (bytesOfNat 8 (if v = 3 then decided else stamp) ++ bytesOfNat 1 v ++ bytesOfNat 1 (bit arb + 2 * bit dir)
      ++ bytesOfNat 1 w ++ [0] ++ bytesOfNat 4 (if d.pgMode then k else 0))
  let m := m.tell 10 w (m.rg (TB_TW_RESULT.VERDICT.addr w)).toNat stamp
  if d.act = 2 ∧ v ≠ 1 then m.shutter d.axis 3 m.now else m

/-- First period a PG window watches (R55): its start at or after the enable, its index not below the group's first. -/
def Mach.winFirst (m : Mach) (d : Win) : Nat :=
  max (leastIndex (m.fld TB_PG_PHASE.PHASE d.pg * 64) (m.pgP d.pg * 64) d.since) (m.group d.pg).k0

/-- The period a PG window decides next, if no event decides a later one before. -/
def Mach.winNext (m : Mach) (d : Win) : Nat := max d.missNext (m.winFirst d)

/-- Period `k` has its verdict; `b` is the first that had none. -/
def Win.decided (d : Win) (b k : Nat) : Win :=
  let hs := k :: d.hits
  let n := b + ((List.range (hs.length + 1)).find? (fun i => !hs.contains (b + i))).getD 0
  { d with missNext := n, hits := hs.filter (fun h => n ≤ h) }

/-- One window sees an event of its source (R52 to R54). -/
def Mach.windowSees (m : Mach) (w : Nat) (stamp : Stamp) (arb dir : Bool) : Mach :=
  let d := m.win w
  if !m.flg TB_TW_CTRL.EN w then m
  else if d.pgMode then
    let start := m.fld TB_PG_PHASE.PHASE d.pg * 64
    if !m.pgOn d.pg ∨ stamp < start then m
    else
      let k := (stamp - start) / (m.pgP d.pg * 64)
      let rel := (stamp - start) % (m.pgP d.pg * 64)
      if k < m.winNext d || d.hits.contains k || d.close ≤ rel then m
      else (m.setWin w (d.decided (m.winNext d) k)).verdict w (if rel < d.open_ then 2 else 1) stamp stamp arb dir k
  else if stamp < d.since ∨ d.close ≤ stamp then m
  else m.verdict w (if stamp < d.open_ then 2 else 1) stamp stamp arb dir 0

/-- An event of source `src` (R56) with its final stamp reaches every window that watches it. -/
def Mach.windowEvent (m : Mach) (src : Nat) (stamp : Stamp) (arb dir : Bool) : Mach :=
  (List.range 64).foldl (fun m w => if (m.win w).src = src then m.windowSees w stamp arb dir else m) m

/-- When the MISSED verdict of the period a PG window looks at next, or of an ABS window, is due (R53, R54). -/
def Mach.missDue (m : Mach) (w : Nat) : Stamp :=
  let d := m.win w
  if d.pgMode then m.startTick d.pg (m.winNext d) * 64 + d.close + 128 else d.close + 128

/-- A watch span of an armed PG window starts, at start(k) of the next period it watches (R53). -/
def Mach.windowSpan (m : Mach) (w : Nat) : Mach :=
  let d := m.win w
  if !m.flg TB_TW_CTRL.EN w || !d.pgMode || !m.pgOn d.pg then m
  else
    let k := max d.span (m.winFirst d)
    (m.setWin w { d with span := k + 1 }).until (m.startTick d.pg k * 64)

/-- No event was stamped before close: MISSED at close + 2 tk (R54). -/
def Mach.windowMissed (m : Mach) (w : Nat) : Mach :=
  let d := m.win w
  if !m.flg TB_TW_CTRL.EN w then m
  else if d.pgMode then
    let k := m.winNext d
    if !m.pgOn d.pg then m
    else
      let t := m.missDue w
      ((m.setWin w (d.decided k k)).until t).verdict w 3 0 t false false k
  else (m.until (m.missDue w)).verdict w 3 0 (m.missDue w) false false 0

/-- An enable of window `w` (R55): its settings are latched, or BAD_WINDOW. An ABS enable after close + 2 tk gives MISSED
at once (R54). DESIGN CHOICE (log entry 115): BAD_WINDOW clears ARB and
ARB_DIR. -/
def Mach.windowOn (m : Mach) (w : Nat) : Mach :=
  let pgMode := m.flg TB_TW_CTRL.MODE w
  let pg := m.fld TB_TW_CTRL.PG w
  let op := m.fld TB_TW_OPEN.BOUND w
  let cl := m.fld TB_TW_CLOSE.BOUND w
  if cl ≤ op ∨ (pgMode ∧ m.pgP pg * 64 < cl) then
    let m := ((((m.setFld TB_TW_CTRL.EN w 0).setFld TB_TW_RESULT.VERDICT w 4).setFld TB_TW_RESULT.ARB w 0).setFld
      TB_TW_RESULT.ARB_DIR w 0).setFld TB_TW_STAMP.STAMP w 0
    m.tell 10 w (m.rg (TB_TW_RESULT.VERDICT.addr w)).toNat m.now
  else
    let act := m.fld TB_TW_CTRL.ACT w
    let d : Win := {
      pgMode := pgMode, pg := pg, act := if act = 3 then 1 else act, axis := m.fld TB_TW_CTRL.AXIS w,
      src := m.fld TB_TW_CTRL.SRC w, open_ := op, close := cl, since := m.now, span := 0, missNext := 0, hits := [] }
    let m := (m.raise TB_TW_CTRL.EN w).setWin w d
    if !pgMode && cl + 128 < m.now then m.verdict w 3 0 (cl + 128) false false 0 else m

/-- A write of TB_TW_CTRL (R55): the fields are stored; EN going to 1 is an enable, EN = 0 disarms. -/
def Mach.windowCtrlWrite (m : Mach) (w : Nat) (v : W32) : Mach :=
  let was := m.flg TB_TW_CTRL.EN w
  let on := TB_TW_CTRL.EN.of v ≠ 0
  let m := [TB_TW_CTRL.MODE, TB_TW_CTRL.PG, TB_TW_CTRL.ACT, TB_TW_CTRL.AXIS, TB_TW_CTRL.SRC].foldl
    (fun m f => m.setFld f w (f.of v)) m
  let m := m.raiseIf (TB_TW_CTRL.ACT.of v = 3 || 0x208 ≤ TB_TW_CTRL.SRC.of v) TB_STATUS.RSVW 0
  if on && !was then m.windowOn w
  else if on then m
  else m.setFld TB_TW_CTRL.EN w 0

end Sys2Proof.Machine
end

