-- ==== Sys2Proof/Machine/Ports.lean ====
section
/-! DEFINITION. Position ports (R109 to R126): quadrature counting, serial transactions, captures, loss of signal. -/

namespace Sys2Proof.Machine

def Mach.port (m : Mach) (p : Nat) : Port := SMap.get (fun _ => {}) m.ports p
def Mach.setPort (m : Mach) (p : Nat) (d : Port) : Mach := { m with ports := SMap.set (fun _ => {}) m.ports p d }

/-- 64-bit two's complement. -/
def wrap64 (i : Int) : Int := signed 64 (unsigned 64 i)

/-- The axis a port is mapped to with the role motor or load (R112): AXIS 64 to 127 name none, ROLE 0b11 is none. -/
def Mach.portAxis (m : Mach) (p : Nat) : Option Nat :=
  let a := m.fld PP_MAP.AXIS p
  if m.fld PP_MAP.ROLE p < 2 ∧ a < 64 then some a else none

/-- The group at whose sample instants a port captures (R112). -/
def Mach.portGroup (m : Mach) (p : Nat) : Nat :=
  match m.portAxis p with
  | some x => m.pgOf x
  | none => m.fld PP_MAP.PG p

/-- The enabled port that serves axis `x` in a role (0 motor, 1 load). -/
def Mach.portOf (m : Mach) (x role : Nat) : Option Nat :=
  (List.range 72).find? (fun p => m.flg PP_CTRL.EN p && m.portAxis p = some x && m.fld PP_MAP.ROLE p = role)

/-- Whether the mapped slice is enabled. -/
def Mach.portLive (m : Mach) (p : Nat) : Bool :=
  match m.portAxis p with
  | some x => m.liveSlice x
  | none => false

/-- The register fields with their substitutes (R126). -/
def Mach.dlen (m : Mach) (p : Nat) : Nat :=
  let v := m.fld PP_SCFG.DLEN p
  if v < 8 ∨ 40 < v then 24 else v

def Mach.ackMax (m : Mach) (p : Nat) : Nat :=
  let v := m.fld PP_SCFG.ACK_MAX p
  if v = 0 then 50 else v

def Mach.maper (m : Mach) (p : Nat) : Nat :=
  let v := m.fld PP_SCFG.MAPER p
  if v < 25 ∨ 2500 < v then 25 else v

/-- Length of the check code: code 0 gives 16, and SSI has none (R119, R126). -/
def Mach.crcLen (m : Mach) (p : Nat) : Nat :=
  if m.fld PP_CTRL.IF p = 1 then 0 else if m.fld PP_CRC.LEN p = 0 then 16 else m.fld PP_CRC.LEN p

def Mach.portLimit (m : Mach) (p : Nat) : Nat :=
  let v := m.fld PP_FAIL.LIMIT p
  if v = 0 then 3 else v

/-! ### Ball levels (R109) -/

/-- The clock balls of a port (R109): high-impedance, or in a serial mode idle high, or giving the clock of a transaction. -/
inductive ClockOut where
  | highZ | idleHigh | clocking
  deriving DecidableEq, Repr

/-- Whether a port's domain is on (R111). -/
def Mach.portPower (m : Mach) (p : Nat) : Bool := m.outOfReset && m.pdOn (if p < 36 then 38 else 39)

/-- What port `p` drives on MA. -/
def Mach.clockOut (m : Mach) (p : Nat) : ClockOut :=
  if !m.portPower p || !m.flg PP_CTRL.EN p || m.fld PP_CTRL.IF p = 0 then .highZ
  else if (m.port p).txn.isSome then .clocking else .idleHigh

/-! ### Quadrature (R115 to R117) -/

/-- A count after one change. -/
def Tally.on (c : Int) : Tally → Int
  | .step v => wrap64 (c + v)
  | .undo v => wrap64 (c - v)
  | .load v => v
  | .illegal => c

/-- A count after the changes of a list. -/
def tally (c : Int) (l : List PortEvent) : Int := l.foldl (fun c e => e.what.on c) c

/-- The count with every change so far. -/
def Port.now (d : Port) : Int := tally d.count d.log

/-- An input edge as measured, in vernier. -/
def edgeRaw (e : Edge) : Nat := e.tick * 64 + e.vn.val

/-- Whether an edge can have been accepted: the level before it, which began at `since`, was stable for FILT × 2 ns (R115). -/
def Mach.accepts (m : Mach) (p : Nat) (since : Option Nat) (e : Edge) : Bool :=
  match since with
  | none => true
  | some t => t + m.fld PP_QCFG.FILT p * 32 ≤ (edgeRaw e)

/-- The last edge, of stamp `t` and count `v`, was half of an illegal transition (R115): it does not count. -/
def uncount (t : Stamp) (v : Int) (now : Stamp) (log : List PortEvent) : List PortEvent :=
  if v = 0 then log
  else if { at_ := t, what := .step v } ∈ log then log.erase { at_ := t, what := .step v }
  else log ++ [{ at_ := now, what := .undo v }]

/-- An accepted edge: channel A or B takes a level. Edges of both channels less than 5 ns apart are an illegal transition,
which leaves the count where it was before them (R115). -/
def Mach.quadEdge (m : Mach) (p : Nat) (e : Edge) (chB level : Bool) : Mach :=
  let d := m.port p
  let old := d
  if (if chB then d.b else d.a) = level || !m.accepts p (if chB then d.atB else d.atA) e then m
  else
    let a := if chB then d.a else level
    let b := if chB then level else d.b
    let d := { d with a := a, b := b, atA := if chB then d.atA else some (edgeRaw e), atB := if chB then some (edgeRaw e) else d.atB }
    if !m.flg PP_CTRL.EN p || m.fld PP_CTRL.IF p ≠ 0 then m.setPort p d
    else
      let (stamp, _, _) := m.stampEdge e
      let m := m.until stamp
      let near : Option (Int × Stamp) := match old.edge with
        | some (t, ch, v, s) => if ch ≠ chB && (edgeRaw e) < t + 80 then some (v, s) else none
        | none => none
      match near with
      | some (v, s) => m.setPort p { d with
          edge := some ((edgeRaw e), chB, 0, stamp), log := uncount s v stamp d.log ++ [{ at_ := stamp, what := .illegal }] }
      | none =>
        let up := (if chB then b = a else a ≠ b) ≠ (m.flg PP_QCFG.DIR p)
        let v : Int := if up then 1 else -1
        m.setPort p { d with edge := some ((edgeRaw e), chB, v, stamp), log := d.log ++ [{ at_ := stamp, what := .step v }] }

/-- An accepted edge of Z (R56, R117): on the active one, count or position and stamp are latched; an index reset loads PP_PRESET
unless the mapped slice is enabled. -/
def Mach.indexEdge (m : Mach) (p : Nat) (e : Edge) (rising : Bool) : Mach :=
  if !m.flg PP_CTRL.EN p || !m.accepts p (m.port p).atZ e then m
  else
    let m := m.setPort p { m.port p with atZ := some (edgeRaw e) }
    if rising = m.flg PP_QCFG.ZPOL p then m
    else
      let (stamp, arb, dir) := m.stampEdge e
      let m := m.until stamp
      let d := m.port p
      let pos := if m.fld PP_CTRL.IF p = 0 then d.now else m.fldS64 PP_POS.POS p
      let m := (m.setFld PP_IDX_POS.POS p (unsigned 64 pos)).setFld PP_IDX_STAMP.STAMP p stamp
      let mode := m.fld PP_CTRL.IDX p
      let m :=
        if mode = 0 ∨ mode = 3 then m
        else if m.portLive p then m.raise PP_STAT.IDX_SKIP p
        else
          let m := m.setPort p { d with log := d.log ++ [{ at_ := stamp, what := .load (m.fldS64 PP_PRESET.VAL p) }] }
          if mode = 1 then m.setFld PP_CTRL.IDX p 0 else m
      m.windowEvent (0x1C0 + p) stamp arb dir

/-! ### Serial transactions (R118 to R120) -/

/-- A port's transaction lead in vernier. -/
def Mach.portLead (m : Mach) (p : Nat) : Nat := m.fld PP_SLEAD.LEAD p * 64

/-- The latch instant of the sample instant `s`: the first falling edge of MA, on a whole tick before VN_CAL (R36, R118). -/
def Mach.latchAt (m : Mach) (p : Nat) (s : Stamp) : Stamp := m.edgeAt false (s - m.portLead p)

/-- The period whose transaction is due next: its start lies at or after the port's and the group's enable and the last
change of group (R118). -/
def Mach.txnNext (m : Mach) (p : Nat) : Nat :=
  let d := m.port p
  let g := m.portGroup p
  let since := max d.since (m.group g).since
  let k := max (m.group g).k0 (leastIndex (m.sampleStamp g 0) (m.pgP g * 64) (since + m.portLead p))
  match d.lastK with
  | some l => max k (l + 1)
  | none => k

/-- A BiSS-C register access completes (R124). -/
def Mach.bissDone (m : Mach) (p st data : Nat) : Mach :=
  match (m.port p).biss with
  | none => m
  | some _ =>
    let m := m.setPort p { m.port p with biss := none }
    ((m.raise PP_BISS_RES.DONE p).setFld PP_BISS_RES.ST p st).setFld PP_BISS_RES.DATA p data

/-- A transaction carries one bit of the control frame of an access under way. DEDUCED: one that 48 transactions have not
completed ends without a reply (R124). -/
def Mach.bissBit (m : Mach) (p : Nat) : Mach :=
  match (m.port p).biss with
  | none => m
  | some b => if 48 ≤ b.sent then m.bissDone p 2 0 else m.setPort p { m.port p with biss := some { b with sent := b.sent + 1 } }

/-- The start of the next transaction, at S − LEAD; skipped while the previous one runs. -/
def Mach.txnStart (m : Mach) (p : Nat) : Mach :=
  let g := m.portGroup p
  if !m.flg PP_CTRL.EN p || m.fld PP_CTRL.IF p = 0 || !m.pgOn g then m
  else
    let k := m.txnNext p
    let t := m.latchAt p (m.sampleStamp g k)
    let m := m.until t
    let d := m.port p
    if d.txn.isSome then m.setPort p { d with lastK := some k }
    else
      let m := m.bissBit p
      m.setPort p { m.port p with lastK := some k, txn := some { k := k, latch := t } }

/-- The transaction under way ends with a failure code (0 good) and a word: it waits for its sample instant, or is discarded. -/
def Mach.txnEnds (m : Mach) (p : Nat) (x : Txn) (code word : Nat) : Mach :=
  let d := m.port p
  m.setPort p { d with
    txn := none
    frames := if x.dead then d.frames else d.frames ++ [{ k := x.k, latch := x.latch, code := code, word := word }] }

/-- No start bit within ACK_MAX: the transaction ends with TIMEOUT. -/
def Mach.txnTimeout (m : Mach) (p : Nat) : Mach :=
  match (m.port p).txn with
  | some x => (m.until (x.latch + m.ackMax p * 1600)).txnEnds p x 4 0
  | none => m

/-- Gray code of `n` bits to binary (R120). -/
def grayToBin : Nat → Nat → Nat
  | 0, v => v
  | n + 1, v => v ^^^ grayToBin n (v / 2)

/-- The check code of `n` bits with polynomial `poly` (its leading term left out) over the low `k` bits of `data`, the highest
first, from the remainder `r`. -/
def crcOf (n poly data : Nat) : Nat → Nat → Nat
  | 0, r => r
  | k + 1, r =>
    let fb := bitOf r (n - 1) != bitOf data k
    let r := r * 2 % 2 ^ n
    crcOf n poly data k (if fb then r ^^^ (poly % 2 ^ n) else r)

/-- The inverted check code a BiSS-C encoder sends (R120). PRESUMED (the BiSS-C protocol): the position goes first, its highest
bit leading, then nE and nW, and the remainder starts at 0. -/
def Mach.bissCrc (m : Mach) (p word : Nat) (nE nW : Bool) : Nat :=
  let n := m.crcLen p
  let k := m.dlen p
  2 ^ n - 1 - crcOf n (m.fld PP_CRC.POLY p) (word % 2 ^ k * 4 + 2 * bit nE + bit nW) (k + 2) 0

/-- A frame is complete and checked (R118, R120): the lowest failure code among its causes, and the word. -/
def Mach.txnDone (m : Mach) (p : Nat) (word crc : Nat) (nE nW idleOk : Bool) : Mach :=
  match (m.port p).txn with
  | none => m
  | some x =>
    let ssi := m.fld PP_CTRL.IF p = 1
    let crcOk : Bool := crc % 2 ^ m.crcLen p = m.bissCrc p word nE nW
    let code := if !ssi && !crcOk then 3 else if !ssi && !nE then 5 else if ssi && !idleOk then 7 else 0
    let w := word % 2 ^ m.dlen p
    let w := if ssi && m.flg PP_CTRL.GRAY p then grayToBin (m.dlen p) w else w
    (m.raiseIf (!ssi && !nW && !x.dead) PP_STAT.WARN p).txnEnds p x code w

/-! ### Captures (R113, R114, R121 to R123) -/

/-- A 32-bit signed value, saturating. -/
def sat32 (i : Int) : Int := if 2147483647 < i then 2147483647 else if i < -2147483648 then -2147483648 else i

/-- A failed capture with the code of R122 and its stamp (R114): it delivers the last good position with VALID = 0, and counts
towards LOSS. The layout of a loss event is not given, so its bytes are free. -/
def Mach.captureFails (m : Mach) (p code : Nat) (stamp : Stamp) : Mach :=
  let d := m.port p
  let m := ((m.setFld PP_STAT.VALID p 0).setFld PP_STAT.LAST p code).setFld PP_STAMP.STAMP p stamp
  let m := ((m.raise PP_STAT.FAILED p).countSat PP_STAT.RUNFAIL p).countMod PP_SEQ.SEQ p
  let m := if d.good = 0 then m else m.setFld PP_POS.POS p (unsigned 64 d.gPos)
  if m.portLimit p ≤ m.fld PP_STAT.RUNFAIL p ∧ ¬ m.flg PP_STAT.LOSS p then
    let m := m.raise PP_STAT.LOSS p
    let act := m.fld PP_FAIL.ACT p
    if act = 0 then m
    else
      let (f, m) := m.drawMany 32
      let m := m.post (m.fld PP_FAIL.EVQ p) ((List.range 32).map (fun i => BitVec.ofNat 8 (f i)))
      if act = 1 then m
      else match m.portAxis p with
        | some x => m.setSlice x { m.slice x with lossShut := true }
        | none => m
  else m

/-- A good capture: latched position `pos` with its stamp; `s` is the sample instant to which EXTRAP advances it (R121). -/
def Mach.captureGood (m : Mach) (p : Nat) (pos : Int) (stamp s : Stamp) : Mach :=
  let d := m.port p
  let delta := if d.good = 0 then 0 else pos - d.gPos
  let serial := m.fld PP_CTRL.IF p ≠ 0
  let adv := if serial && m.flg PP_CTRL.EXTRAP p && 0 < d.good && d.gStamp < stamp
    then roundDiv (delta * ((s : Int) - stamp)) (stamp - d.gStamp) else 0
  let m := (m.raise PP_STAT.VALID p).setFld PP_STAT.LAST p 0
  let m := (m.setFld PP_STAT.RUNFAIL p 0).countMod PP_SEQ.SEQ p
  let m := (m.setFld PP_POS.POS p (unsigned 64 (pos + adv))).setFld PP_STAMP.STAMP p stamp
  let m := m.setFld PP_DELTA.DELTA p (unsigned 32 (sat32 delta))
  m.setPort p { m.port p with good := min (d.good + 1) 2, gPos := pos, gPrev := d.gStamp, gStamp := stamp }

/-- The stamp of the last counted edge of a list (R116). -/
def lastStep (t : Stamp) (l : List PortEvent) : Stamp :=
  l.foldl (fun t e => match e.what with
    | .step _ => e.at_
    | _ => t) t

/-- The capture of port `p` at the sample instant `s` of period `k`. DEDUCED: a serial capture that fails carries the latch instant
of its period too, whether or not a transaction began there (R114). -/
def Mach.capture (m : Mach) (p k : Nat) (s : Stamp) : Mach :=
  let d := m.port p
  let m := m.raise PP_STAT.RUN p
  let before := d.log.filter (fun e => e.at_ < s)
  let count := tally d.count before
  let d := { d with count := count, log := d.log.filter (fun e => !(e.at_ < s)) }
  if m.fld PP_CTRL.IF p = 0 then
    let counted := lastStep d.counted before
    let m := m.setPort p { d with counted := counted, los := false }
    let m := (m.setFld PP_EDGE.STAMP p counted).setFld PP_STAT.LOS p 0
    if d.los then m.captureFails p 1 s
    else if before.any (fun e => e.what = .illegal) then m.captureFails p 2 s
    else m.captureGood p count s s
  else
    let txn := d.txn.map (fun x => if x.k ≤ k then { x with dead := true } else x)
    let m := m.setPort p { d with los := false, txn := txn, frames := d.frames.filter (fun f => k < f.k) }
    let m := (m.setFld PP_EDGE.STAMP p 0).setFld PP_STAT.LOS p 0
    let f := (d.frames.find? (fun f => f.k = k)).getD { k := k, latch := m.latchAt p s, code := 6 }
    if d.los then m.captureFails p 1 f.latch
    else if f.code ≠ 0 then m.captureFails p f.code f.latch
    else
      let pos := match d.ref with
        | none => if d.usePreset then count else (f.word : Int)
        | some r => wrap64 (count + signed (m.dlen p) (unsigned (m.dlen p) ((f.word : Int) - r)))
      (m.setPort p { m.port p with count := pos, ref := some f.word }).captureGood p pos f.latch s

/-- Every port of group `g` captures at the sample instant of period `k` (R112, R113). -/
def Mach.captures (m : Mach) (g k : Nat) : Mach :=
  let s := m.sampleStamp g k
  (List.range 72).foldl (fun m p =>
    if m.flg PP_CTRL.EN p && m.portGroup p = g && (m.port p).from_ ≤ s then m.capture p k s else m) m

/-! ### Register writes (R112, R119, R124, R126) -/

/-- Whether the enable check of R119 fails. -/
def Mach.leadBad (m : Mach) (p : Nat) : Bool :=
  let lead := m.fld PP_SLEAD.LEAD p
  m.fld PP_CTRL.IF p ≠ 0 && (m.pgP (m.portGroup p) ≤ lead
    || lead < m.ackMax p * 25 + (m.dlen p + m.crcLen p + 4) * m.maper p)

/-- Whether another enabled port holds the same axis and role (R112). -/
def Mach.roleHeld (m : Mach) (p : Nat) : Bool :=
  match m.portAxis p with
  | none => false
  | some x => (List.range 72).any (fun q => q ≠ p && m.flg PP_CTRL.EN q && m.portAxis q = some x
      && m.fld PP_MAP.ROLE q = m.fld PP_MAP.ROLE p)

/-- CFG_ERR of an enable: 0 if it is accepted. -/
def Mach.portErr (m : Mach) (p : Nat) : Nat :=
  if !m.portPower p then 1
  else if m.leadBad p then 4
  else if m.roleHeld p then 5 else 0

/-- The port is enabled: LOSS clears, and the good captures start anew. -/
def Mach.portOn (m : Mach) (p : Nat) : Mach :=
  let d := m.port p
  let m := ((m.raise PP_CTRL.EN p).setFld PP_STAT.LOSS p 0).setFld PP_STAT.RUNFAIL p 0
  let m := ((m.setFld PP_STAT.CFG_ERR p 0).setFld PP_DELTA.DELTA p 0).setFlg PP_STAT.RUN p
    (m.flg TB_PG_STAT.RUN (m.portGroup p))
  let m := if m.fld PP_CTRL.IF p = 0 then m else m.setFld PP_EDGE.STAMP p 0
  m.setPort p { d with
    log := [], count := d.now, edge := none, los := false, ref := none, usePreset := d.presetW,
    presetW := false, good := 0, from_ := m.now, since := m.now, txn := none, frames := [], lastK := none }

/-- The port is disabled. A BiSS access under way ends without a reply. -/
def Mach.portOff (m : Mach) (p : Nat) : Mach :=
  let m := (((m.setFld PP_CTRL.EN p 0).setFld PP_STAT.RUN p 0).setFld PP_STAT.CFG_ERR p 0).bissDone p 2 0
  m.setPort p { m.port p with txn := none, frames := [] }

/-- The fields of PP_CTRL other than EN. -/
def portCtrlRest : List Fld := [PP_CTRL.IF, PP_CTRL.EXTRAP, PP_CTRL.GRAY, PP_CTRL.IDX]

/-- A write of PP_CTRL: the other fields are locked while EN reads 1. -/
def Mach.portCtrlWrite (m : Mach) (p : Nat) (v : W32) : Mach :=
  let on := PP_CTRL.EN.of v ≠ 0
  let differs := portCtrlRest.any (fun f => m.fld f p ≠ f.of v)
  if m.flg PP_CTRL.EN p then
    if !on && m.portLive p then m.setFld PP_STAT.CFG_ERR p 2
    else
      let m := if on then m.setFld PP_STAT.CFG_ERR p 0 else m.portOff p
      if differs then m.setFld PP_STAT.CFG_ERR p 3 else m
  else
    let m := portCtrlRest.foldl (fun m f => m.setFld f p (f.of v)) m
    let m := m.raiseIf (PP_CTRL.IDX.of v = 3) PP_STAT.RSVW p
    if on then
      match m.portErr p with
      | 0 => m.portOn p
      | e => m.setFld PP_STAT.CFG_ERR p e
    else m.setFld PP_STAT.CFG_ERR p 0

/-- The reserved values of a port's configuration registers (R126). -/
def portReserved (o : Nat) (v : W32) : Bool :=
  if o = 0x04 then PP_MAP.ROLE.of v = 3 || (64 ≤ PP_MAP.AXIS.of v && PP_MAP.AXIS.of v ≤ 126)
  else if o = 0x10 then
    PP_SCFG.DLEN.of v < 8 || 40 < PP_SCFG.DLEN.of v || PP_SCFG.ACK_MAX.of v = 0
      || PP_SCFG.MAPER.of v < 25 || 2500 < PP_SCFG.MAPER.of v
  else if o = 0x1C then PP_FAIL.ACT.of v = 3 || PP_FAIL.LIMIT.of v = 0
  else false

/-- A word of PP_PRESET was written: the counter or position takes the value (R126). -/
def Mach.presetLoad (m : Mach) (p : Nat) : Mach :=
  m.setPort p { m.port p with count := m.fldS64 PP_PRESET.VAL p, log := [], presetW := true }

/-- A write of PP_BISS_CMD (R124). -/
def Mach.bissCmdWrite (m : Mach) (p : Nat) (v : W32) : Mach :=
  if PP_BISS_CMD.GO.of v = 0 then m
  else if m.fld PP_CTRL.IF p ≠ 3 ∨ (m.port p).biss.isSome then
    (m.raise PP_BISS_RES.DONE p).setFld PP_BISS_RES.ST p 3
  else m.setPort p { m.port p with biss := some {
    wr := PP_BISS_CMD.WR.of v ≠ 0, id := PP_BISS_CMD.ID.of v, addr := PP_BISS_CMD.ADDR.of v, data := PP_BISS_CMD.DATA.of v } }

/-- A receiver sees a line fault of 1 µs or more in the period under way (R122). -/
def Mach.lineFault (m : Mach) (p : Nat) : Mach :=
  if !m.flg PP_CTRL.EN p then m
  else (m.raise PP_STAT.LOS p).setPort p { m.port p with los := true }

/-- The port's group changed or stopped: a transaction under way runs on, and its result and those that wait are discarded. -/
def Port.drop (d : Port) : Port := { d with txn := d.txn.map (fun x => { x with dead := true }), frames := [], lastK := none }

/-- The group of a slice changed: its ports follow (R112). -/
def Mach.portsFollow (m : Mach) (x : Nat) : Mach :=
  (List.range 72).foldl (fun m p =>
    if m.flg PP_CTRL.EN p && m.portAxis p = some x
    then (m.setFlg PP_STAT.RUN p (m.flg TB_PG_STAT.RUN (m.portGroup p))).setPort p
      { (m.port p).drop with from_ := m.now + 1024, since := m.now }
    else m) m

/-- A group stopped: its ports no longer capture (R113). -/
def Mach.portsStop (m : Mach) (g : Nat) : Mach :=
  (List.range 72).foldl (fun m p =>
    if m.portGroup p = g then (m.setFld PP_STAT.RUN p 0).setPort p (m.port p).drop else m) m

end Sys2Proof.Machine
end

