-- ==== Sys2Proof/Machine/Timebase.lean ====
section
/-! DEFINITION. Period groups and their fences (R16, R38 to R43), staging sets (R44 to R47, R528) and time windows
(R52 to R56, R529). -/

namespace Sys2Proof.Machine

/-! ### Staging sets as they stand -/

def Mach.stage (m : Mach) (x : Nat) : Stage := SMap.get (fun _ => {}) m.stages x

/-- Sets a staging set; AX_STAGE_STAT shows where it stands. -/
def Mach.setStage (m : Mach) (x : Nat) (s : Stage) : Mach :=
  let m := { m with stages := SMap.set (fun _ => {}) m.stages x s }
  let m := m.setFlg AX_STAGE_STAT.OPEN_DIRTY x (s.openW ≠ [])
  let m := m.setFlg AX_STAGE_STAT.PENDING x (s.closed || s.held)
  let m := m.setFlg AX_STAGE_STAT.LOCKED x (s.closed && s.locked)
  m.setFlg AX_STAGE_STAT.TAP_LOCK x s.tapLock

/-- What an unmarked word reads as. -/
def unmarked (_ : Nat) : Option W32 := none

/-- Newer words over older ones (R44). -/
def overlay (new old : SMap (Option W32)) : SMap (Option W32) :=
  new.foldl (fun a e => SMap.set unmarked a e.1 e.2) old

/-! ### Enabling a group (R41, R42) -/

/-- The enable check that fails first, in the order of R42; 0 if none. -/
def Mach.groupErr (m : Mach) (g : Nat) : Nat :=
  let p := m.pgP g
  if m.lead g < 24 ∨ p - 2 < m.lead g then 1
  else
    let z := (m.pgAF g + p - m.pgSF g % p) % p
    if 1 ≤ z ∧ z ≤ 15 then 2
    else if p ≤ m.fld TB_PG_PHASE.PHASE g ∨ p ≤ m.pgSF g ∨ p ≤ m.pgCF g ∨ p ≤ m.pgAF g then 5 else 0

/-- Where an enabled group stands (R41): its first sample fence is the first whose tick lies 16 tk or more after the write,
and no apply fence before that sample takes place. -/
def Mach.groupStart (m : Mach) (g : Nat) : Group :=
  let k0 := leastIndex (m.startTick g 0 + m.pgSF g) (m.pgP g) ((m.now + 63) / 64 + 16)
  let kA := leastIndex (m.startTick g 0 + m.pgAF g) (m.pgP g) (m.sampleTick g k0)
  { since := m.now, k0 := k0, kS := k0, kC := k0, kL := kA, kA := kA }

/-! ### The end of a commissioning sequence (R200, R215) -/

def Mach.comm (m : Mach) (x : Nat) : Comm := (m.slice x).comm
def Mach.setComm (m : Mach) (x : Nat) (c : Comm) : Mach := m.setSlice x { m.slice x with comm := c }

/-- A commissioning event. -/
def Mach.cmEvent (m : Mach) (x kind info data : Nat) (stamp : Stamp) : Mach :=
  m.postIf (m.flg AX_CM_EVQ.EN x) (m.fld AX_CM_EVQ.QUEUE x)
    (bytesOfNat 8 stamp ++ bytesOfNat 1 kind ++ bytesOfNat 1 x ++ bytesOfNat 1 info ++ [0] ++ bytesOfNat 4 data)

/-- The sequence ends with ST and CAUSE (KIND 0). -/
def Mach.cmEnd (m : Mach) (x st cause : Nat) (stamp : Stamp) : Mach :=
  let m := (m.setFld AX_CM_STAT.ST x st).setFld AX_CM_STAT.CAUSE x cause
  let m := m.setComm x { m.comm x with part := 0, fed := false }
  let m := m.setSlice x { m.slice x with cpl := { (m.slice x).cpl with exc := {} } }
  m.cmEvent x 0 (st + 16 * cause) 0 stamp

/-- A sequence aborts (R200): the engine is freed, and the aborted part's OK bit stays 0. -/
def Mach.cmAbort (m : Mach) (x cause : Nat) (stamp : Stamp) : Mach :=
  if (m.comm x).part = 0 then m
  else
    let m := m.setComm x { m.comm x with waiting := (m.comm x).waiting.filter (fun c => 1 < c.kind) }
    m.cmEnd x 5 cause stamp

/-! ### Disabling a slice (R149) -/

/-- The disable takes effect at `stamp`: RUN clears, nothing of a computation under way is kept, the timer takes the disabled-slice
pattern. A bank change under way is lost, and a commissioning sequence aborts (R200). -/
def Mach.disableEffect (m : Mach) (x : Nat) (stamp : Stamp) : Mach :=
  let m := (m.setComm x { m.comm x with active := none }).cmAbort x 9 stamp
  let s := m.slice x
  let m := (m.setFld AX_STATE.RUN x 0).unlockSlots x
  let m := m.setSlice x { s with
    flight := none, late := none, await := none, ending := false, stopTrig := false, supStop := none,
    swap := none, swapNext := none }
  let t := m.timer x
  let m := m.setTimer x { t with legs := SMap.mapV (fun _ => {}) t.legs (fun l => { l with pend := false, live := false }) }
  let m := if x < 64 ∧ m.fld AX_OSC_STAT.PHASE x ≠ 0 then m.setFld AX_OSC_STAT.PHASE x 0 else m
  m.driveAll x m.now

/-- A change of a slice's group (R528) or a stop of its group (R43) makes its pending set one closed group again, frozen for no
fence. -/
def Stage.thaw (s : Stage) : Stage :=
  let s := if s.held then { s with
    closedW := overlay s.holdW s.closedW, closed := true, closedTag := s.holdTag,
    holdW := [], held := false } else s
  { s with locked := false }

/-- The set of slice `x` is thawed; commands whose group was the holding copy now wait for the set's next apply. -/
def Mach.moveStage (m : Mach) (x : Nat) : Mach :=
  let s := m.stage x
  let sooner (c : Ctx) : Ctx := if s.held && c.closed && c.target = x && c.gen = s.gen + 2 then { c with gen := s.gen + 1 } else c
  { m with tap := { m.tap with ctxs := m.tap.ctxs.map (fun (e : Nat × Option Ctx) => (e.1, e.2.map sooner)) } }.setStage x s.thaw

/-- A group stops (R43): RUN clears, its carriers stop (R218), disables waiting for a fence take effect (R149), and what was
frozen for its next apply fence waits for the first one after the next enable. -/
def Mach.groupStop (m : Mach) (g : Nat) : Mach :=
  let m := ((m.setFld TB_PG_CTRL.EN g 0).setFld TB_PG_STAT.RUN g 0).portsStop g
  (m.members g).foldl (fun m x =>
    let m := if (m.slice x).ending then m.disableEffect x m.now else m
    let m := (m.unlockSlots x).moveStage x
    (m.setFld AX_GT_STAT.RUN x 0).carrierMoved x) m

/-- Windows armed on group `g` count its periods anew after an enable (R53, R55). -/
def Mach.windowsRestart (m : Mach) (g : Nat) : Mach :=
  { m with wins := SMap.mapV (fun _ => {}) m.wins (fun d =>
      if d.pgMode && d.pg = g then { d with span := 0, missNext := 0, hits := [] } else d) }

/-- An accepted enable of group `g` (R41). -/
def Mach.groupOn (m : Mach) (g : Nat) : Mach :=
  (((m.raise TB_PG_CTRL.EN g).setFld TB_PG_COUNT.K g 0).setGroup g (m.groupStart g)).windowsRestart g

/-- A write of TB_PG_CTRL (R41 to R43, R47). DESIGN CHOICE (log entry 115):
a write that leaves EN at 1 keeps CFG_ERR, one that leaves it at 0 clears it, and APPLY_HOLD is stored by every write. -/
def Mach.groupCtrlWrite (m : Mach) (g : Nat) (v : W32) : Mach :=
  let m := m.setFld TB_PG_CTRL.APPLY_HOLD g (TB_PG_CTRL.APPLY_HOLD.of v)
  let on := TB_PG_CTRL.EN.of v ≠ 0
  if m.pgOn g then
    if on then m
    else if (m.members g).any (fun x => m.en x) then m.setFld TB_PG_STAT.CFG_ERR g 4
    else (m.groupStop g).setFld TB_PG_STAT.CFG_ERR g 0
  else if on then
    match m.groupErr g with
    | 0 => (m.setFld TB_PG_STAT.CFG_ERR g 0).groupOn g
    | e => m.setFld TB_PG_STAT.CFG_ERR g e
  else m.setFld TB_PG_STAT.CFG_ERR g 0

/-- The timing registers of a group, by number (R43). -/
def timingFields (reg : Nat) : List Fld :=
  match reg with
  | 0 => [TB_PG_PERIOD.P]
  | 1 => [TB_PG_PHASE.PHASE]
  | 2 => [TB_PG_SF.SV, TB_PG_SF.OFS]
  | 3 => [TB_PG_CF.OFS]
  | _ => [TB_PG_AF.OFS]

/-- A write of a timing register (R43): ignored with CFG_ERR 3 while EN is 1. A period out of range sets RSVW. -/
def Mach.groupTimeWrite (m : Mach) (g reg : Nat) (v : W32) : Mach :=
  if m.pgOn g then m.setFld TB_PG_STAT.CFG_ERR g 3
  else
    let m := (timingFields reg).foldl (fun m f => m.setFld f g (f.of v)) m
    let m := m.setFld TB_PG_STAT.CFG_ERR g 0
    let p := TB_PG_PERIOD.P.of v
    m.raiseIf (reg = 0 && (p < 1250 || 250000 < p)) TB_STATUS.RSVW 0

/-! ### Staging sets -/

/-- The live offset of a mirror offset (R150, R153): 0xC000 + x for x below 0x2000, 0xE000 + (x − 0x6000) from there on. -/
def liveOff (o : Nat) : Nat := if o < 0xE000 then o - 0xC000 else o - 0x8000

/-- Whether a written staged word carries a reserved field value (R137, R162, R163, R170, R178). -/
def stagedReserved (x o : Nat) (w : W32) : Bool :=
  if 64 ≤ x then false
  else if o = AX_LIM_CTRL.MODE.off then AX_LIM_CTRL.MODE.of w = 3
  else if o = AX_STOP_CTRL.PAIR.off then 8 ≤ AX_STOP_CTRL.PAIR.of w && AX_STOP_CTRL.PAIR.of w < 15
  else if o = AX_OSC.SEED.off then AX_OSC.SEED.of w = 3
  else if o = AX_MAP_XSTEP.V.off || o = AX_MAP_YSTEP.V.off then w = 0
  else if o = AX_MAP.LX.off then
    AX_MAP.LX.of w = 0 || 10 < AX_MAP.LX.of w || 9 < AX_MAP.LY.of w
  else if AX_CPL_SEL.QTY.off ≤ o && o < AX_CPL_SEL.QTY.off + 64 && (o - AX_CPL_SEL.QTY.off) % 8 = 0 then
    5 < AX_CPL_SEL.QTY.of w || AX_CPL_SEL.SRC.of w / 16 ≠ x / 16
  else false

/-- A write of one mirror word by a requester the interlock does not hold up: into the open buffer, marked (R44). -/
def Mach.mirrorPut (m : Mach) (x o : Nat) (w : W32) : Mach :=
  match findCard (cardsOf .sl x) (liveOff o) with
  | none => m
  | some c =>
    let lane := 64 ≤ x && liveOff o = CV_FFB.MANT.off && m.flg CV_BRK.EN x && m.fld CV_CTRL.MODE x ≠ 2
    if !c.staged || lane then m
    else
      let s := m.stage x
      let m := m.setStage x { s with openW := SMap.set unmarked s.openW o (some (w &&& c.rd)) }
      m.raiseIf (stagedReserved x (liveOff o) w) AX_STATE.RSVW x

/-- A close with tag `tag` (R44, R46): into the closed buffer, or, between lock and apply, into the holding copy. -/
def Mach.closeStage (m : Mach) (x tag : Nat) : Mach :=
  let s := m.stage x
  if s.closed && s.locked then
    m.setStage x { s with openW := [], holdW := overlay s.openW s.holdW, held := true, holdTag := tag }
  else
    m.setStage x { s with openW := [], closedW := overlay s.openW s.closedW, closed := true, closedTag := tag }

/-- The Tapster generation a close made now belongs to: how many applies of this set will have happened. -/
def Mach.closeGen (m : Mach) (x : Nat) : Nat :=
  let s := m.stage x
  if s.closed && s.locked then s.gen + 2 else s.gen + 1

/-- A mirror read (R45): the open-buffer value where marked, else the live value. -/
def Mach.mirrorGet (m : Mach) (x o : Nat) : W32 :=
  match SMap.get unmarked (m.stage x).openW o with
  | some w => w
  | none =>
    match findCard (cardsOf .sl x) (liveOff o) with
    | some c => if c.staged then m.rg (Blk.base .sl x + liveOff o) else 0
    | none => 0


/-- The staging lock of group `g` (R23, R47): freezes every pending closed buffer, unless APPLY_HOLD reads 1. -/
def Mach.lockStages (m : Mach) (g : Nat) : Mach :=
  if m.flg TB_PG_CTRL.APPLY_HOLD g then m
  else (m.members g).foldl (fun m x =>
    let s := m.stage x
    if s.closed then m.setStage x { s with locked := true } else m) m

/-- Whether an applied group marks the word of a field. -/
def marks (w : SMap (Option W32)) (mirror : Nat) : Bool := (SMap.get unmarked w mirror).isSome

/-- Whether limiter words of zero are held back: the axis is enabled and not at rest (R156). -/
def Mach.moving (m : Mach) (x : Nat) : Bool := m.flg AX_STATE.RUN x && !m.flg AX_LIM_STAT.AT_REST x

/-- The four limits of the limiter and their mirror offsets. -/
def limitWords : List (Fld × Nat) :=
  [(AX_LIM_VMAX.VAL, 0xE008), (AX_LIM_AMAX.VAL, 0xE010), (AX_LIM_DMAX.VAL, 0xE018), (AX_LIM_JMAX.VAL, 0xE020)]

/-- What an applied group tells the limiter and the swap sequence (R156, R158, R160 to R165, R169), and the map check of
R137. -/
def Mach.afterApply (m : Mach) (x : Nat) (w : SMap (Option W32)) : Mach :=
  if 64 ≤ x then m
  else
    let ph := m.fld AX_LIM_STAT.PHASE x
    let stopped := m.flg AX_STATE.RUN x && (ph = 3 || ph = 4)
    let s := m.slice x
    let live := m.en x
    let m := m.setSlice x { s with
      newTag := s.newTag || (live && !stopped && marks w 0xE058),
      newPos := s.newPos || (live && !stopped && (marks w 0xE040 || marks w 0xE044)) }
    let m := m.raiseIf (m.moving x && limitWords.any (fun l => (marks w l.2 || marks w (l.2 + 4)) && m.fld l.1 x = 0))
      AX_STATE.RSVW x
    let m :=
      if marks w 0xC034 then
        let bad := ((m.fld AX_MAP.YAXIS x) / 16 ≠ x / 16)
          || 10 < (let l := m.fld AX_MAP.LX x; if l = 0 || 10 < l then 10 else l)
            + (let l := m.fld AX_MAP.LY x; if 9 < l then 0 else l)
        (m.setFld AX_MAP.MODE x (if bad then 0 else m.fld AX_MAP.MODE x)).raiseIf bad AX_STATE.RSVW x
      else m
    if marks w 0xE080 && m.flg AX_OSC.GO x && live then
      let seed := m.fld AX_OSC.SEED x
      let s := m.slice x
      if m.fld AX_OSC_STAT.PHASE x = 2 || (match s.flight with | some f => f.opening | none => false) then
        m.setSlice x { s with swapNext := some seed }
      else (m.setSlice x { s with swap := some seed }).setFld AX_OSC_STAT.PHASE x 1
    else m

/-- The apply fence of one set (R44): every word of a frozen closed buffer goes live at once, the tag and the stamp are
recorded, and a holding copy takes the closed buffer's place. -/
def Mach.applyStage (m : Mach) (x : Nat) (stamp : Stamp) : Mach :=
  let s := m.stage x
  if !(s.closed && s.locked) then m
  else
    let m := s.closedW.foldl (fun m e =>
      match e.2 with
      | some w => m.setRg (Blk.base .sl x + liveOff e.1) w
      | none => m) m
    let m := (m.setFld AX_STAGE_STAT.APPLIED_TAG x s.closedTag).setFld AX_STAGE_AFSTAMP.STAMP x stamp
    let m := m.setStage x { s with
      closedW := s.holdW, closed := s.held, closedTag := s.holdTag, locked := false,
      holdW := [], held := false, gen := s.gen + 1 }
    m.afterApply x s.closedW

end Sys2Proof.Machine
end

