-- ==== Sys2Proof/Machine/Slices.lean ====
section
/-! DEFINITION. The loop slices' datapath (R132 to R147): one period's computation from the state the last committed period
left, as the contents of the deposit. Every named value of a stage is written back as 20 bits (R129). -/

namespace Sys2Proof.Machine

/-- A coefficient word of slice `x` (R127). -/
def Mach.co (m : Mach) (f : Fld) (x : Nat) : Num := numOfWord (m.rg (f.addr x))

/-- A word of coefficient bank A (false) or B of slice `x` (R151). -/
def Mach.bk (m : Mach) (x : Nat) (b : Bool) (f : Fld) : Num := numOfWord (m.rg (f.addr x + (if b then 0x1000 else 0)))

/-- A flag of a period, in the bit positions of AX_STICKY (R152). -/
def flagOf (b : Bool) (f : Fld) : Nat := if b then 2 ^ f.lo else 0

/-- A value in coefficient format, as a word. -/
def numWord (a : Num) : Nat := (wordOfNum a).toNat

/-- A 40-bit state rounded to 20 bits, as a word (R171). -/
def stWord (s : St40) : Nat := numWord (round1 15 s.dy).1

def one : Num := { m := 2 ^ 18, e := 1 }

/-- Within ±`lim`, a limit used by its magnitude (R131). -/
def Num.clip (v lim : Num) : Num := if lim.abs.dy.lt v.abs.dy then { m := sgn v.m * lim.abs.m, e := lim.e } else v

/-! ### Register fields with their substitutes -/

/-- AX_CPR: 0 is treated as the reset value. -/
def Mach.cpr (m : Mach) (x : Nat) : Nat :=
  let v := m.fld AX_CPR.CPR x
  if v = 0 then 0x100000 else v

/-- AX_POLE: values other than 1 to 64 are treated as 1. -/
def Mach.poles (m : Mach) (x : Nat) : Nat :=
  let v := m.fld AX_POLE.POLES x
  if v = 0 ∨ 64 < v then 1 else v

/-- AX_CTRL.MODE and CV_CTRL.MODE: 0b11 is treated as 0b00. -/
def Mach.slMode (m : Mach) (x : Nat) : Nat :=
  let v := m.fld AX_CTRL.MODE x
  if v = 3 then 0 else v

/-- AX_BUS.BUSCH: values 8 to 14 are treated as 15, none. -/
def Mach.busCh (m : Mach) (x : Nat) : Option Nat :=
  let v := m.fld AX_BUS.BUSCH x
  if v < 8 then some v else none

/-- AX_MAP.LX and LY with their substitutes. -/
def Mach.mapLX (m : Mach) (x : Nat) : Nat :=
  let v := m.fld AX_MAP.LX x
  if v = 0 ∨ 10 < v then 10 else v
def Mach.mapLY (m : Mach) (x : Nat) : Nat :=
  let v := m.fld AX_MAP.LY x
  if 9 < v then 0 else v

/-- AX_CHAIN's bits: CM 0, PL 1, VL 2, FF 3, BQ 4 to 7. -/
def Mach.chainBits (m : Mach) (x : Nat) : Nat := bitsOf (m.rg (AX_CHAIN.CM.addr x)).toNat 7 0

/-! ### Position intake (R134, R135) -/

/-- A good capture taken into a port's history, with the rate it gives (R134). The spec gives no rate over a span of 0. -/
def Caps.take (c : Caps) (serial : Bool) (pos : Int) (stamp edge : Nat) (f : Nat) : Caps :=
  if c.n = 0 then { n := 1, p1 := pos, s1 := stamp, e1 := edge }
  else
    let dp := pos - c.p1
    let span := if serial then stamp - c.s1 else edge - c.e1
    let (vn, vd) : Int × Nat :=
      if serial || dp ≠ 0 then (if span = 0 then (signed 20 f, 1) else (dp, span))
      else if c.vn.natAbs * (stamp - edge) ≤ c.vd then (c.vn, c.vd)
      else (sgn c.vn, stamp - edge)
    { n := 2, p1 := pos, s1 := stamp, e1 := edge, p0 := c.p1, s0 := c.s1, e0 := c.e1, vn := vn, vd := vd }

/-- What a slice takes from one port at its wake: the position, whether it was bridged, the history. -/
structure PosIn where
  pos : Int := 0
  bridged : Bool := false
  caps : Caps := {}
  deriving DecidableEq, Repr

/-- The delivered capture of port `p`, a failed one bridged to the sample instant `s` (R135). -/
def Mach.posIn (m : Mach) (p : Option Nat) (c : Caps) (s : Stamp) (f : Nat) : PosIn :=
  match p with
  | none => { caps := c }
  | some p =>
    let pos := m.fldS64 PP_POS.POS p
    if m.flg PP_STAT.VALID p then
      { pos := pos
        caps := c.take (m.fld PP_CTRL.IF p ≠ 0) (m.port p).gPos (m.fld PP_STAMP.STAMP p) (m.fld PP_EDGE.STAMP p) f }
    else
      { pos := if c.n = 0 then pos else c.p1 + roundDiv (c.vn * ((s : Int) - c.s1)) c.vd
        bridged := true
        caps := c }

/-- The electrical angle θ of a motor position (R133). -/
def Mach.thetaOf (m : Mach) (x : Nat) (pm : Int) : Nat :=
  let c := m.cpr x
  ((pm % (c : Int)).toNat * m.poles x * 2 ^ 32 / c + (m.rg (AX_ANG_OFS.V.addr x)).toNat) % 2 ^ 32

/-! ### Currents and bus voltage (R133, R136, R147) -/

/-- The delivered result of a slot: filtered or raw. -/
def Mach.slotRes (m : Mach) (s : Nat) (flt : Bool) : Int :=
  signed 16 (m.fld (if flt then CB_SLOT_RES.FLT else CB_SLOT_RES.RAW) s)

/-- A code times a scale. -/
def scaled (code : Int) (k : Num) : Dy := { m := code * k.m, e := k.e - 19 }

/-- V_bus of an axis (R136). -/
def Mach.vbus (m : Mach) (x : Nat) : Num :=
  match m.busCh x with
  | none => m.co AX_VBUS_FIX.MANT x
  | some c =>
    let s := 16 * (2 * c + 1) + 12
    let code := if m.en (64 + c) then m.slotRes s true else signed 16 (m.fld CB_SLOT_LIVE.CODE s)
    (round1 15 (scaled code (m.co AX_VSCALE.MANT x))).1

/-! ### The correction map (R137, R138, R430, R431) -/

/-- Reads entries of page `page` for slice `x`: none where one of them is uncorrectable. -/
def Mach.mapRead (m : Mach) (x page : Nat) : List Nat → Option (List (Num × Num)) × Mach
  | [] => (some [], m)
  | i :: is =>
    let (r, m) := m.load (21 + x) (0x20000000 + page * 0x2000 + i * 8) 8
    let (rs, m) := m.mapRead x page is
    match r, rs with
    | some b, some l =>
      let v := natOfBytes b
      (some ((numOfWord (BitVec.ofNat 32 v), numOfWord (BitVec.ofNat 32 (v / 2 ^ 32))) :: l), m)
    | _, _ => (none, m)

/-- E[i] + f × (E[i + 1] − E[i]), f in 2^−16, as an accumulation. -/
def lerp (f : Nat) (a b : Num) : Dy :=
  let k : Num := { m := f * 8, e := 0 }
  accum [a.term, mulT k b, negT (mulT k a)]

def lerpN (f : Nat) (a b : Num) : Num := (round1 15 (lerp f a b)).1

/-- A coordinate in 2^−16 clamped to the table: entry, fraction, and whether it was outside. -/
def clampCoord (c : Int) (n : Nat) : Nat × Nat × Bool :=
  let top : Int := (n - 1 : Nat) * 65536
  if c < 0 then (0, 0, true) else if top < c then (n - 1, 0, true) else ((c / 65536).toNat, (c % 65536).toNat, false)

/-- Division rounded towards minus infinity. -/
def divDown (a : Int) (b : Nat) : Int := a.fdiv b

/-- Step of a map axis: 0 is treated as 1. -/
def mapStep (v : Nat) : Nat := if v = 0 then 1 else v

/-- Stage 4: (corr_p, corr_τ) unrounded, MAP_OOR; none where an entry could not be read. -/
def Mach.mapStage (m : Mach) (x : Nat) (pm pfb py : Int) : Option (Dy × Dy × Bool) × Mach :=
  let page := m.fld AX_MAP.PAGE x
  let nx := 2 ^ m.mapLX x
  let ny := 2 ^ m.mapLY x
  let xl := divDown ((pfb - m.fldS64 AX_MAP_XORG.V x) * 65536) (mapStep (m.fld AX_MAP_XSTEP.V x))
  match m.fld AX_MAP.MODE x with
  | 0 => (some ({}, {}, false), m)
  | 1 =>
    let c := m.cpr x
    let q := (pm % (c : Int)).toNat * nx * 65536 / c
    let i := q / 65536
    let f := q % 65536
    let (r, m) := m.mapRead x page [i, (i + 1) % nx]
    match r with
    | some [a, b] => (some (lerp f a.1 b.1, lerp f a.2 b.2, false), m)
    | _ => (none, m)
  | 2 =>
    let (i, f, oor) := clampCoord xl nx
    let (r, m) := m.mapRead x page [i, min (i + 1) (nx - 1)]
    match r with
    | some [a, b] => (some (lerp f a.1 b.1, lerp f a.2 b.2, oor), m)
    | _ => (none, m)
  | _ =>
    let yl := divDown (py - m.fldS64 AX_MAP_YORG.V x * 65536) (mapStep (m.fld AX_MAP_YSTEP.V x))
    let (i, f, o1) := clampCoord xl nx
    let (j, g, o2) := clampCoord yl ny
    let i' := min (i + 1) (nx - 1)
    let j' := min (j + 1) (ny - 1)
    let (r, m) := m.mapRead x page [i + nx * j, i' + nx * j, i + nx * j', i' + nx * j']
    match r with
    | some [a, b, c, d] =>
      (some (lerp g (lerpN f a.1 b.1) (lerpN f c.1 d.1), lerp g (lerpN f a.2 b.2) (lerpN f c.2 d.2), o1 || o2), m)
    | _ => (none, m)

/-! ### The servo stages 5 to 12 (R139, R140) -/

/-- A PI stage's result: output written back, candidate limit rule applied, flags. -/
structure PiRes where
  u : Num := {}
  i : St40 := {}
  clamped : Bool := false
  ovf : Bool := false
  deriving DecidableEq, Repr

/-- A PI controller of ceiling `emax` limited to ±`lim` (R131). -/
def piStage (emax : Int) (kp ki : Num) (i : St40) (e lim : Num) : PiRes :=
  let o := piStep kp ki i e [] lim.abs.neg lim.abs
  let (u, o1) := round1 emax o.u
  let (s, o2) := if piKeeps e o.raw o.u then (i, false) else state40 emax u.e o.cand
  { u := u, i := s, clamped := (o.raw.sub o.u).m ≠ 0, ovf := o1 || o2 }

/-- A coefficient times a 40-bit state, as a term; bits below the accumulator drop. -/
def mulSt (b : Num) (s : St40) : Term := (b.m * s.m / 2 ^ 20, b.e + s.e)

/-- Every state of a biquad at `v` (R139, R164, R231), held under the stage's ceiling, and overflow (R131). -/
def Biquad.at_ (emax : Int) (v : Num) : Biquad × Bool :=
  let (s, o) := state40 emax (min v.e emax) v.dy
  ({ x1 := s, x2 := s, y1 := s, y2 := s }, o)

/-- One biquad: output, states held at the output's exponent or a larger one (R131), overflow. -/
def biquadStep (emax : Int) (b0 b1 b2 a1 a2 : Num) (q : Biquad) (x : Num) : Num × Biquad × Bool :=
  let y := accum [mulT b0 x, mulSt b1 q.x1, mulSt b2 q.x2, negT (mulSt a1 q.y1), negT (mulSt a2 q.y2)]
  let (u, o) := round1 emax y
  let (x1, o1) := state40 emax u.e x.dy
  let (x2, o2) := state40 emax u.e q.x1.dy
  let (y1, o3) := state40 emax u.e y
  let (y2, o4) := state40 emax u.e q.y1.dy
  (u, { x1 := x1, x2 := x2, y1 := y1, y2 := y2 }, o || o1 || o2 || o3 || o4)

def Dyn.bq (d : Dyn) (s : Nat) : Biquad :=
  match s with
  | 0 => d.bq0
  | 1 => d.bq1
  | 2 => d.bq2
  | _ => d.bq3

def Dyn.setBq (d : Dyn) (s : Nat) (q : Biquad) : Dyn :=
  match s with
  | 0 => { d with bq0 := q }
  | 1 => { d with bq1 := q }
  | 2 => { d with bq2 := q }
  | _ => { d with bq3 := q }

/-- Biquads 0 to 3 in turn from `tc`: their inputs and outputs, τ_f, the new states, overflow. `seed` says whether a
biquad starts from its first input: it enters the chain, or a shutter or the enable resets it. -/
def Mach.biquads (m : Mach) (x : Nat) (bank : Bool) (chain : Nat) (seed : Nat → Bool) (emax : Int) (tc : Num) (d : Dyn) :
    Num × Dyn × Bool × List Num :=
  (List.range 4).foldl (fun (u, d, o, us) s =>
    let d := { d with bx := d.bx ++ [u] }
    if bitOf chain (4 + s) then
      let (q, o0) := if seed s then Biquad.at_ emax u else (d.bq s, false)
      let w (a : Fld) := m.bk x bank (a.sh (0x20 * s))
      let (y, q, ov) := biquadStep emax (w BK_B0_A.MANT) (w BK_B1_A.MANT) (w BK_B2_A.MANT) (w BK_A1_A.MANT)
        (w BK_A2_A.MANT) q u
      (y, d.setBq s q, o || o0 || ov, us ++ [y])
    else (u, d, o, us ++ [u])) (tc, { d with bx := [] }, false, [])

/-- The rule of R140 on i_d* and i_q*: clipped values, ILIM; `f` is the root's free choice. -/
def limitCurrent (imax id iq : Num) (f : Nat) : Num × Num × Bool :=
  let d := id.clip imax
  let r := sqrt20 f ((imax.dy.mul imax.dy).sub (d.dy.mul d.dy))
  let q := iq.clip r
  (d, q, d ≠ id || q ≠ iq)

/-! ### Stages 13 to 15 (R141 to R143) -/

/-- Clarke and Park: [i_d, i_q, i_0], overflow. -/
def parkStage (emax : Int) (ia ib ic cosT sinT : Num) : List Num × Bool :=
  let two3 : Num := { third with e := 0 }
  let (al, o1) := block emax [accum [mulT two3 ia, negT (mulT third ib), negT (mulT third ic)],
    accum [mulT invSqrt3 ib, negT (mulT invSqrt3 ic)]]
  let a := al.getD 0 {}
  let b := al.getD 1 {}
  let (r, o2) := block emax [accum [mulT a cosT, mulT b sinT], accum [negT (mulT a sinT), mulT b cosT],
    accum [mulT third ia, mulT third ib, mulT third ic]]
  (r, o1 || o2)

/-- The voltage circle (R142): v_d, v_q after it, and VSAT. -/
def circle (vmax vd vq : Num) (f : Nat) : Num × Num × Bool :=
  let sq (a : Num) := a.dy.mul a.dy
  if (sq vmax).lt ((sq vd).add (sq vq)) then
    let d := vd.clip vmax
    let r := sqrt20 f ((sq vmax).sub (sq d))
    (d, { r with m := sgn vq.m * r.m }, true)
  else (vd, vq, false)

/-- One d or q controller of stage 14, its integrator within ±VDQ_MAX and its output unlimited. -/
def dqPi (kp ki : Num) (i : St40) (e lim : Num) : PiOut :=
  let cand := (accum [i.term, mulT ki e]).clip lim.abs.wide
  let raw := accum [mulT kp e, cand.term]
  { cand := cand, raw := raw, u := raw }

/-- The integrator after the circle: kept where the circle changed the value and the error pushes further (R131, R142); `e0` is
the exponent of the stage's block. -/
def dqState (emax e0 : Int) (i : St40) (o : PiOut) (e raw fin : Num) : St40 × Bool :=
  if raw ≠ fin && piKeeps e raw.dy fin.dy then (i, false) else state40 emax e0 o.cand

/-- The duties d_x of a voltage vector (R143, steps 2 to 6): values, DCLIP, overflow. -/
def duties (emax : Int) (vd vq cosV sinV rv dmin dmax : Num) : List Num × Bool × Bool :=
  let (ab, o1) := block emax [accum [mulT vd cosV, negT (mulT vq sinV)], accum [mulT vd sinV, mulT vq cosV]]
  let a := ab.getD 0 {}
  let b := ab.getD 1 {}
  let half : Num := { one with e := 0 }
  let (ph, o2) := block emax [a.dy, accum [negT (mulT half a), mulT halfSqrt3 b],
    accum [negT (mulT half a), negT (mulT halfSqrt3 b)]]
  let hi := ph.foldl (fun h v => if h.dy.lt v.dy then v else h) (ph.getD 0 {})
  let lo := ph.foldl (fun l v => if v.dy.lt l.dy then v else l) (ph.getD 0 {})
  let (v0, o3) := round1 emax (accum [mulT half hi, mulT half lo])
  let (ds, o4) := block emax (ph.map (fun v => accum [half.term, mulT v rv, negT (mulT v0 rv)]))
  let cl := ds.map (fun d => if dmax.dy.lt d.dy then dmax else if d.dy.lt dmin.dy then dmin else d)
  let (out, o5) := block emax (cl.map Num.dy)
  (out, decide (cl ≠ ds), o1 || o2 || o3 || o4 || o5)

/-- round(d × 65,536), limited to 0 to 65,535. -/
def dutyWord (d : Num) : Nat := (max 0 (min 65535 (shiftRound d.m (d.e - 3)))).toNat

/-! ### One full period of an axis -/

/-- Whether the slice resets its integrators at this wake: the first one, or a shutter in force (R149, R231). -/
def Mach.fresh0 (m : Mach) (x : Nat) (d : Dyn) : Bool := d.first || m.flg AX_GT_STAT.SHUT x

/-- The integrators at zero. -/
def Dyn.zeroed (d : Dyn) : Dyn := { d with iP := {}, iV := {}, iD := {}, iQ := {}, iVb := {}, iI := {} }

/-- A period's inputs (R133 to R136): currents, motor and feedback intake, θ and Δθ. -/
structure AxIn where
  cur : List Num := []
  curOvf : Bool := false
  mot : PosIn := {}
  fb : PosIn := {}
  theta : Nat := 0
  dth : Int := 0
  w : Num := {}
  vbus : Num := {}
  deriving DecidableEq, Repr

/-- Stage 1 and the positions of stage 2. -/
def Mach.axIn (m : Mach) (x : Nat) (d : Dyn) (c : Cpl) (s : Stamp) (f : Nat → Nat) : AxIn :=
  let mode := m.slMode x
  let k := m.co AX_ISCALE.MANT x
  let flt := m.flg AX_CTRL.ISRC x
  let (cur, ov) := block (m.fld AX_EXP.DQ x) ((slotsOf x).map (fun sl => scaled (m.slotRes sl flt) k))
  let mot := if mode = 2 then {} else m.posIn (m.portOf x 0) d.motor s (f 0)
  let load := m.portOf x 1
  let fb := if mode ≠ 0 then {} else if load.isSome then m.posIn load d.load s (f 1) else mot
  let theta := if mode = 2 then c.th else m.thetaOf x mot.pos
  let dth : Int := if mode = 2 then shiftRound c.w.m (c.w.e + 13)
    else match d.theta with
      | none => 0
      | some t => signed 32 (unsigned 32 ((theta : Int) - t))
  let w := if mode = 2 then c.w else (round1 15 { m := dth, e := -32 }).1
  { cur := cur, curOvf := ov, mot := mot, fb := fb, theta := theta, dth := dth, w := w, vbus := m.vbus x }

/-- The corrected feedback p_fb + corr_p + THERM on the grid of 2^−64. -/
def fbGrid (pfb : Int) (corr therm : Num) : Int := pfb * 2 ^ 64 + shiftI corr.m (corr.e + 45) + shiftI therm.m (therm.e + 45)

/-- The 64-bit signed 48.16 value of a position on the grid. -/
def to48 (p : Int) : Int := signed 64 (unsigned 64 (shiftRound p (-48)))

/-- The outputs of stage 3 (R154): v* and a* as one block. -/
def Mach.limOut (m : Mach) (x : Nat) (l : Lim) (f : Nat) : Num × Num :=
  let v := shiftRound l.v (-32)
  let a := shiftRound l.a (-32)
  let p := m.pgP (m.pgOf x)
  let r := quot20 f 1 (p * 64)
  let vs : Dy := ({ m := v, e := -32 } : Dy).mul ((m.co AX_WSCALE.MANT x).dy.mul r.dy)
  let as_ : Dy := ({ m := a, e := -32 } : Dy).mul (m.co AX_LIM_ASCALE.MANT x).dy
  let (b, _) := block 15 [vs, as_]
  (b.getD 0 {}, b.getD 1 {})

/-- The servo stages' results. -/
structure Servo where
  dyn : Dyn
  vRef : Num := {}
  tauC : Num := {}
  bq : List Num := []
  tau : Num := {}
  id : Num := {}
  iq : Num := {}
  flags : Nat := 0
  deriving DecidableEq, Repr

/-- Stages 5 to 12. `pStar` and `pFb` are 64.16 and 48.16; `seedAll` resets the biquads (R149, R231). -/
def Mach.servoStages (m : Mach) (x : Nat) (d : Dyn) (seedAll : Bool) (c : Cpl) (pStar pFb : Int) (vS aS vfb corrT : Num)
    (f : Nat → Nat) : Servo :=
  let b (fl : Fld) := m.bk x d.bank fl
  let ch := m.chainBits x
  let enters (i : Nat) : Bool := bitOf ch i && !bitOf d.chain i
  let ePL : Int := m.fld AX_EXP.PL x
  let eVL : Int := m.fld AX_EXP.VL x
  let eBQ : Int := m.fld AX_EXP.BQ x
  let eFF : Int := m.fld AX_EXP.FF x
  let diff := max (-(2 ^ 63)) (min (2 ^ 63 - 1) (pStar - pFb))
  let (eP, oP1) := round1 ePL (({ m := diff, e := -16 } : Dy).mul (m.co AX_PSCALE.MANT x).dy)
  let pl := bitOf ch 1
  let rP : PiRes := if pl then
      piStage ePL (b BK_KP_P.MANT) (b BK_KI_P.MANT) (if enters 1 then {} else d.iP) eP (b BK_VLIM.MANT)
    else { i := {} }
  let (vRef, oP2) := round1 ePL (accum [rP.u.term, mulT (b BK_KVF.MANT) vS])
  let vl := bitOf ch 2
  let (eV, oV1) := round1 eVL (vRef.dy.sub vfb.dy)
  let rV : PiRes := if vl then
      piStage eVL (b BK_KP_V.MANT) (b BK_KI_V.MANT) (if enters 2 then {} else d.iV) eV (b BK_TLIM.MANT)
    else { i := {} }
  let (tauF, d, oB, us) := m.biquads x d.bank ch (fun s => seedAll || enters (4 + s)) eBQ rV.u d
  let ff := bitOf ch 3
  let fric := (round1 15 (vS.dy.mul (b BK_RVBAND.MANT).dy)).1.clip one
  let (tau, oF) := if ff then round1 eFF (accum [tauF.term, mulT (b BK_KA.MANT) aS, mulT (b BK_KFV.MANT) vS,
      mulT (b BK_KFC.MANT) fric, c.tau.term, corrT.term]) else (tauF, false)
  let (iqs, oI) := block eFF [(m.co AX_IREF_D.MANT x).dy, accum [mulT (b BK_KT_INV.MANT) tau, c.exc.term]]
  let (id, iq, ilim) := limitCurrent (b BK_IMAX.MANT) (iqs.getD 0 {}) (iqs.getD 1 {}) (f 0)
  let (ii, _) := block eFF [id.dy, iq.dy]
  let flags := flagOf ((pl && oP1) || oP2 || rP.ovf) AX_STICKY.OVF_PL ||| flagOf (rP.clamped) AX_STICKY.CLMP_PL
    ||| flagOf ((vl && oV1) || rV.ovf) AX_STICKY.OVF_VL ||| flagOf rV.clamped AX_STICKY.CLMP_VL
    ||| flagOf oB AX_STICKY.OVF_BQ ||| flagOf (oF || oI || (ff && c.tauOvf)) AX_STICKY.OVF_FF ||| flagOf ilim AX_STICKY.ILIM
  { dyn := { d with iP := rP.i, iV := rV.i, uP := rP.u, eP := eP, uV := rV.u, eV := eV, chain := ch }
    vRef := vRef, tauC := rV.u, bq := us, tau := tau, id := ii.getD 0 {}, iq := ii.getD 1 {}, flags := flags }

/-- Results of stages 13 to 15. -/
structure Current where
  dyn : Dyn
  dq0 : List Num := []
  id : Num := {}
  iq : Num := {}
  vd : Num := {}
  vq : Num := {}
  duty : List Nat := []
  dx : List Num := []
  flags : Nat := 0
  deriving DecidableEq, Repr

/-- Stages 13 to 15. -/
def Mach.currentStages (m : Mach) (x : Nat) (d : Dyn) (a : AxIn) (id iq : Num) (f : Nat → Nat) : Current :=
  let b (fl : Fld) := m.bk x d.bank fl
  let e : Int := m.fld AX_EXP.DQ x
  let (cosT, sinT) := cosSin (f 0) (f 1) a.theta
  let (dq, o1) := parkStage e (a.cur.getD 0 {}) (a.cur.getD 1 {}) (a.cur.getD 2 {}) cosT sinT
  let i0 := dq.getD 2 {}
  let zlim := b BK_ZLIM.MANT
  let zseq := zlim.m ≠ 0 && zlim.abs.dy.lt i0.abs.dy
  let (es, o2) := block e [id.dy.sub (dq.getD 0 {}).dy, iq.dy.sub (dq.getD 1 {}).dy]
  let eD := es.getD 0 {}
  let eQ := es.getD 1 {}
  let pd := dqPi (b BK_KP_D.MANT) (b BK_KI_D.MANT) d.iD eD (b BK_VDQ_MAX.MANT)
  let pq := dqPi (b BK_KP_Q.MANT) (b BK_KI_Q.MANT) d.iQ eQ (b BK_VDQ_MAX.MANT)
  let (wi, o3) := round1 e (a.w.dy.mul (dq.getD 1 {}).dy)
  let (psi, o8) := round1 e (accum [mulT (b BK_XD.MANT) (dq.getD 0 {}), (b BK_PSIW.MANT).term])
  let (vs, o4) := block e [accum [pd.raw.term, negT (mulT (b BK_XQ.MANT) wi)], accum [pq.raw.term, mulT a.w psi]]
  let vd0 := vs.getD 0 {}
  let vq0 := vs.getD 1 {}
  let (vmax, _) := round1 15 ((b BK_MOD_MAX.MANT).abs.dy.mul (a.vbus.abs.dy.mul invSqrt3.dy))
  let (vd, vq, vsat) := circle vmax vd0 vq0 (f 2)
  let (vv, _) := block e [vd.dy, vq.dy]
  let e0 := (vv.getD 0 {}).e
  let (iD, o5) := dqState e e0 d.iD pd eD vd0 vd
  let (iQ, o6) := dqState e e0 d.iQ pq eQ vq0 vq
  let uD := (round1 15 ((pd.raw.add vd.dy).sub vd0.dy)).1
  let uQ := (round1 15 ((pq.raw.add vq.dy).sub vq0.dy)).1
  let thV := unsigned 32 ((a.theta : Int) + shiftRound ((b BK_ADV.MANT).m * a.dth) ((b BK_ADV.MANT).e - 19))
  let (cosV, sinV) := cosSin (f 3) (f 4) thV
  let (dx, dclip, o7) := duties e vd vq cosV sinV (recip (f 5) a.vbus) (b BK_DMIN.MANT) (b BK_DMAX.MANT)
  let low := !({ m := 1, e := -8 } : Dy).le a.vbus.dy
  let duty := if low then [32768, 32768, 32768] else dx.map dutyWord
  let flags := flagOf (a.curOvf || o1 || o2 || o3 || o4 || o5 || o6 || o7 || o8) AX_STICKY.OVF_DQ ||| flagOf zseq AX_STICKY.ZSEQ
    ||| flagOf vsat AX_STICKY.VSAT ||| flagOf (dclip && !low) AX_STICKY.DCLIP ||| flagOf low AX_STICKY.VBUS_LOW
  { dyn := { d with iD := iD, iQ := iQ, uD := uD, uQ := uQ, eD := eD, eQ := eQ }
    dq0 := dq, id := id, iq := iq, vd := vv.getD 0 {}, vq := vv.getD 1 {}, duty := duty, dx := dx, flags := flags }

/-! ### Trace nodes (R171) -/

/-- Sets node values. -/
def putNodes (n : SMap Nat) (l : List (Nat × Nat)) : SMap Nat := l.foldl (fun n e => SMap.set (fun _ => 0) n e.1 (e.2 % 2 ^ 32)) n

/-- A block's exponent as a node value. -/
def expNode (a : Num) : Nat := unsigned 32 a.e

/-! ### The published outputs (R152) -/

/-- An output word of slice `x`. -/
def outW (f : Fld) (x : Nat) (v : Nat) : Nat × W32 := (f.addr x, BitVec.ofNat 32 v)

/-- An output double word. -/
def outD (f : Fld) (x : Nat) (v : Int) : List (Nat × W32) :=
  let n := unsigned 64 v
  [(f.addr x, BitVec.ofNat 32 n), (f.addr x + 4, BitVec.ofNat 32 (n / 2 ^ 32))]

/-- The limiter's published words. -/
def limOuts (x : Nat) (l : Lim) : List (Nat × W32) :=
  outD AX_LIM_OUT_P.POS x (to48 l.p) ++ outD AX_LIM_OUT_V.VAL x (shiftRound l.v (-32))
    ++ outD AX_LIM_OUT_A.VAL x (shiftRound l.a (-32))

end Sys2Proof.Machine
end

