-- ==== Sys2Proof/Machine/Wake.lean ====
section
/-! DEFINITION. The wake of a slice and its deposit (R18, R19, R49, R144, R147, R163 to R165, R171 to R174, R187). -/

namespace Sys2Proof.Machine

/-! ### Full and open periods of an axis -/

/-- Whether a stage's PI controller is in the chain: position, velocity. -/
def plIn (ch : Nat) : Bool := bitOf ch 1
def vlIn (ch : Nat) : Bool := bitOf ch 2

/-- Stage 4 of a period: corr_p, corr_τ, flags. An entry with an uncorrectable error leaves the previous corrections (R431). -/
def Mach.corrections (m : Mach) (x : Nat) (d : Dyn) (pm pfb py : Int) : (Num × Num × Nat) × Mach :=
  if bitOf (m.chainBits x) 0 then
    let (r, m) := m.mapStage x pm pfb py
    match r with
    | none => ((d.corrP, d.corrT, 0), m)
    | some (cp, ct, oor) =>
      let (b, o) := block (m.fld AX_EXP.CM x) [cp, ct]
      ((b.getD 0 {}, b.getD 1 {}, flagOf o AX_STICKY.OVF_CM ||| flagOf oor AX_STICKY.MAP_OOR), m)
  else (({}, {}, 0), m)

/-- The integrator a swap leaves (R164). -/
def seedState (seed : Nat) (emax : Int) (i : St40) (u e kp lim : Num) : St40 :=
  match seed with
  | 1 => {}
  | 2 => (state40 emax i.e (i.dy.clip lim.abs.dy)).1
  | _ => (state40 emax u.e ((accum [u.term, negT (mulT kp e)]).clip lim.abs.dy)).1

/-- The state an open period leaves: banks exchanged, integrators and biquads seeded (R163, R164). -/
def Mach.seeded (m : Mach) (x : Nat) (d : Dyn) (seed : Nat) : Dyn :=
  let bank := !d.bank
  let b (fl : Fld) := m.bk x bank fl
  let servo := m.slMode x = 0
  let ch := d.chain
  let eDQ : Int := m.fld AX_EXP.DQ x
  let d := (List.range 4).foldl (fun d s =>
    if servo && bitOf ch (4 + s) then d.setBq s (Biquad.at_ (m.fld AX_EXP.BQ x) (d.bx.getD s {})).1 else d) d
  let s (e : Int) (i : St40) (u er : Num) (kp lim : Fld) := seedState seed e i u er (b kp) (b lim)
  { d with
    bank := bank, opened := true
    iP := if servo && plIn ch then s (m.fld AX_EXP.PL x) d.iP d.uP d.eP BK_KP_P.MANT BK_VLIM.MANT else d.iP
    iV := if servo && vlIn ch then s (m.fld AX_EXP.VL x) d.iV d.uV d.eV BK_KP_V.MANT BK_TLIM.MANT else d.iV
    iD := s eDQ d.iD d.uD d.eD BK_KP_D.MANT BK_VDQ_MAX.MANT
    iQ := s eDQ d.iQ d.uQ d.eQ BK_KP_Q.MANT BK_VDQ_MAX.MANT }

/-- AX_LIM_STAT of a limiter. -/
def limStat (x : Nat) (l : Lim) (old : W32) : Nat × W32 :=
  (AX_LIM_STAT.PHASE.addr x, AX_LIM_STAT.AT_REST.into (AX_LIM_STAT.LOCK.into (AX_LIM_STAT.PHASE.into old l.phase)
    (bit (l.locked && l.mode = 2))) (bit l.ls.rest))

/-- The trace nodes of the limiter (R171): the published p* in whole counts, v*, a*. -/
def limNodes (l : Lim) (v a : Num) : List (Nat × Nat) :=
  [(0x24, unsigned 32 (shiftRound l.p (-48) / 65536)), (0x25, numWord v), (0x26, numWord a), (0x83, expNode v)]

/-- An axis's open period (R163): the limiter steps, and the seeds are computed. Its captures join the ports' histories (R135). -/
def Mach.openPeriod (m : Mach) (x k : Nat) (s t : Stamp) (seed : Nat) (f : Nat → Nat) : Flight :=
  let sl := m.slice x
  let d0 := if m.fresh0 x sl.dyn then sl.dyn.zeroed else sl.dyn
  let a := m.axIn x d0 sl.cpl s f
  let servo := m.slMode x = 0
  let load := (m.portOf x 1).isSome
  let base : Flight := {
    k := k, sample := s, wake := t, opening := true, pub := sl.pub
    dyn := { m.seeded x d0 seed with first := false, motor := a.mot.caps, load := if servo && load then a.fb.caps else d0.load }
    shutPos := (a.mot.bridged || a.fb.bridged) && m.flg AX_CTRL.PFAIL x }
  if servo then
    let o := m.limPeriod x d0.lim d0.first (fbGrid a.fb.pos d0.corrP (m.co AX_THERM.MANT x)) sl.newTag sl.newPos sl.relTrig
      sl.stopTrig (f 20)
    let (vS, aS) := m.limOut x o.lim (f 3)
    { base with
      dyn := { base.dyn with lim := o.lim, nodes := putNodes base.dyn.nodes (limNodes o.lim vS aS) }
      outs := limStat x o.lim 0 :: limOuts x o.lim
      pub := { sl.pub with lim := o.lim, vPu := vS, aPu := aS }
      flags := flagOf o.limited AX_STICKY.LIMITED
      evs := o.evs, shutStop := o.shut
      tookTag := sl.newTag, tookPos := sl.newPos, tookRel := sl.relTrig, tookStop := sl.stopTrig }
  else base

/-- The published outputs of stages 13 to 15 and 12 (R152). -/
def curOuts (x : Nat) (r : Current) (theta flags : Nat) : List (Nat × W32) :=
  [outW AX_OUT_ID.MANT x (numWord (r.dq0.getD 0 {})), outW AX_OUT_IQ.MANT x (numWord (r.dq0.getD 1 {})),
   outW AX_OUT_VD.MANT x (numWord r.vd), outW AX_OUT_VQ.MANT x (numWord r.vq),
   outW AX_OUT_IDREF.MANT x (numWord r.id), outW AX_OUT_IQREF.MANT x (numWord r.iq),
   outW AX_OUT_DAB.V x (r.duty.getD 0 0 + 65536 * r.duty.getD 1 0), outW AX_OUT_DC.V x (r.duty.getD 2 0),
   outW AX_OUT_THETA.V x theta, outW AX_OUT_FLAGS.V x flags]

/-- The trace nodes of stages 1 and 12 to 15 (R171). -/
def Mach.curNodes (m : Mach) (x : Nat) (a : AxIn) (r : Current) (f : Nat) : List (Nat × Nat) :=
  let n (l : List Num) (i : Nat) := numWord (l.getD i {})
  let code (i : Nat) (flt : Bool) := unsigned 32 (m.slotRes ((slotsOf x).getD i 0) flt)
  [(0x01, n a.cur 0), (0x02, n a.cur 1), (0x03, n a.cur 2), (0x04, n r.dq0 0), (0x05, n r.dq0 1), (0x06, n r.dq0 2),
   (0x07, numWord r.id), (0x08, numWord r.iq), (0x09, stWord r.dyn.iD), (0x0A, stWord r.dyn.iQ),
   (0x0B, numWord r.vd), (0x0C, numWord r.vq), (0x0D, r.duty.getD 0 0), (0x0E, r.duty.getD 1 0), (0x0F, r.duty.getD 2 0),
   (0x10, a.theta), (0x11, unsigned 32 a.dth), (0x12, numWord a.vbus),
   (0x40, code 0 false), (0x41, code 1 false), (0x42, code 2 false), (0x43, code 0 true), (0x44, code 1 true), (0x45, code 2 true),
   (0x81, expNode (a.cur.getD 0 {})), (0x8C, expNode r.id), (0x8D, expNode (r.dq0.getD 0 {})), (0x8E, expNode r.vd),
   (0x8F, expNode (r.dx.getD 0 {})), (0x90, f)]

/-- A full period of an axis in current-only or grid-companion mode (R132, R140, R145). -/
def Mach.currentPeriod (m : Mach) (x k : Nat) (s t : Stamp) (f : Nat → Nat) : Flight :=
  let sl := m.slice x
  let d := if m.fresh0 x sl.dyn then sl.dyn.zeroed else sl.dyn
  let a := m.axIn x d sl.cpl s f
  let comp := m.slMode x = 2
  let (id, iq, ilim) := limitCurrent (m.bk x d.bank BK_IMAX.MANT) (if comp then sl.cpl.idref else m.co AX_IREF_D.MANT x)
    (m.co AX_IREF_Q.MANT x) (f 2)
  let (ii, o) := block (m.fld AX_EXP.DQ x) [id.dy, iq.dy]
  let r := m.currentStages x d a (ii.getD 0 {}) (ii.getD 1 {}) (fun i => f (4 + i))
  let hold := a.mot.bridged
  let flags := r.flags ||| flagOf ilim AX_STICKY.ILIM ||| flagOf o AX_STICKY.OVF_DQ ||| flagOf hold AX_STICKY.POS_HOLD
  { k := k, sample := s, wake := t, closing := d.opened
    dyn := { r.dyn with
      first := false, opened := false, theta := some a.theta, motor := a.mot.caps
      nodes := putNodes r.dyn.nodes (m.curNodes x a r (f 31)) }
    pub := { iq := r.dq0.getD 1 {} }
    outs := outW AX_OUT_VFB.MANT x 0 :: outW AX_OUT_TAU.MANT x 0 :: curOuts x r a.theta flags
    flags := flags, duty := r.duty, shutPos := hold && m.flg AX_CTRL.PFAIL x }

/-- A full period of an axis in servo mode (R132), and the reads of the map it makes. -/
def Mach.servoPeriod (m : Mach) (x k : Nat) (s t : Stamp) (f : Nat → Nat) : Flight × Mach :=
  let sl := m.slice x
  let reset := m.fresh0 x sl.dyn
  let d := if reset then sl.dyn.zeroed else sl.dyn
  let a := m.axIn x d sl.cpl s f
  let load := (m.portOf x 1).isSome
  let (vfb, oVE) := if a.fb.bridged then (d.vfb, false)
    else round1 (m.fld AX_EXP.VE x) ((quot20 (f 2) a.fb.caps.vn a.fb.caps.vd).dy.mul (m.co AX_WSCALE.MANT x).dy)
  let ((corrP, corrT, mapFlags), m) := m.corrections x d a.mot.pos a.fb.pos sl.cpl.py
  let fbg := fbGrid a.fb.pos corrP (m.co AX_THERM.MANT x)
  let o := m.limPeriod x d.lim d.first fbg sl.newTag sl.newPos sl.relTrig sl.stopTrig (f 20)
  let (vS, aS) := m.limOut x o.lim (f 3)
  let pStar := shiftRound o.lim.p (-48)
  let sv := m.servoStages x d reset sl.cpl pStar (shiftRound fbg (-48)) vS aS vfb corrT (fun i => f (4 + i))
  let r := m.currentStages x sv.dyn a sv.id sv.iq (fun i => f (6 + i))
  let hold := a.mot.bridged || a.fb.bridged
  let flags := r.flags ||| sv.flags ||| mapFlags ||| flagOf oVE AX_STICKY.OVF_VE ||| flagOf o.limited AX_STICKY.LIMITED
    ||| flagOf hold AX_STICKY.POS_HOLD
  let nodes := m.curNodes x a r (f 31) ++
    [(0x20, unsigned 32 a.fb.pos), (0x21, numWord vfb), (0x22, numWord corrP), (0x23, numWord corrT),
     (0x27, numWord sv.dyn.eP),
     (0x28, stWord sv.dyn.iP), (0x29, numWord sv.vRef), (0x2A, numWord sv.dyn.eV), (0x2B, stWord sv.dyn.iV),
     (0x2C, numWord sv.tauC), (0x30, numWord (sv.bq.getD 0 {})), (0x31, numWord (sv.bq.getD 1 {})),
     (0x32, numWord (sv.bq.getD 2 {})), (0x33, numWord (sv.bq.getD 3 {})), (0x34, numWord sv.tau),
     (0x35, numWord sl.cpl.tau), (0x82, expNode vfb), (0x84, expNode corrP), (0x85, expNode sv.vRef),
     (0x86, expNode sv.tauC), (0x87, expNode (sv.bq.getD 0 {})), (0x88, expNode (sv.bq.getD 1 {})),
     (0x89, expNode (sv.bq.getD 2 {})), (0x8A, expNode (sv.bq.getD 3 {})), (0x8B, expNode sv.tau)] ++ limNodes o.lim vS aS
  ({ k := k, sample := s, wake := t, closing := d.opened
     dyn := { r.dyn with
       first := false, opened := false, theta := some a.theta, motor := a.mot.caps, vfb := vfb
       load := if load then a.fb.caps else d.load
       lim := o.lim, corrP := corrP, corrT := corrT, nodes := putNodes r.dyn.nodes nodes }
     pub := { pfb := to48 fbg, vPu := vS, aPu := aS, tau := sv.tau, iq := r.dq0.getD 1 {}, vfb := vfb, lim := o.lim }
     outs := [limStat x o.lim 0, outW AX_OUT_VFB.MANT x (numWord vfb), outW AX_OUT_TAU.MANT x (numWord sv.tau)]
       ++ outD AX_OUT_PFB.V x (to48 fbg) ++ limOuts x o.lim ++ curOuts x r a.theta flags
     flags := flags, duty := r.duty, evs := o.evs
     page := if m.fld AX_MAP.MODE x = 0 then none else some (m.fld AX_MAP.PAGE x)
     shutPos := hold && m.flg AX_CTRL.PFAIL x, shutStop := o.shut
     tookTag := sl.newTag, tookPos := sl.newPos, tookRel := sl.relTrig, tookStop := sl.stopTrig }, m)

/-! ### Converter slices (R147, R186 to R188) -/

/-- V_st of a channel (R186). -/
def Mach.storeV (m : Mach) (x : Nat) : Num := (round1 15 (scaled (m.slice x).vst (m.co CV_ST_SCALE.MANT x))).1

/-- ST_FULL and ST_EMPTY follow V_st and the window (R186). -/
def Mach.storeFlags (m : Mach) (x : Nat) : Mach :=
  let on := m.slMode x = 0 && m.flg CV_BRK.STORE x
  let v := (m.storeV x).dy
  (m.setFlg CV_BRK_STAT.ST_FULL x (on && (m.co CV_ST_VMAX.MANT x).dy.le v)).setFlg CV_BRK_STAT.ST_EMPTY x
    (on && v.le (m.co CV_ST_VMIN.MANT x).dy)

/-- The effective limits (IMAX_SRC, IMAX_SNK) of a channel (R131, R186). -/
def Mach.cvLimits (m : Mach) (x : Nat) : Num × Num :=
  let s := m.slice x
  let src := (m.bk x s.dyn.bank CB_IMAX_SRC.MANT).abs
  let snk := (m.bk x s.dyn.bank CB_IMAX_SNK.MANT).abs
  let fails := m.slMode x = 0 && m.flg CV_BRK.STORE x && 4 ≤ s.stBad
  (if fails || m.flg CV_BRK_STAT.ST_EMPTY x then {} else src, if fails || m.flg CV_BRK_STAT.ST_FULL x then {} else snk)

/-- The larger of two values. -/
def Num.max (a b : Num) : Num := if a.dy.lt b.dy then b else a

/-- The grid-angle tracker (R187): state after one period, overflow. -/
def Mach.tracker (m : Mach) (x : Nat) (s : Slice) (d : Dyn) (f : Nat → Nat) : Dyn × Bool :=
  let e : Int := m.fld CV_EXP.CV x
  let k := m.co CV_GRID_SCALE.MANT x
  let (us, o1) := block e [scaled s.uab k, scaled s.ubc k]
  let uab := us.getD 0 {}
  let ubc := us.getD 1 {}
  let (ab, o2) := block e [accum [mulT { third with e := 0 } uab, mulT third ubc], accum [mulT invSqrt3 ubc]]
  let al := ab.getD 0 {}
  let be := ab.getD 1 {}
  let (c, sn) := cosSin (f 0) (f 1) d.gth
  let (dq, o3) := block e [accum [mulT al c, mulT be sn], accum [negT (mulT al sn), mulT be c]]
  let ud := dq.getD 0 {}
  let uq := dq.getD 1 {}
  let gmin := m.co CV_GRID_MIN.MANT x
  let (er, o4) := round1 e (uq.dy.mul (recip (f 2) (ud.max gmin)).dy)
  let wn := m.co CV_GRID_WNOM.MANT x
  let lim : Num := { wn.abs with e := wn.e - 3 }
  let r := piStage e (m.co CV_GRID_KP.MANT x) (m.co CV_GRID_KI.MANT x) d.gI er lim
  let (w, o5) := round1 e (accum [wn.term, r.u.term])
  let low := ud.dy.lt gmin.dy
  let lossN := if low then d.gLossN + 1 else 0
  let near := er.abs.dy.lt { m := 1, e := -6 }
  let lost := lossN = 4
  ({ d with
     gth := unsigned 32 ((d.gth : Int) + shiftRound w.m (w.e + 13))
     gw := w, gud := ud, gI := if lost then {} else r.i
     gLockN := if lost || !near then 0 else d.gLockN + 1
     gLossN := lossN, gOkN := if low then 0 else d.gOkN + 1 }, o1 || o2 || o3 || o4 || o5 || r.ovf)

/-- A voltage or current loop of a converter slice: PI plus a feedforward, within [lo, hi] (R147). -/
def cvLoop (emax : Int) (kp ki ff : Num) (i : St40) (er lo hi : Num) : PiRes :=
  let o := piStep kp ki i er [ff.term] lo hi
  let (un, o1) := round1 emax o.u
  let (s, o2) := if piKeeps er o.raw o.u then (i, false) else state40 emax un.e o.cand
  { u := un, i := s, clamped := (o.raw.sub o.u).m ≠ 0, ovf := o1 || o2 }

/-- A period of a converter slice. -/
def Mach.cvPeriod (m : Mach) (x k : Nat) (s t : Stamp) (f : Nat → Nat) : Flight :=
  let sl := m.slice x
  let d := if m.fresh0 x sl.dyn then { sl.dyn.zeroed with gI := {} } else sl.dyn
  let b (fl : Fld) := m.bk x d.bank fl
  let e : Int := m.fld CV_EXP.CV x
  let mode := m.slMode x
  let flt := m.flg CV_CTRL.ISRC x
  let sl0 := slotsOf x
  let (iv, o1) := block e [scaled (m.slotRes (sl0.getD 0 0) flt) (m.co AX_ISCALE.MANT x),
    scaled (m.slotRes (sl0.getD 1 0) flt) (m.co AX_VSCALE.MANT x)]
  let i := iv.getD 0 {}
  let v := iv.getD 1 {}
  let ffb := m.co CV_FFB.MANT x
  let (d, oG) := if mode = 1 then m.tracker x sl d f else (d, false)
  let (src, snk) := m.cvLimits x
  let (eVb, oV) := round1 e ((m.co CV_VREF.MANT x).dy.sub v.dy)
  let rV : PiRes := if mode = 2 then {} else cvLoop e (b CB_KP_VB.MANT) (b CB_KI_VB.MANT) ffb d.iVb eVb snk.neg src
  let (eI, oI) := round1 e (rV.u.dy.sub i.dy)
  let rI : PiRes := if mode = 0 then
      cvLoop e (b CB_KP_I.MANT) (b CB_KI_I.MANT) (b CB_D_FF.MANT) d.iI eI (b CB_DMIN.MANT) (b CB_DMAX.MANT).abs
    else {}
  let (above, oB1) := round1 e (v.dy.sub (b CB_V_ON.MANT).dy)
  let (br, oB2) := round1 e ((accum [mulT (b CB_KB.MANT) above]).clamp {} (b CB_DMAX.MANT).abs.dy)
  let dv := if mode = 0 then rI.u else if mode = 2 then br else {}
  let duty := dutyWord dv
  let idref := (round1 15 ((rV.u.dy.mul v.dy).mul (recip (f 3) (round1 15 (d.gud.dy.mul { m := 3, e := -1 })).1).dy)).1
  let flags := flagOf (o1 || oG || (mode ≠ 2 && (oV || rV.ovf)) || (mode = 0 && (oI || rI.ovf)) || (mode = 2 && (oB1 || oB2))) CV_STICKY.OVF_CV
    ||| flagOf rV.clamped CV_STICKY.CLMP_V ||| flagOf rI.clamped CV_STICKY.DCLIP
  let dw := if mode = 1 then 0 else duty
  { k := k, sample := s, wake := t, closing := d.opened
    dyn := { d with
      first := false, opened := false, iVb := rV.i, iI := rI.i, uV := rV.u, eV := eVb, vfb := v
      nodes := putNodes d.nodes [(0x60, numWord i), (0x61, numWord v), (0x62, numWord rV.u), (0x63, stWord rV.i),
        (0x64, stWord rI.i), (0x65, numWord dv), (0x66, numWord ffb)] }
    pub := { vfb := v, th := d.gth, w := d.gw, idref := idref }
    outs := [outW AX_OUT_ID.MANT x (numWord i), outW AX_OUT_IQ.MANT x (numWord v), outW AX_OUT_IDREF.MANT x (numWord rV.u),
      outW AX_OUT_DAB.V x dw, outW AX_OUT_FLAGS.V x flags]
    flags := flags, duty := if mode = 1 then [] else [duty, duty, duty, duty] }

/-! ### The wake (R18, R19) -/

/-- The wake of slice `x` at `t`, once everything its sample fence marked has been delivered. -/
def Mach.sliceWake (m : Mach) (x : Nat) (t : Stamp) : Mach :=
  match (m.slice x).await with
  | none => m
  | some (k, s) =>
    let m := (m.until t).raise AX_STATE.RUN x
    let m := m.raiseIf (s + 14 * 64 < t) TB_PG_STAT.DELIV_LATE (m.pgOf x)
    let (f, m) := m.drawMany 32
    let sl := m.slice x
    let servo := x < 64 && m.slMode x = 0
    let (fl, m) : Flight × Mach :=
      if 64 ≤ x then (m.cvPeriod x k s t f, m)
      else match (if sl.dyn.opened then none else sl.swap) with
        | some seed => (m.openPeriod x k s t seed f, m)
        | none =>
          let m := if sl.dyn.opened then m.setFld AX_OSC_STAT.PHASE x 3 else m
          if servo then m.servoPeriod x k s t f else (m.currentPeriod x k s t f, m)
    let tr := { sl.trace with
      sel := (m.rg (AX_TRC_SEL.N0.addr x)).toNat, gen := m.fld AX_TRC_STAT.SELGEN x }
    if (m.group (m.pgOf x)).kC ≠ k then m.setSlice x { sl with await := none, late := some fl, trace := tr }
    else m.setSlice x { sl with
      await := none, flight := some fl, trace := tr
      supStop := if servo && sl.stopTrig then sl.supStop.map (fun _ => m.now) else sl.supStop
      newTag := sl.newTag && !servo, newPos := sl.newPos && !servo, relTrig := sl.relTrig && !servo
      stopTrig := sl.stopTrig && !servo }

/-! ### Trace (R171 to R174, R432) -/

/-- A record of a period (R172). -/
def traceRecord (tr : Trace) (fl : Flight) (miss trig : Bool) (slack : Nat) : List Byte :=
  let node (i : Nat) := SMap.get (fun _ => 0) fl.dyn.nodes (bitsOf tr.sel (8 * i + 7) (8 * i))
  let rf := bit miss + 2 * bit fl.opening + 4 * bit fl.closing + 8 * bit trig
  bytesOfNat 6 fl.k ++ bytesOfNat 1 tr.gen ++ bytesOfNat 1 rf ++ bytesOfNat 4 (node 0) ++ bytesOfNat 4 (node 1)
    ++ bytesOfNat 4 (node 2) ++ bytesOfNat 4 (node 3)
    ++ bytesOfNat 4 (fl.flags ||| flagOf miss AX_STICKY.DLMISS) ++ bytesOfNat 2 (min slack 65535) ++ [0, 0]

/-- AX_TRC_CTRL.MODE: 0b11 is treated as off. -/
def Mach.trcMode (m : Mach) (x : Nat) : Nat :=
  let v := m.fld AX_TRC_CTRL.MODE x
  if v = 3 then 0 else v

/-- A slice event (R167). -/
def Mach.sliceEvent (m : Mach) (x kind : Nat) (stamp : Stamp) (tag data : Nat) : Mach :=
  m.postIf (bitOf (m.fld AX_EVQ.KMASK x) kind) (m.fld AX_EVQ.QUEUE x)
    (bytesOfNat 8 stamp ++ bytesOfNat 1 kind ++ bytesOfNat 1 x ++ bytesOfNat 2 tag ++ bytesOfNat 4 data)

/-- A record joins the ring (R172 to R174): the oldest one not streamed is overwritten when the ring is full. -/
def Trace.push (tr : Trace) (r : List Byte) : Trace × Bool :=
  if 1024 ≤ tr.ring.length then ({ tr with ring := tr.ring.drop 1 ++ [r] }, true) else ({ tr with ring := tr.ring ++ [r] }, false)

/-- In triggered mode, the first period whose flags meet the mask, or a software trigger (R173). A period that is not recorded
leaves TRIG to the next record (log 120). -/
def Mach.traceTrigger (m : Mach) (x : Nat) (fl : Flight) (miss : Bool) (commit : Stamp) : Mach :=
  let s := m.slice x
  let flags := fl.flags ||| flagOf miss AX_STICKY.DLMISS
  if s.trace.left.isNone && !s.trace.trig && (s.trace.swtrig || (flags &&& m.fld AX_TRC_TRIG.MASK x) ≠ 0) then
    ((m.setSlice x { s with trace := { s.trace with trig := true, swtrig := false } }).raise AX_TRC_STAT.TRIGD x).sliceEvent x 4
      commit 0 0
  else m

/-- The period of `fl` is recorded (R172, R173). -/
def Mach.recordPeriod (m : Mach) (x : Nat) (fl : Flight) (miss : Bool) (slack : Nat) (commit : Stamp) : Mach :=
  let mode := m.trcMode x
  let m := if mode = 2 then m.traceTrigger x fl miss commit else m
  let s := m.slice x
  let tr := s.trace
  if mode = 0 ∨ tr.left = some 0 then m
  else if 0 < tr.dec then m.setSlice x { s with trace := { tr with dec := tr.dec - 1 } }
  else
    let tr := { tr with dec := m.fld AX_TRC_CTRL.DEC x }
    if mode = 1 then
      let (tr, lost) := tr.push (traceRecord tr fl miss false slack)
      (m.setSlice x { s with trace := { tr with lost := tr.lost || lost } }).raiseIf lost AX_TRC_STAT.OVR x
    else
      let (tr, _) := tr.push (traceRecord tr fl miss tr.trig slack)
      let left := if tr.trig then some (m.fld AX_TRC_CTRL.POST x) else tr.left.map (· - 1)
      let (pad, m) : List (List Byte) × Mach :=
        if left = some 0 ∧ tr.ring.length < 1024 then
          (let n := 1024 - tr.ring.length
           let (f, m) := m.drawMany (32 * n)
           ((List.range n).map (fun i => (List.range 32).map (fun j => BitVec.ofNat 8 (f (32 * i + j)))), m))
        else ([], m)
      m.setSlice x { s with trace := { tr with left := left, trig := false, ring := pad ++ tr.ring } }

/-- Recording starts afresh (R173). -/
def Mach.traceRestart (m : Mach) (x : Nat) : Mach :=
  let s := m.slice x
  let m := ((m.setFld AX_TRC_WPTR.WPTR x 0).setFld AX_TRC_STAT.DONE x 0).setFld AX_TRC_STAT.TRIGD x 0
  m.setSlice x { s with trace := { s.trace with ring := [], dec := 0, left := none, lost := false, swtrig := false, trig := false } }

/-- DSZ: values outside 10 to 20 are treated as 10. -/
def Mach.trcSize (m : Mach) (x : Nat) : Nat :=
  let v := m.fld AX_TRC_CTRL.DSZ x
  if v < 10 ∨ 20 < v then 10 else v

/-- Where the next record of a stream goes (R432). -/
def Mach.trcAddr (m : Mach) (x : Nat) : Nat :=
  let b := m.fld AX_TRC_DBASE.DBASE x
  let b := if b < 0x80000000 then 0x80000000 else b / 32 * 32
  0x80000000 + (b + m.fld AX_TRC_WPTR.WPTR x % 2 ^ m.trcSize x * 32) % 2 ^ 31

/-! ### The deposit (R144) -/

/-- The computation of slice `x` ends at `t`: in time, at its fence, or late, which only the trace shows. -/
def Mach.deposit (m : Mach) (x : Nat) (t : Stamp) : Mach :=
  let s := m.slice x
  let g := m.pgOf x
  match s.late with
  | some fl => ((m.until t).setSlice x { s with late := none }).recordPeriod x fl true 0 (m.commitStamp g fl.k)
  | none =>
    match s.flight with
    | none => m
    | some fl =>
      if fl.done.isSome then m
      else
        let t := max t fl.wake
        let m := (m.until t).setSlice x { s with flight := some { fl with done := some t } }
        let c := m.commitStamp g fl.k
        if t < c then m.recordPeriod x fl false (c - t) c else m

end Sys2Proof.Machine
end

