-- ==== Sys2Proof/Machine/Coupling.lean ====
section
/-! DEFINITION. Axis coupling and the energy broker (R27, R175 to R193). The terms of a period are formed at the receiver's
sample fence and act at that period's commit fence (R184). -/

namespace Sys2Proof.Machine

/-! ### What a source supplies (R27, R176) -/

/-- The values slice `src` supplies to a receiver of group `g` whose sample instant is `s`: those of the source's latest
commit fence, or, from another group, of the latest one at least 4 tk before. -/
def Mach.pubOf (m : Mach) (src g : Nat) (s : Stamp) : Pub :=
  let sl := m.slice src
  if !m.liveSlice src then {}
  else if m.pgOf src = g ∨ sl.pub.stamp + 256 ≤ s then sl.pub
  else sl.pubOld

/-- The quantity QTY of a source (R177). -/
def Pub.qty (p : Pub) (q : Nat) : Num :=
  match q with
  | 1 => p.aPu
  | 2 => p.vPu
  | 3 => p.tau
  | 4 => p.iq
  | 5 => p.vfb
  | _ => {}

/-- Whether axis `b` is served by the coupling unit of axis `a` (R175). -/
def sameQuad (a b : Nat) : Bool := a / 16 = b / 16

/-- The sum of an axis's eight coupling terms (R177). -/
def Mach.termSum (m : Mach) (x g : Nat) (s : Stamp) : Dy :=
  if !m.flg AX_CPL_CTRL.EN x then {}
  else accum ((List.range 8).map (fun i =>
    let src := m.fld (AX_CPL_SEL.SRC.sh (8 * i)) x
    if sameQuad x src then mulT (m.co (AX_CPL_GAIN.MANT.sh (8 * i)) x)
      ((m.pubOf src g s).qty (m.fld (AX_CPL_SEL.QTY.sh (8 * i)) x)) else (0, 0)))

/-! ### Gantry (R179 to R181) -/

/-- A gantry's yaw law in the follower's block `x`: d in 2^−16 counts, τ_y, the integrator. -/
def Mach.yawLaw (m : Mach) (x : Nat) (s : Stamp) : Int × Num × St40 :=
  let ms := m.fld AX_GAN_CTRL.MASTER x
  let g := m.pgOf x
  let a := m.pubOf x g s
  let b := m.pubOf ms g s
  let d := a.pfb - b.pfb - m.fldS64 AX_GAN_OFS.V x * 65536
  if !m.liveSlice x || !m.liveSlice ms || m.flg AX_GT_STAT.SHUT x || m.flg AX_GT_STAT.SHUT ms then (d, {}, {})
  else
    let e : Int := m.fld AX_EXP.FF x
    let (ey, _) := round1 e (({ m := d, e := -16 } : Dy).mul (m.co AX_GAN_PSCALE.MANT x).dy)
    let r := piStage e (m.co AX_GAN_KP.MANT x) (m.co AX_GAN_KI.MANT x) (m.slice x).yawI ey (m.co AX_GAN_YLIM.MANT x)
    let (dv, _) := round1 e (a.vfb.dy.sub b.vfb.dy)
    let (ty, _) := round1 e (accum [mulT (m.co AX_GAN_KD.MANT x) dv, r.u.term])
    (d, ty, r.i)

/-- Half of a value, exactly. -/
def Num.half (a : Num) : Dy := { m := a.m, e := a.e - 20 }

/-- The yaw controllers of group `g` (R179), by follower: the integrator moves on, and (follower, master, d, τ_y) of each. -/
def Mach.yaws (m : Mach) (g : Nat) (s : Stamp) : List (Nat × Nat × Int × Num) × Mach :=
  (List.range 64).foldl (fun (l, m) x =>
    if m.pgOf x = g && m.flg AX_CPL_STAT.GAN_ON x then
      let (d, ty, i) := m.yawLaw x s
      (l ++ [(x, m.fld AX_GAN_CTRL.MASTER x, d, ty)], m.setSlice x { m.slice x with yawI := i })
    else (l, m)) ([], m)

/-! ### Collision envelopes (R182, R183) -/

/-- The stopping point of a source, in 2^−16 counts, and the direction in which it lies infinitely far (0: it does not). -/
def Mach.sepPoint (m : Mach) (x : Nat) (l : Lim) : Int × Int :=
  let ll := m.stopLimits x l
  if ll.noStop l.ls then (0, l.ls.dir) else (roundDiv (stopPoint ll l.ls) (2 ^ 48), 0)

/-- The range of a signed 64-bit count, in 2^−16 counts. -/
def sat80 (i : Int) : Int := max (-(2 ^ 79)) (min (2 ^ 79 - 65536) i)

/-- Stop separation and actual separation of the envelope in block `x`, in 2^−16 counts. -/
def Mach.separations (m : Mach) (x : Nat) (s : Stamp) : Int × Int :=
  let p := m.fld AX_ENV_CTRL.PARTNER x
  let g := m.pgOf x
  let a := m.pubOf x g s
  let b := m.pubOf p g s
  let o := m.fldS64 AX_ENV_OFS.V x * 65536
  let (sa, ia) := m.sepPoint x a.lim
  let (sb, ib) := m.sepPoint p b.lim
  (sat80 (sb - sa + o + (ib - ia) * 2 ^ 80), sat80 (b.pfb - a.pfb + o))

/-! ### The terms of one period -/

/-- What the coupling units deliver to slice `x` for the period whose sample instant is `s`. -/
def Mach.coupleSlice (m : Mach) (x : Nat) (s : Stamp) (yaws : List (Nat × Nat × Int × Num)) : Mach :=
  if 64 ≤ x then m
  else
    let g := m.pgOf x
    let share := yaws.foldl (fun (a : Dy) (y : Nat × Nat × Int × Num) =>
      if y.1 = x then a.sub y.2.2.2.half else if y.2.1 = x then a.add y.2.2.2.half else a) ({} : Dy)
    let (tau, ovf) := round1 (m.fld AX_EXP.FF x) ((m.termSum x g s).add share)
    let yaw := (yaws.find? (fun y => y.1 = x)).map (fun y => (y.2.2.1,
      decide (m.fld AX_GAN_TRIP.V x ≠ 0 ∧ m.fld AX_GAN_TRIP.V x * 65536 < y.2.2.1.natAbs)))
    let env : Option (Int × Int × Bool × Bool) :=
      if m.flg AX_CPL_STAT.ENV_ON x then
        let (st, ac) := m.separations x s
        let shrinks : Bool := match (m.slice x).sepOld with
          | some o => st < o
          | none => false
        some (st, ac, shrinks && decide (st < m.fld AX_ENV_GAP.V x * 65536), decide (ac < m.fld AX_ENV_HARD.V x * 65536))
      else none
    let ch := 64 + m.fld AX_CTRL.GCH x
    let comp := m.slMode x = 2
    let src := if comp then m.pubOf ch g s else {}
    let apart := comp && m.pgOf ch ≠ g
    let sl := m.slice x
    let m := m.setSlice x { sl with cpl := {
      tau := tau, tauOvf := ovf, yaw := yaw, env := env
      py := (m.pubOf (m.fld AX_MAP.YAXIS x) g s).pfb
      th := src.th, w := src.w, idref := if apart then {} else src.idref, exc := sl.cpl.exc } }
    m.raiseIf (apart && m.liveSlice x) AX_STATE.RSVW x

/-- Whether the coupling units are on (R175). -/
def Mach.coupling (m : Mach) : Bool := m.pdOn 17

/-- The coupling units at the sample fence of group `g` whose sample instant is `s` (R27); while they are off they deliver
nothing. -/
def Mach.couple (m : Mach) (g : Nat) (s : Stamp) : Mach :=
  if !m.coupling then
    (m.members g).foldl (fun m x => if 64 ≤ x then m
      else m.setSlice x { m.slice x with cpl := { exc := (m.slice x).cpl.exc } }) m
  else
    let (ys, m) := m.yaws g s
    (m.members g).foldl (fun m x => m.coupleSlice x s ys) m

/-! ### What acts at the commit fence -/

/-- A stop trigger at a commit fence: the stop profile, or the shutter in a mode without a limiter (R168, R229). -/
def Mach.stopAtFence (m : Mach) (x : Nat) (stamp : Stamp) : Mach :=
  if 64 ≤ x then m
  else if m.servo x then m.stopAxis x false
  else if m.liveSlice x then m.shutter x 6 stamp else m

/-- A coupling event of axis `x` (R185). -/
def Mach.cplEvent (m : Mach) (x kind partner : Nat) (stamp : Stamp) (data : Nat) : Mach :=
  m.post (m.fld AX_CPL_CTRL.EVQ x)
    (bytesOfNat 8 stamp ++ bytesOfNat 1 kind ++ bytesOfNat 1 x ++ bytesOfNat 1 partner ++ [0] ++ bytesOfNat 4 data)

/-- A bus event of channel slice `x` (R185). -/
def Mach.busEvent (m : Mach) (x kind : Nat) (stamp : Stamp) (data : Nat) : Mach :=
  m.post (m.fld CV_BRK.EVQ x)
    (bytesOfNat 8 stamp ++ bytesOfNat 1 kind ++ bytesOfNat 1 x
      ++ bytesOfNat 1 (if kind < 6 then m.fld CV_BRK.BUSID x else 0) ++ [0] ++ bytesOfNat 4 data)

/-- Whole counts of a value in 2^−16 counts, to nearest. -/
def counts (i : Int) : Int := roundDiv i 65536

/-- The yaw trip and the envelope of axis `x` at the commit fence `stamp` (R181, R182). -/
def Mach.coupleActs (m : Mach) (x : Nat) (stamp : Stamp) : Mach :=
  let c := (m.slice x).cpl
  let m := match c.yaw with
    | none => m
    | some (d, trip) =>
      let n := unsigned 64 (counts d)
      let acts := trip && (!(m.slice x).yawHigh || !m.flg AX_CPL_STAT.YAW_TRIP x)
      let m := (m.setFld AX_GAN_ERR.V x n).setSlice x { m.slice x with yawHigh := trip }
      if !acts then m
      else
        let ms := m.fld AX_GAN_CTRL.MASTER x
        let m := m.raise AX_CPL_STAT.YAW_TRIP x
        match m.fld AX_GAN_CTRL.ACT x with
        | 0 => m
        | 1 => m.cplEvent x 0 ms stamp n
        | 2 => ((m.cplEvent x 0 ms stamp n).stopAtFence x stamp).stopAtFence ms stamp
        | _ => ((m.cplEvent x 0 ms stamp n).shutter x 7 stamp).shutter ms 7 stamp
  match c.env with
  | none => m
  | some (st, ac, stop, hard) =>
    let p := m.fld AX_ENV_CTRL.PARTNER x
    let n := unsigned 64 (counts st)
    let m := (m.setFld AX_ENV_SEP.V x n).setSlice x { m.slice x with sepOld := some st }
    let m := if stop && m.flg AX_ENV_CTRL.STOP x then
        (((m.raise AX_CPL_STAT.ENV_STOP x).cplEvent x 1 p stamp n).stopAtFence x stamp).stopAtFence p stamp
      else m
    if hard && m.flg AX_ENV_CTRL.HARD x then
      (((m.raise AX_CPL_STAT.ENV_HARD x).cplEvent x 2 p stamp (unsigned 64 (counts ac))).shutter x 7 stamp).shutter p 7 stamp
    else m

/-- The axes of bus `b` (R189): their BUSCH names a channel whose BUSID is b. -/
def Mach.busAxes (m : Mach) (b : Nat) : List Nat :=
  (List.range 64).filter (fun x => match m.busCh x with
    | some c => m.fld CV_BRK.BUSID (64 + c) = b
    | none => false)

/-- One bus limit is crossed from inside to outside (R193). -/
def Mach.busActs (m : Mach) (x kind : Nat) (stamp : Stamp) (v : Nat) : Mach :=
  let act := m.fld CV_BUS_ACT.ACT x
  let m := if act = 0 then m else m.busEvent x kind stamp v
  let ax := m.busAxes (m.fld CV_BRK.BUSID x)
  if act = 2 then ax.foldl (fun m a => m.stopAtFence a stamp) m
  else if act = 3 then ax.foldl (fun m a => m.shutter a 8 stamp) m
  else m

/-- The bus check of converter slice `x` at the commit fence (R193). -/
def Mach.busCheck (m : Mach) (x : Nat) (stamp : Stamp) : Mach :=
  let v := m.co AX_OUT_IQ.MANT x
  let hi := m.co CV_BUS_VMAX.MANT x
  let lo := m.co CV_BUS_VMIN.MANT x
  let ov := hi.m ≠ 0 && hi.dy.lt v.dy
  let uv := lo.m ≠ 0 && v.dy.lt lo.dy
  let s := m.slice x
  let m := m.setSlice x { s with ovOut := ov, uvOut := uv }
  let m := if ov && !s.ovOut then (m.raise CV_BRK_STAT.BUS_OV x).busActs x 3 stamp (numWord v) else m
  if uv && !s.uvOut then (m.raise CV_BRK_STAT.BUS_UV x).busActs x 4 stamp (numWord v) else m

/-- The companion of channel slice `x`, if one is enabled (R145). -/
def Mach.companion (m : Mach) (x : Nat) : Option Nat :=
  (List.range 64).find? (fun a => m.liveSlice a && m.slMode a = 2 && 64 + m.fld AX_CTRL.GCH a = x)

/-- The tracker's states show at the commit fence (R187). -/
def Mach.gridShows (m : Mach) (x : Nat) (stamp : Stamp) : Mach :=
  let d := (m.slice x).dyn
  let m := m.setRg (CV_GRID_TH.V.addr x) (BitVec.ofNat 32 d.gth)
  let m := if d.gLossN = 4 && !m.flg CV_BRK_STAT.GRID_LOSS x then
      let m := ((m.raise CV_BRK_STAT.GRID_LOSS x).setFld CV_BRK_STAT.GRID_LOCK x 0).busEvent x 6 stamp 0
      match m.companion x with
      | some a => m.shutter a 8 stamp
      | none => m
    else m
  let m := if 64 ≤ d.gOkN then m.setFld CV_BRK_STAT.GRID_LOSS x 0 else m
  if d.gLockN = 64 && !m.flg CV_BRK_STAT.GRID_LOCK x then (m.raise CV_BRK_STAT.GRID_LOCK x).busEvent x 7 stamp 0 else m

/-! ### Applied coupling words (R180, R183) -/

/-- Whether axis `a` is in a gantry other than follower `x`'s. -/
def Mach.inGantry (m : Mach) (x a : Nat) : Bool :=
  (List.range 64).any (fun y => y ≠ x && m.flg AX_CPL_STAT.GAN_ON y && (y = a || m.fld AX_GAN_CTRL.MASTER y = a))

/-- A gantry group was applied (R180). -/
def Mach.gantryApplied (m : Mach) (x : Nat) : Mach :=
  let ms := m.fld AX_GAN_CTRL.MASTER x
  let ok := sameQuad x ms && m.pgOf ms = m.pgOf x && ms ≠ x && !m.inGantry x x && !m.inGantry x ms
  if !m.coupling then m
  else if !m.flg AX_GAN_CTRL.EN x then m.setFld AX_CPL_STAT.GAN_ON x 0
  else if ok then
    if m.flg AX_CPL_STAT.GAN_ON x then m
    else (m.raise AX_CPL_STAT.GAN_ON x).setSlice x { m.slice x with yawI := {}, yawHigh := false }
  else ((m.setFld AX_GAN_CTRL.EN x 0).setFld AX_CPL_STAT.GAN_ON x 0).raise AX_STATE.RSVW x

/-- An envelope group was applied (R183). -/
def Mach.envelopeApplied (m : Mach) (x : Nat) : Mach :=
  let p := m.fld AX_ENV_CTRL.PARTNER x
  let ok := sameQuad x p && m.pgOf p = m.pgOf x
  let off (m : Mach) : Mach := (m.setFld AX_CPL_STAT.ENV_ON x 0).setSlice x { m.slice x with sepOld := none }
  if !m.coupling then m
  else if !m.flg AX_ENV_CTRL.EN x then off m
  else if ok then m.raise AX_CPL_STAT.ENV_ON x
  else (off (m.setFld AX_ENV_CTRL.EN x 0)).raise AX_STATE.RSVW x

/-! ### The broker (R189 to R192) -/

/-- Whether channel slice `x` is a member of the broker (R189). -/
def Mach.member (m : Mach) (x : Nat) : Bool := m.en x && m.flg CV_BRK.EN x && m.slMode x ≠ 2

/-- The limiter of axis `x` advanced by `n` periods under the words applied at the time (R190). -/
def Mach.advance (m : Mach) (x : Nat) (newTag newPos : Bool) (f : Nat → Nat) : Nat → Lim → Lim
  | 0, l => l
  | n + 1, l => m.advance x false false f n (m.limPeriod x l false l.p newTag newPos false false (f n)).lim

/-- P_n of axis `x` for the instant `t`, seen from a run that starts at `r` (R190, R191). -/
def Mach.axisPower (m : Mach) (x : Nat) (r t : Stamp) (f : Nat → Nat) : Dy :=
  let s := m.slice x
  if !m.liveSlice x || m.flg AX_GT_STAT.SHUT x || !m.servo x then {}
  else
    let p := if s.pub.stamp < r then s.pub else s.pubOld
    let n := (t - p.stamp) / (m.pgP (m.pgOf x) * 64)
    let took (g : Flight → Bool) : Bool := match s.flight with
      | some fl => g fl
      | none => false
    let n := if s.halted then 0 else n
    let l := m.advance x (s.newTag || took Flight.tookTag) (s.newPos || took Flight.tookPos) (fun i => f (i + 1)) n p.lim
    let (v, a) := m.limOut x l (f 0)
    let sv : Num := { one with m := sgn v.m * one.m }
    let (tau, _) := round1 15 (accum [mulT (m.co AX_PWR_KJ.MANT x) a, mulT (m.co AX_PWR_KV.MANT x) v, mulT (m.co AX_PWR_KC.MANT x) sv])
    let (t2, _) := round1 15 (tau.dy.mul tau.dy)
    (round1 15 (accum [mulT v tau, mulT (m.co AX_PWR_KR.MANT x) t2])).1.dy

/-- The cap of member `x` for a power of the sign of P (R191). -/
def Mach.brokerCap (m : Mach) (x : Nat) (neg : Bool) : Num :=
  let (src, snk) := m.cvLimits x
  let fe := m.slMode x = 1
  if fe && (m.flg CV_BRK_STAT.GRID_LOSS x || (neg && !m.flg CV_BRK.REGEN x)) then {}
  else (round1 15 ((if neg then snk else src).dy.mul (m.co CV_VREF.MANT x).dy)).1

/-- Shares of `p` (by magnitude) among members, priority by priority (R191): (member, share), and what is left. -/
def shareOut (f : Nat → Nat) (mem : List (Nat × Nat × Num)) (p : Dy) : List (Nat × Dy) × Dy :=
  (List.range 4).foldl (fun (l, p) pr =>
    let ms := mem.filter (fun e => e.2.1 = pr)
    let tot := ms.foldl (fun (t : Dy) e => t.add e.2.2.dy) {}
    if tot.le p then (l ++ ms.map (fun e => (e.1, e.2.2.dy)), p.sub tot)
    else
      let (t, _) := round1 15 tot
      let k := recip (f pr) t
      (l ++ ms.map (fun e => (e.1, let v := (p.mul e.2.2.dy).mul k.dy; if e.2.2.dy.lt v then e.2.2.dy else v)), {}))
    ([], p)

/-- A broker run for channel slice `x` (R190 to R192): it starts 250 tk before the channel's next staging lock. -/
def Mach.brokerRun (m : Mach) (x : Nat) : Mach :=
  let g := m.pgOf x
  if !m.member x || !m.pgOn g || !m.coupling then m
  else
    let k := (m.group g).kL
    let r := m.lockStamp g k - 250 * 64
    let m := m.until r
    let t := m.applyStamp g k + (m.fld CV_BRK.HOR x + 1) * m.pgP g * 64
    let bus := m.fld CV_BRK.BUSID x
    let (f, m) := m.drawMany 1000000
    let p := (m.busAxes bus).foldl (fun (p : Dy) a => p.add (m.axisPower a r t (fun i => f (1000 + a * 10000 + i)))) {}
    let chans := (List.range 8).filter (fun c => m.fld CV_BRK.BUSID (64 + c) = bus)
    let p := chans.foldl (fun (p : Dy) c => p.add (m.co CV_PAUX.MANT (64 + c)).dy) p
    let (pn, _) := round1 15 p
    let neg := pn.m < 0
    let mem := (chans.filter (fun c => m.member (64 + c))).map (fun c =>
      (64 + c, m.fld CV_BRK.PRIO (64 + c), m.brokerCap (64 + c) neg))
    let (shares, left) := shareOut (fun i => f (10 + i)) mem pn.abs.dy
    let share := ((shares.find? (fun e => e.1 = x)).map (·.2)).getD {}
    let (ff, _) := round1 15 (share.mul (recip (f 1) (m.co CV_VREF.MANT x)).dy)
    let ff := if neg then ff.neg else ff
    let m := m.setSlice x { m.slice x with lane := some (wordOfNum ff, wordOfNum pn) }
    if left.m ≤ 0 then m
    else
      let (ln, _) := round1 15 (if neg then left.neg else left)
      mem.foldl (fun m e =>
        if m.flg CV_BRK_STAT.SHORT e.1 then m
        else (m.raise CV_BRK_STAT.SHORT e.1).busEvent e.1 5 (m.slice e.1).pub.stamp (numWord ln)) m

/-- The broker's lane of channel slice `x` freezes with the staging lock (R192). -/
def Mach.laneLock (m : Mach) (x : Nat) : Mach :=
  if x < 64 then m else m.setSlice x { m.slice x with laneFrozen := (m.slice x).lane, lane := none }

/-- The lane at an apply fence (R28, R192): a fresh prediction, or one more of 16 steps to zero; `staged` says that a
software group brought CV_FFB. -/
def Mach.laneApply (m : Mach) (x : Nat) (staged : Bool) : Mach :=
  if x < 64 then m
  else
    let s := m.slice x
    match s.laneFrozen with
    | some (ff, p) =>
      let m := (m.setRg (CV_FFB.MANT.addr x) ff).setRg (CV_PRED.MANT.addr x) p
      let m := (m.raise CV_BRK_STAT.RUN x).setFld CV_BRK_STAT.HOLD x 0
      m.setSlice x { s with laneFrozen := none, fed := true, rampBase := ff, rampStep := 0 }
    | none =>
      let m := m.setFld CV_BRK_STAT.RUN x 0
      if !s.fed then m
      else if staged || 16 ≤ s.rampStep then (m.setFld CV_BRK_STAT.HOLD x 0).setSlice x { s with fed := false }
      else
        let n := s.rampStep + 1
        let b := numOfWord s.rampBase
        let (v, _) := round1 15 { m := b.m * (16 - n : Nat), e := b.e - 23 }
        ((m.setRg (CV_FFB.MANT.addr x) (wordOfNum v)).raise CV_BRK_STAT.HOLD x).setSlice x { s with rampStep := n }

/-! ### Injections the converter channels make (R186, R187) -/

/-- A timed injection of aux input `aux` of bank `b` for channel slice use `use`, for the group's next sample instant. The spec
gives its TAG no value. Aux inputs 0 and 1 are sources 0 and 1 of R70. -/
def Mach.injFor (m : Mach) (b aux use g : Nat) : Mach :=
  let (tag, m) := m.draw
  m.injAsk b true g { src := aux, tag := tag % 256, use := use }

/-- The injections channel slice `x` makes for its next sample instant. -/
def Mach.channelAsks (m : Mach) (x : Nat) : Mach :=
  if x < 64 ∨ ¬ m.en x then m
  else
    let c := x - 64
    let g := m.pgOf x
    if m.slMode x = 0 then (if m.flg CV_BRK.STORE x then m.injFor (2 * c) 1 1 g else m)
    else if m.slMode x = 1 then (m.injFor (2 * c) 0 2 g).injFor (2 * c + 1) 0 3 g
    else m

/-- A channel's injection of bank `b` completed with value `v` (R186, R187). -/
def Mach.channelGets (m : Mach) (b use : Nat) (v : Int) : Mach :=
  let x := 64 + b / 2
  match use with
  | 1 => (m.setSlice x { m.slice x with vst := v, stBad := 0 }).storeFlags x
  | 2 => m.setSlice x { m.slice x with uab := v }
  | 3 => m.setSlice x { m.slice x with ubc := v }
  | _ => m

end Sys2Proof.Machine
end

