-- ==== Sys2Proof/Machine/Commission.lean ====
section
/-! DEFINITION. Self-commissioning and adaptation (R195 to R215): excitation, measurement, proposals, bank changes, per-move
inertia and notch tracking. -/

namespace Sys2Proof.Machine

/-! ### Powers and logarithms in fixed point -/

/-- Bits of log2 of a number in [1, 2) with 62 fractional bits, `n` of them. -/
def log2Bits : Nat → Nat → Nat → Nat
  | 0, _, acc => acc
  | n + 1, v, acc =>
    let q := v * v / 2 ^ 62
    if 2 ^ 63 ≤ q then log2Bits n (q / 2) (2 * acc + 1) else log2Bits n q (2 * acc)

/-- log2(n / d) × 2^40, for n ≥ d > 0. -/
def log2Q40 (n d : Nat) : Nat :=
  let q := n / d
  let k := Nat.log2 q
  k * 2 ^ 40 + log2Bits 40 (n * 2 ^ 62 / (d * 2 ^ k)) 0

/-- The series of e^t, t with 60 fractional bits; `n` counts down from the last term. -/
def expSeries (t : Nat) : Nat → Nat → Nat
  | 0, _ => 2 ^ 60
  | n + 1, i => 2 ^ 60 + t * expSeries t n (i + 1) / (i * 2 ^ 60)

/-- ln 2 × 2^60. -/
def ln2Q60 : Nat := 799144290325165979

/-- 2^y × 2^40, y with 40 fractional bits. -/
def exp2Q40 (y : Nat) : Nat :=
  expSeries (y % 2 ^ 40 * ln2Q60 / 2 ^ 40) 24 1 * 2 ^ (y / 2 ^ 40) / 2 ^ 20

/-- f0 × (f1 / f0)^(a / b), with 32 fractional bits. -/
def sweepQ32 (f0 f1 a b : Nat) : Nat := if f0 = 0 ∨ b = 0 then f0 * 2 ^ 32 else f0 * exp2Q40 (log2Q40 f1 f0 * a / b) / 2 ^ 8

/-! ### Engines (R195) -/

/-- Whether a sequence that needs an engine runs on the axis (R195). -/
def Mach.engine (m : Mach) (x : Nat) : Bool := (m.comm x).part = 1 || (m.comm x).part = 2

/-! ### Starting (R197, R199) -/

/-- EST_PER, NT_INT and NT_STEP with their substitutes (R214). -/
def Mach.estPer (m : Mach) (x : Nat) : Nat :=
  let v := m.fld AX_CM_ADAPT.EST_PER x
  if v < 4 then 8 else v
def Mach.ntInt (m : Mach) (x : Nat) : Nat :=
  let v := m.fld AX_CM_ADAPT.NT_INT x
  if v = 0 then 50 else v
def Mach.ntStep (m : Mach) (x : Nat) : Nat :=
  let v := m.fld AX_CM_ADAPT.NT_STEP x
  if v = 0 then 1 else v

/-- Whether a PRBS excites the part (R197): MASS always uses a chirp. -/
def Mach.prbs (m : Mach) (x part : Nat) : Bool := part = 2 && m.flg AX_CM_EXC.TYPE x

/-- Order of the shift register. -/
def Mach.prbsOrder (m : Mach) (x : Nat) : Nat := 9 + 2 * m.fld AX_CM_EXC.ORDER x

/-- The record length L (R197). -/
def Mach.recordLen (m : Mach) (x part : Nat) : Nat :=
  if m.prbs x part then
    (2 ^ m.prbsOrder x - 1) * (m.fld AX_CM_EXC.HOLD x + 1) * (m.fld AX_CM_EXC.AVG x + 1)
  else m.fld AX_CM_TLEN.V x

/-- A word of gain set `s` (R206). -/
def gsWord (x s i : Nat) : Nat := AX_GS_SET.MANT.addr x + 0x100 * s + 4 * i

/-- Whether SEQ starts an excitation. -/
def excites (seq : Nat) : Bool := seq = 1 || seq = 2 || seq = 4

/-- The CAUSE a start is refused with; 0 if it is accepted (R199). A check that names no sequence holds for every one (log 121). -/
def Mach.cmRefusal (m : Mach) (x seq gset : Nat) : Nat :=
  let f0 := m.fld AX_CM_F0.V x
  let f1 := m.fld AX_CM_F1.V x
  let p := m.pgP (m.pgOf x)
  let busy := ((List.range 16).filter (fun i => m.engine (x / 16 * 16 + i))).length
  if excites seq && !(m.en x && m.slMode x = 0 && bitOf (m.chainBits x) 2 && m.flg AX_LIM_STAT.AT_REST x
      && m.limMode x = 1) then 2
  else if (m.co AX_CM_POL_AMAX.MANT x).dy.lt (m.co AX_CM_AMP.MANT x).dy
      || m.fld AX_CM_POL_STROKE.V x < m.fld AX_CM_STROKE.V x then 3
  else if (m.comm x).part ≠ 0 || 2 ≤ busy then 4
  else if f0 = 0 || f1 ≤ f0 || 1000000000 < f1 * p || m.fld AX_CM_TLEN.V x < 256 then 5
  else if seq = 6 && (m.co (AX_GS_JHI.MANT.sh (8 * gset)) x).dy.le (m.co (AX_GS_JLO.MANT.sh (8 * gset)) x).dy
      && (List.range 64).any (fun i => m.rg (gsWord x gset i) = 0) then 5
  else if seq = 3 && !(m.flg AX_CM_STAT.MASS_OK x && m.flg AX_CM_STAT.RESP_OK x) then 11
  else if seq = 5 && !m.flg AX_CM_STAT.PROP_OK x then 11
  else 0

/-- One part of a sequence begins, with no excitation yet: MASS and RESP take an engine and clear their own OK bit (R196, R200). -/
def Mach.partStart (m : Mach) (x part : Nat) : Mach :=
  let m := m.setSlice x { m.slice x with cpl := { (m.slice x).cpl with exc := {} } }
  let m := match part with
    | 1 => m.setFld AX_CM_STAT.MASS_OK x 0
    | 2 => m.setFld AX_CM_STAT.RESP_OK x 0
    | 3 => m.setFld AX_CM_STAT.PROP_OK x 0
    | _ => m
  m.setComm x { m.comm x with
    part := part, k := 0, len := m.recordLen x part, phi := 0, lfsr := 2 ^ m.prbsOrder x - 1, fed := false
    p0 := (m.slice x).pub.pfb, sat := 0, vOld := none, sums := List.replicate 15 (0, 0)
    bins := if part = 2 then List.replicate 64 (0, 0, 0, 0) else [], abort := 0 }

/-- Queues a bank change for the axis (R210). A retune that falls due while another change waits is dropped. -/
def Mach.askChange (m : Mach) (x : Nat) (c : Change) : Mach :=
  let cm := m.comm x
  if c.kind = 3 && cm.waiting ≠ [] then m
  else
    let lo := cm.waiting.filter (fun d => (if d.kind = 0 then 1 else d.kind) ≤ (if c.kind = 0 then 1 else c.kind))
    let hi := cm.waiting.filter (fun d => (if c.kind = 0 then 1 else c.kind) < (if d.kind = 0 then 1 else d.kind))
    m.setComm x { cm with waiting := lo ++ [c] ++ hi }

/-! ### Notch design (R203) -/

/-- 2π × 2^60. -/
def twoPiQ60 : Nat := 7244019458077122842

/-- A frequency in 1/16 Hz times T, in turns × 2^−60: f × P × 4 ns / 16. -/
def Mach.fT (m : Mach) (x f : Nat) : Nat := f * m.pgP (m.pgOf x) * 2 ^ 60 / 4000000000

/-- The angle 2π f T as a value. -/
def Mach.w0 (m : Mach) (x f : Nat) : Dy := { m := (m.fT x f * twoPiQ60 / 2 ^ 60 : Nat), e := -60 }

/-- The five words of a notch at `f` with quality q and depth d (R203). -/
def Mach.notch (m : Mach) (x f : Nat) (q d : Num) (r : Nat → Nat) : List Num :=
  let (c, s) := cosSinQ70 (m.fT x f / 2 ^ 28)
  let r15 (v : Dy) := (round1 15 v).1
  let sin : Dy := { m := s, e := -70 }
  let cos : Dy := { m := c, e := -70 }
  let al := r15 (sin.mul ((recip (r 0) q).dy.mul { m := 1, e := -1 }))
  let den := recip (r 1) (r15 (one.dy.add al.dy))
  let ad := r15 (al.dy.mul d.dy)
  let b1 := r15 ((cos.mul { m := -2, e := 0 }).mul den.dy)
  [r15 ((one.dy.add ad.dy).mul den.dy), b1, r15 ((one.dy.sub ad.dy).mul den.dy), b1, r15 ((one.dy.sub al.dy).mul den.dy)]

/-- Offsets within a bank of the five words of biquad `s`. -/
def bqOffs (s : Nat) : List Nat := [0x80 + 0x20 * s, 0x84 + 0x20 * s, 0x88 + 0x20 * s, 0x8C + 0x20 * s, 0x90 + 0x20 * s]

/-- The words of a notch by index within an image. -/
def notchWords (s : Nat) (ws : List Num) : List (Nat × W32) := ((bqOffs s).map (· / 4)).zip (ws.map wordOfNum)

/-! ### Bank changes (R210) -/

/-- The active bank of a slice: the one a computation in an open period has already taken (R165), else the committed one. -/
def Mach.activeBank (m : Mach) (x : Nat) : Bool :=
  match (m.slice x).flight with
  | some f => f.dyn.bank
  | none => (m.slice x).dyn.bank

/-- Address of word `i` of bank A (false) or B. -/
def bankWord (x : Nat) (b : Bool) (i : Nat) : Nat := Blk.base .sl x + 0x2000 + (if b then 0x1000 else 0) + 4 * i

/-- Word `i` of biquad `s` in bank A (false) or B. -/
def Mach.bqWord (m : Mach) (x s : Nat) (b : Bool) (i : Nat) : Num := numOfWord (m.rg (bankWord x b ((bqOffs s).getD i 0 / 4)))

/-- The angle of a notch, in turns × 2^−32 (R203): A1 = −2 cos ω0 ÷ (1 + α) and A2 = (1 − α) ÷ (1 + α), so that cos ω0 is
−A1 ÷ (1 + A2). Words that make no notch give 0 or half a turn. -/
def Mach.notchAngle (m : Mach) (x s : Nat) (b : Bool) : Nat :=
  let c := (m.bqWord x s b 3).dy.neg
  let d := one.dy.add (m.bqWord x s b 4).dy
  let fits (t : Int) : Bool := c.le (d.mul { m := (cosSinQ70 t.toNat).1, e := -70 })
  (bisect fits 32 0 (2 ^ 31)).toNat

/-- The frequency of a notch in 1/16 Hz, to nearest (R209). -/
def Mach.notchF (m : Mach) (x s : Nat) (b : Bool) : Nat :=
  (m.notchAngle x s b * 4000000000 + m.pgP (m.pgOf x) * 2 ^ 31) / (m.pgP (m.pgOf x) * 2 ^ 32)

/-- The words of biquad `s` moved to frequency f with the Q and the depth of the notch in bank `b` (R209), read back from its
words: α goes with sin ω0. -/
def Mach.retuned (m : Mach) (x s f : Nat) (b : Bool) (r : Nat → Nat) : List Num :=
  let w := m.bqWord x s b
  let r15 (v : Dy) := (round1 15 v).1
  let (c, sn) := cosSinQ70 (m.fT x f / 2 ^ 28)
  let s0 := (cosSinQ70 (m.notchAngle x s b)).2
  let a2 := w 4
  let al0 := r15 ((one.dy.sub a2.dy).mul (recip (r 0) (r15 (one.dy.add a2.dy))).dy)
  let al := r15 ((al0.dy.mul { m := sn, e := -70 }).mul (recip (r 1) (r15 { m := s0, e := -70 })).dy)
  let d := r15 (((w 0).dy.sub (w 2).dy).mul (recip (r 2) (r15 (one.dy.sub a2.dy))).dy)
  let den := recip (r 3) (r15 (one.dy.add al.dy))
  let ad := r15 (al.dy.mul d.dy)
  let b1 := r15 ((({ m := c, e := -70 } : Dy).mul { m := -2, e := 0 }).mul den.dy)
  [r15 ((one.dy.add ad.dy).mul den.dy), b1, r15 ((one.dy.sub ad.dy).mul den.dy), b1, r15 ((one.dy.sub al.dy).mul den.dy)]

/-- The image a change carries: a gain set, or, for a retune, the active bank; with NT_EN its notch is the tracked one. -/
def Mach.changeImage (m : Mach) (x : Nat) (c : Change) (r : Nat → Nat) : List W32 :=
  let b := m.activeBank x
  let img := (List.range 64).map (fun i => if c.kind = 3 then m.rg (bankWord x b i) else m.rg (gsWord x c.gset i))
  if m.flg AX_CM_ADAPT.NT_EN x then
    let ws := notchWords (m.fld AX_CM_ADAPT.NT_BQ x) (m.retuned x (m.fld AX_CM_ADAPT.NT_BQ x) (m.comm x).fn b r)
    (List.range 64).map (fun i => match ws.find? (fun w => w.1 = i) with
      | some w => w.2
      | none => img.getD i 0)
  else img

/-- Whether a change can start now (R210). -/
def Mach.changeReady (m : Mach) (x : Nat) : Bool :=
  m.fld AX_OSC_STAT.PHASE x = 0 && !m.flg AX_STAGE_STAT.PENDING x && !(m.stage x).tapLock && (m.comm x).active.isNone

/-- The next waiting change starts: the image into the inactive bank, AX_OSC staged with GO, for a proposal the CHAIN bits of its
biquads beside it (R204), the group closed. A change that no command asked for has a tag the spec does not give. -/
def Mach.changeNext (m : Mach) (x : Nat) : Mach :=
  let cm := m.comm x
  match cm.waiting with
  | [] => m
  | c :: rest =>
    if !m.changeReady x then m
    else
      let (f, m) := m.drawMany 8
      let b := !m.activeBank x
      let img := m.changeImage x c f
      let m := ((List.range 64).zip img).foldl (fun m e => m.setRg (bankWord x b e.1) e.2) m
      let m := m.mirrorPut x 0xE080 (BitVec.ofNat 32 (2 ^ 31 + c.seed))
      let m := if c.kind = 0 && cm.chain ≠ 0
        then m.mirrorPut x 0xC004 (m.mirrorGet x 0xC004 ||| BitVec.ofNat 32 cm.chain) else m
      let m := m.closeStage x (c.tag.getD (f 7 % 65536))
      m.setComm x { m.comm x with waiting := rest, active := some c }

/-- A swap completed at the commit fence `stamp` (R206, R210, R215): the change under way took effect, or software swapped. -/
def Mach.swapDone (m : Mach) (x : Nat) (stamp : Stamp) : Mach :=
  let cm := m.comm x
  match cm.active with
  | none => m.setFld AX_GS_STAT.CUR x 15
  | some c =>
    let m := m.setComm x { cm with active := none }
    match c.kind with
    | 0 => (((m.setFld AX_GS_STAT.CUR x 15).setFld AX_CM_STAT.PROP_OK x 0)).cmEnd x 4 0 stamp
    | 1 => (((m.setFld AX_GS_STAT.CUR x c.gset).countMod AX_GS_STAT.COUNT x)).cmEnd x 4 0 stamp
    | 2 => (((m.setFld AX_GS_STAT.CUR x c.gset).countMod AX_GS_STAT.COUNT x)).cmEvent x 2 c.gset (numWord cm.je) stamp
    | _ => m.cmEvent x 3 0 (m.fld AX_CM_NT_F.V x) stamp

/-- A write of AX_CM_CTRL with GO by a writer R212 admits, or not; `tag` is that of the command that makes it (R253). -/
def Mach.cmGo (m : Mach) (x : Nat) (house : Bool) (seq gset seed : Nat) (tag : Option Nat) : Mach :=
  if seq = 0 ∨ 6 < seq then m.raise AX_STATE.RSVW x
  else
    let m := m.setFld AX_CM_STAT.SEQ x seq
    let cause := if !house then 1 else m.cmRefusal x seq gset
    if cause ≠ 0 then (m.setFld AX_CM_STAT.ST x 6).setFld AX_CM_STAT.CAUSE x cause
    else
      let m := (m.setFld AX_CM_STAT.ST x 1).setFld AX_CM_STAT.CAUSE x 0
      let m := m.setComm x { m.comm x with seq := seq, seed := seed }
      match seq with
      | 1 | 2 | 3 => m.partStart x seq
      | 4 => m.partStart x 1
      | 5 => ((m.setComm x { m.comm x with part := 5, abort := 0 }).askChange x
          { kind := 0, gset := m.fld AX_CM_POL.PSET x, seed := seed, tag := tag }).changeNext x
      | _ => ((m.setComm x { m.comm x with part := 6, abort := 0 }).askChange x
          { kind := 1, gset := gset, seed := seed, tag := tag }).changeNext x

/-- AX_CM_CTRL.ABORT (R200): the running sequence aborts at the next commit fence; at once where none comes. -/
def Mach.cmUserAbort (m : Mach) (x : Nat) : Mach :=
  if (m.comm x).part = 0 then m
  else if m.liveSlice x && m.pgOn (m.pgOf x) then m.setComm x { m.comm x with abort := 12 }
  else m.cmAbort x 12 m.now

/-! ### Excitation (R196, R198) -/

/-- The taps of the shift register, as a mask of the stages fed back. -/
def prbsTaps (order : Nat) : Nat :=
  match order with
  | 9 => 2 ^ 8 + 2 ^ 4
  | 11 => 2 ^ 10 + 2 ^ 8
  | 13 => 2 ^ 12 + 2 ^ 11 + 2 ^ 10 + 2 ^ 7
  | _ => 2 ^ 14 + 2 ^ 13

/-- The parity of the bits of `v` below bit `n`. -/
def parity : Nat → Nat → Bool
  | 0, _ => false
  | n + 1, v => (v.testBit n) != parity n v

/-- One shift of the register. -/
def prbsShift (order l : Nat) : Nat := (2 * l + bit (parity order (l &&& prbsTaps order))) % 2 ^ order

/-- The instantaneous frequency of period `k`, in 1/16 Hz with 32 fractional bits. -/
def Mach.chirpF (m : Mach) (x k len : Nat) : Nat :=
  if k < 64 then m.fld AX_CM_F0.V x * 2 ^ 32 else sweepQ32 (m.fld AX_CM_F0.V x) (m.fld AX_CM_F1.V x) (k - 64) len

/-- The excitation value of the coming period is delivered with the cross-axis terms (R196): of the last one once the record has
run there is none. -/
def Mach.excite (m : Mach) (x : Nat) : Mach :=
  let c := m.comm x
  let put (m : Mach) (v : Num) (fed : Bool) : Mach :=
    m.setSlice x { m.slice x with cpl := { (m.slice x).cpl with exc := v }, comm := { c with fed := fed } }
  if !m.engine x then m
  else if 64 + c.len ≤ c.k then put m {} false
  else
    let (f, m) := m.draw
    let amp := m.co AX_CM_AMP.MANT x
    if m.prbs x c.part then put m (if bitOf c.lfsr (m.prbsOrder x - 1) then amp else amp.neg) true
    else
      let (_, s) := cosSinQ70 (c.phi / 4000000000)
      put m (round1 15 (amp.dy.mul (near18 f s).dy)).1 true

/-- The excitation moves on by one committed period (R198). -/
def Mach.exciteNext (m : Mach) (x : Nat) (c : Comm) : Comm :=
  let lfsr := if (c.k + 1) % (m.fld AX_CM_EXC.HOLD x + 1) = 0 then prbsShift (m.prbsOrder x) c.lfsr else c.lfsr
  let phi := (c.phi + m.chirpF x c.k c.len * m.pgP (m.pgOf x)) % (4000000000 * 2 ^ 32)
  { c with k := c.k + 1, lfsr := lfsr, phi := phi, fed := false }

/-! ### Measurement (R201, R202, R207, R209) -/

def pairDy (p : Int × Int) : Dy := { m := p.1, e := p.2 }
def dyPair (d : Dy) : Int × Int := (d.m, d.e)

/-- The measured torque i_q ÷ KT_INV and the acceleration â from two velocities (R201). -/
def Mach.torque (m : Mach) (x : Nat) (f : Nat) : Num :=
  (round1 15 ((m.slice x).pub.iq.dy.mul (recip f (m.bk x (m.slice x).dyn.bank BK_KT_INV.MANT)).dy)).1
def Mach.accel (m : Mach) (x : Nat) (v old : Num) (f : Nat) : Num :=
  let dv := (round1 15 (v.dy.sub old.dy)).1
  let k := (round1 15 (((m.co AX_LIM_ASCALE.MANT x).dy.mul { m := m.pgP (m.pgOf x) * 64, e := 0 }).mul
    (recip f (m.co AX_WSCALE.MANT x)).dy)).1
  (round1 15 (dv.dy.mul k.dy)).1

/-- The friction shape c of R201. -/
def Mach.friction (m : Mach) (x : Nat) (v : Num) : Num :=
  let rb := m.bk x (m.slice x).dyn.bank BK_RVBAND.MANT
  if rb.m = 0 then (if v.abs.dy.lt { m := 1, e := -12 } then {} else { one with m := sgn v.m * one.m })
  else (round1 15 (v.dy.mul rb.dy)).1.clip one

/-- The upper triangle of a 4 × 4 matrix, row by row, then the right side and Σ τ². -/
def massTerms (r : List Num) (t : Num) : List Dy :=
  let g (i : Nat) := (r.getD i {}).dy
  [(g 0).mul (g 0), (g 0).mul (g 1), (g 0).mul (g 2), (g 0).mul (g 3), (g 1).mul (g 1), (g 1).mul (g 2), (g 1).mul (g 3),
   (g 2).mul (g 2), (g 2).mul (g 3), (g 3).mul (g 3), (g 0).mul t.dy, (g 1).mul t.dy, (g 2).mul t.dy, (g 3).mul t.dy,
   t.dy.mul t.dy]

/-- MASS accumulates one record period. -/
def Mach.massPeriod (m : Mach) (x : Nat) (c : Comm) (f : Nat → Nat) : Comm :=
  let v := (m.slice x).pub.vfb
  let a := m.accel x v (c.vOld.getD v) (f 0)
  let ts := massTerms [a, v, m.friction x v, one] (m.torque x (f 1))
  { c with sums := (c.sums.zip ts).map (fun e => dyPair ((pairDy e.1).add e.2)) }

/-- Bin `i` of RESP (R202), in 1/16 Hz with 32 fractional bits. -/
def Mach.binF (m : Mach) (x i : Nat) : Nat := sweepQ32 (m.fld AX_CM_F0.V x) (m.fld AX_CM_F1.V x) i 63

/-- Whether two frequencies lie within a factor 2^(1/8). -/
def nearBin (a b : Nat) : Bool := a ^ 8 ≤ 2 * b ^ 8 && b ^ 8 ≤ 2 * a ^ 8

/-- A value times a factor with 70 fractional bits, with 40 fractional bits. -/
def mixQ40 (v : Num) (k : Int) : Int := shiftI (v.m * k) (v.e - 19 - 70 + 40)

/-- RESP accumulates one record period. -/
def Mach.respPeriod (m : Mach) (x : Nat) (c : Comm) : Comm :=
  let p := m.pgP (m.pgOf x)
  let u := numOfWord (m.rg (AX_OUT_IQREF.MANT.addr x))
  let v := (m.slice x).pub.vfb
  let fk := m.chirpF x c.k c.len
  let all := m.prbs x 2
  { c with bins := (c.bins.zip (List.range 64)).map (fun e =>
      let fi := m.binF x e.2
      if all || nearBin fk fi then
        let (co, si) := cosSinQ70 (fi * p * (c.k - 64) / 4000000000)
        (e.1.1 + mixQ40 u co, e.1.2.1 - mixQ40 u si, e.1.2.2.1 + mixQ40 v co, e.1.2.2.2 - mixQ40 v si)
      else e.1) }

/-- The move accumulator's period (R207). -/
def Mach.movePeriodSum (m : Mach) (x : Nat) (c : Comm) (f : Nat → Nat) : Comm :=
  let v := (m.slice x).pub.vfb
  let a := m.accel x v (c.vOld.getD v) (f 2)
  let t := m.torque x (f 3)
  let fr := m.friction x v
  let rest := (accum [t.term, negT (mulT (m.co AX_CM_B.MANT x) v), negT (mulT (m.co AX_CM_C.MANT x) fr), negT (m.co AX_CM_G.MANT x).term])
  { c with
    mvA := dyPair ((pairDy c.mvA).add (a.dy.mul a.dy))
    mvB := dyPair ((pairDy c.mvB).add (a.dy.mul rest))
    mvN := c.mvN + 1 }

/-- The three frequencies a tracker watches, in 1/16 Hz with 32 fractional bits (R209). -/
def trackF (f : Nat) : List Nat := [f * 2 ^ 32 * 15 / 16, f * 2 ^ 32, f * 2 ^ 32 * 17 / 16]

/-- The notch tracker's period on τ_c (R209). -/
def Mach.trackPeriod (m : Mach) (x : Nat) (c : Comm) : Comm :=
  let p := m.pgP (m.pgOf x)
  let fs := trackF c.fn
  let u := (m.slice x).dyn.uV
  let add (sel : Int × Int → Int) (old : List Int) : List Int := (List.range 3).map (fun i =>
    old.getD i 0 + mixQ40 u (sel (cosSinQ70 (fs.getD i 0 * p * c.ntK / 4000000000))))
  { c with ntRe := add (·.1) c.ntRe, ntIm := add (·.2) c.ntIm, ntK := c.ntK + 1 }

/-- The move accumulator at a commit fence (R207, R208): it runs over the moving periods of one SEGMENT move up to its arrival, or up
to the EST_PER-th of them; a move given up discards its sums. -/
def Mach.movePeriod (m : Mach) (x : Nat) (c : Comm) (stamp : Stamp) (arrived gaveUp : Bool) (f : Nat → Nat) : Comm :=
  let l := (m.slice x).dyn.lim
  if !(m.flg AX_CM_ADAPT.MI_EN x && m.flg AX_CM_STAT.MASS_OK x) then { c with mvOn := false, mvDone := false, mvReady := false }
  else
    let c := if gaveUp then { c with mvOn := false, mvDone := false } else c
    let moves := l.phase = 1 && l.mode = 1 && l.seg
    let c := if moves && !c.mvOn && !c.mvDone then { c with mvOn := true, mvA := (0, 0), mvB := (0, 0), mvN := 0 } else c
    let c := if c.mvOn && moves then m.movePeriodSum x c f else c
    let c := if c.mvOn && (arrived || (m.flg AX_CM_ADAPT.MI_EARLY x && m.estPer x ≤ c.mvN))
      then { c with mvOn := false, mvDone := true, mvReady := true, estA := c.mvA, estB := c.mvB, estAt := stamp } else c
    if arrived then { c with mvDone := false } else c

/-- Whether the sequence of axis `x` aborts at the commit fence `stamp` (R200). -/
def Mach.cmCheck (m : Mach) (x : Nat) (stamp : Stamp) : Mach :=
  let c := m.comm x
  let ph := m.fld AX_LIM_STAT.PHASE x
  let cause :=
    if !m.engine x then (if c.part ≠ 0 && c.abort = 12 then 12 else 0)
    else if m.fld AX_CM_STROKE.V x * 65536 < ((m.slice x).pub.pfb - c.p0).natAbs then 6
    else if 16 ≤ c.sat then 7
    else if c.abort = 8 then 8
    else if m.flg AX_GT_STAT.SHUT x || ph = 3 || ph = 4 then 9
    else c.abort
  if cause ≠ 0 then m.cmAbort x cause stamp else m

/-- What a period committed at the fence `stamp` means for the sequence and the adaptation of axis `x`: `arrived` and `gaveUp` tell
of the limiter's records of this period, `flags` are the period's. -/
def Mach.cmCommit (m : Mach) (x : Nat) (stamp : Stamp) (flags : Nat) (arrived gaveUp : Bool) : Mach :=
  let (f, m) := m.drawMany 4
  let c := m.comm x
  let ex := m.engine x && c.fed
  let c := { c with sat := if bitOf flags AX_STICKY.ILIM.lo || bitOf flags AX_STICKY.VSAT.lo then c.sat + 1 else 0 }
  let c := if ex && 64 ≤ c.k && c.part = 1 then m.massPeriod x c f else c
  let c := if ex && 64 ≤ c.k && c.part = 2 then m.respPeriod x c else c
  let c := if ex then m.exciteNext x { c with endAt := stamp } else c
  let c := m.movePeriod x c stamp arrived gaveUp f
  let c := if m.flg AX_CM_ADAPT.NT_EN x then m.trackPeriod x c else c
  ((m.setComm x { c with vOld := some (m.slice x).pub.vfb }).cmCheck x stamp).changeNext x

/-! ### The end of a sequence (R201 to R205) -/

/-- Determinant of a square matrix of `n` rows by expansion along the first row. -/
def det : Nat → List (List Int) → Int
  | 0, _ => 1
  | n + 1, a =>
    match a with
    | [] => 1
    | r :: rs => (List.range (n + 1)).foldl (fun s j =>
        s + (if j % 2 = 0 then 1 else -1) * r.getD j 0 * det n (rs.map (fun q => q.eraseIdx j))) 0

/-- Dyadic values as integers at their smallest exponent. -/
def common (l : List Dy) : List Int :=
  let e := l.foldl (fun e d => min e d.e) 0
  l.map (fun d => shiftI d.m (d.e - e))

/-- Place of entry (i, j) in the upper triangle. -/
def triIdx (i j : Nat) : Nat :=
  let a := min i j
  a * 4 - a * (a - 1) / 2 + (max i j - a)

/-- The least-squares solution of MASS (R201): J, B, C, G and FIT; none if the matrix is singular. Matrix, right side and
Σ τ² stand at one exponent. -/
def massSolve (sums : List (Int × Int)) (f : Nat → Nat) : Option (List Num × Num) :=
  let v := common (sums.map pairDy)
  let mat := (List.range 4).map (fun i => (List.range 4).map (fun j => v.getD (triIdx i j) 0))
  let rhs := (List.range 4).map (fun i => v.getD (10 + i) 0)
  let d := det 4 mat
  if d = 0 then none
  else
    let dj := (List.range 4).map (fun j =>
      det 4 ((List.range 4).map (fun i => (mat.getD i []).set j (rhs.getD i 0))))
    let sol := (List.range 4).map (fun j => (round1 15 (quot20 (f j) (dj.getD j 0 * sgn d) d.natAbs).dy).1)
    let tt := v.getD 14 0
    let res := tt * d - (List.range 4).foldl (fun s j => s + dj.getD j 0 * rhs.getD j 0) 0
    some (sol, (round1 15 (quot20 (f 4) (res * sgn (tt * d)) (tt * d).natAbs).dy).1)

/-- MASS ends. -/
def Mach.massEnd (m : Mach) (x : Nat) (f : Nat → Nat) : Option Mach :=
  (massSolve (m.comm x).sums f).map (fun r =>
    let w (m : Mach) (fl : Fld) (v : Num) := m.setRg (fl.addr x) (wordOfNum v)
    let g (i : Nat) := r.1.getD i {}
    (w (w (w (w (w m AX_CM_J.MANT (g 0)) AX_CM_B.MANT (g 1)) AX_CM_C.MANT (g 2)) AX_CM_G.MANT (g 3)) AX_CM_FIT.MANT r.2).raise
      AX_CM_STAT.MASS_OK x)

/-- H of a bin (R202). -/
def binH (b : Int × Int × Int × Int) (f1 f2 : Nat) : Num × Num :=
  let (ur, ui, vr, vi) := b
  let d := (ur * ur + ui * ui).natAbs
  ((round1 15 (quot20 f1 (vr * ur + vi * ui) d).dy).1, (round1 15 (quot20 f2 (vi * ur - vr * ui) d).dy).1)

/-- |H| × f of every bin, with 40 fractional bits. -/
def respProducts (h : List (Num × Num)) (fs : List Nat) : List Nat :=
  (h.zip fs).map (fun e =>
    let sq := (e.1.1.dy.mul e.1.1.dy).add (e.1.2.dy.mul e.1.2.dy)
    isqrt (shiftI sq.m (sq.e + 80)).toNat * e.2 / 2 ^ 32)

/-- The neighbouring minimum of place `i`, going down or up while the values fall. -/
def walkMin (a : List Nat) (up : Bool) : Nat → Nat → Nat
  | 0, i => i
  | n + 1, i =>
    let j := if up then i + 1 else i - 1
    if j = i ∨ a.length ≤ j then i
    else if a.getD j 0 < a.getD i 0 then walkMin a up n j else i

/-- The frequency at which the products fall below `lvl` next to place `i`, by interpolation between bins. -/
def crossF (a fs : List Nat) (lvl : Nat) (up : Bool) : Nat → Nat → Nat
  | 0, i => fs.getD i 0
  | n + 1, i =>
    let j := if up then i + 1 else i - 1
    if j = i ∨ a.length ≤ j then fs.getD i 0
    else if a.getD j 0 < lvl then
      let hi := a.getD i 0
      let t := (hi - lvl) * 2 ^ 20 / max (hi - a.getD j 0) 1
      (((fs.getD i 0 : Int) * 2 ^ 20 + ((fs.getD j 0 : Int) - fs.getD i 0) * t) / 2 ^ 20).toNat
    else crossF a fs lvl up n j

/-- The resonances (R202): bin, frequency, ZETA and PEAK, in ascending frequency, at most four. -/
def resonances (a fs : List Nat) (f : Nat → Nat) : List (Nat × Num × Num) :=
  ((List.range a.length).filterMap (fun i =>
    let v := a.getD i 0
    if i = 0 ∨ a.length ≤ i + 1 ∨ v ≤ a.getD (i - 1) 0 ∨ v < a.getD (i + 1) 0 then none
    else
      let l := walkMin a false 64 i
      let r := walkMin a true 64 i
      let fl := fs.getD l 0
      let fr := fs.getD r 0
      let line := a.getD l 0 + (((a.getD r 0 : Int) - a.getD l 0) * ((fs.getD i 0 : Int) - fl) / max ((fr : Int) - fl) 1).toNat
      let line := if a.getD r 0 < a.getD l 0 then
        (((a.getD l 0 : Int) + ((a.getD r 0 : Int) - a.getD l 0) * ((fs.getD i 0 : Int) - fl) / max ((fr : Int) - fl) 1)).toNat else line
      if v * 1000000 ≤ line * 1995262 then none
      else
        let half := v * 707107 / 1000000
        let w := crossF a fs half true 64 i - crossF a fs half false 64 i
        some (fs.getD i 0 / 2 ^ 32, (round1 15 (quot20 (f (2 * i)) w (2 * fs.getD i 0)).dy).1,
          (round1 15 (quot20 (f (2 * i + 1)) v (max line 1)).dy).1))).take 4

/-- RESP ends. -/
def Mach.respEnd (m : Mach) (x : Nat) (f : Nat → Nat) : Mach :=
  let fs := (List.range 64).map (fun i => m.binF x i)
  let h := ((m.comm x).bins.zip (List.range 64)).map (fun e => binH e.1 (f (10 + 2 * e.2)) (f (11 + 2 * e.2)))
  let m := (h.zip (List.range 64)).foldl (fun m e =>
    (m.setRg (AX_CM_FR_RE.MANT.addr x + 8 * e.2) (wordOfNum e.1.1)).setRg (AX_CM_FR_IM.MANT.addr x + 8 * e.2) (wordOfNum e.1.2)) m
  let rs := resonances (respProducts h fs) fs (fun i => f (200 + i))
  let m := (List.range 4).foldl (fun m i =>
    let (fr, z, p) := rs.getD i (0, {}, {})
    ((m.setRg (AX_CM_RES_F.V.addr x + 0x10 * i) (BitVec.ofNat 32 fr)).setRg (AX_CM_RES_ZETA.MANT.addr x + 0x10 * i)
      (wordOfNum z)).setRg (AX_CM_RES_PEAK.MANT.addr x + 0x10 * i) (wordOfNum p)) m
  (m.setFld AX_CM_STAT.NRES x rs.length).raise AX_CM_STAT.RESP_OK x

/-- A gain held within POL_STEP of its active value (R204): the gain, and whether it was clipped. -/
def stepClip (v act step : Num) (f : Nat) : Num × Bool :=
  if act.m = 0 then (v, false)
  else
    let hi := (round1 15 (act.abs.dy.mul step.abs.dy)).1
    let lo := (round1 15 (act.abs.dy.mul (recip f step.abs).dy)).1
    if hi.dy.lt v.abs.dy then ({ hi with m := (if v.m < 0 then -1 else 1) * hi.m }, true)
    else if v.abs.dy.lt lo.dy then ({ lo with m := (if v.m < 0 then -1 else 1) * lo.m }, true)
    else (v, false)

/-- The biquads PROPOSE may write, highest first. -/
def freeBiquads (mask : Nat) : List Nat := [3, 2, 1, 0].filter (fun s => bitOf mask s)

/-! ### Proposals (R203 to R205) -/

/-- A complex value with 60 fractional bits. -/
structure Cx where
  re : Int := 0
  im : Int := 0
  deriving DecidableEq, Repr

def Cx.add (a b : Cx) : Cx := { re := a.re + b.re, im := a.im + b.im }
def Cx.mul (a b : Cx) : Cx := { re := (a.re * b.re - a.im * b.im) / 2 ^ 60, im := (a.re * b.im + a.im * b.re) / 2 ^ 60 }
def Cx.div (a b : Cx) : Cx :=
  let n := b.re * b.re + b.im * b.im
  { re := (a.re * b.re + a.im * b.im) * 2 ^ 60 / n, im := (a.im * b.re - a.re * b.im) * 2 ^ 60 / n }
def Cx.ofNum (v : Num) : Cx := { re := shiftI v.m (v.e + 41) }
def Cx.sq (a : Cx) : Nat := (a.re * a.re + a.im * a.im).natAbs

/-- The angle of a complex value in turns × 2^−32, within half a turn either way. -/
def Cx.angle (a : Cx) : Int :=
  let fits (t : Int) : Bool := let (c, s) := cosSinQ70 t.toNat; (a.re.natAbs : Int) * s ≤ (a.im.natAbs : Int) * c
  let q := bisect fits 32 0 (2 ^ 30)
  let h := if a.re < 0 then 2 ^ 31 - q else q
  if a.im < 0 then -h else h

/-- What R203 proposes for a bandwidth: KP_V, KI_V, KP_P, and the notches by biquad. -/
structure Proposal where
  kpv : Num
  kiv : Num
  kpp : Num
  notches : List (Nat × List Num)
  deriving DecidableEq, Repr

/-- The proposal for the bandwidth `fv` in 1/16 Hz (R203). -/
def Mach.proposal (m : Mach) (x fv : Nat) (f : Nat → Nat) : Proposal :=
  let r15 (v : Dy) := (round1 15 v).1
  let resF (i : Nat) := (m.rg (AX_CM_RES_F.V.addr x + 0x10 * i)).toNat
  let p : Dy := { m := m.pgP (m.pgOf x) * 64, e := 0 }
  let w := m.co AX_WSCALE.MANT x
  let ka := r15 (w.dy.mul (recip (f 1) (r15 ((m.co AX_LIM_ASCALE.MANT x).dy.mul p))).dy)
  let kp := r15 (((m.co AX_PSCALE.MANT x).dy.mul p).mul (recip (f 2) w).dy)
  let om := r15 (m.w0 x fv)
  let kpv := r15 ((om.dy.mul (m.co AX_CM_J.MANT x).dy).mul (recip (f 3) ka).dy)
  let half : Num := { one with e := 0 }
  let above := (List.range (m.fld AX_CM_STAT.NRES x)).filter (fun i => fv < resF i)
  { kpv := kpv, kiv := r15 ((kpv.dy.mul om.dy).mul { m := 1, e := -2 })
    kpp := r15 ((om.dy.mul { m := 1, e := -2 }).mul (recip (f 4) kp).dy)
    notches := (above.zip (freeBiquads (m.fld AX_CM_POL.NOTCH_MASK x))).map (fun e =>
      let z := numOfWord (m.rg (AX_CM_RES_ZETA.MANT.addr x + 0x10 * e.1))
      let q0 := r15 ((recip (f (40 + e.1)) z).dy.mul { m := 1, e := -2 })
      let q : Num := if q0.dy.lt half.dy then half else if ({ m := 8, e := 0 } : Dy).lt q0.dy then { m := 2 ^ 18, e := 4 } else q0
      (e.2, m.notch x (resF e.1) q (m.co AX_CM_POL_NDEPTH.MANT x) (fun i => f (50 + 2 * e.1 + i)))) }

/-- The open velocity loop at bin `i` (R131, R139, R203): the controller, the biquads, KT_INV and the measured response. -/
def Mach.openLoop (m : Mach) (x : Nat) (p : Proposal) (i : Nat) : Cx :=
  let (c, s) := cosSinQ70 (m.binF x i * m.pgP (m.pgOf x) / 4000000000)
  let z : Cx := { re := c / 2 ^ 10, im := -(s / 2 ^ 10) }
  let unit : Cx := { re := 2 ^ 60 }
  let b := m.activeBank x
  let ctl := (Cx.ofNum p.kpv).add ((Cx.ofNum p.kiv).div (unit.add { re := -z.re, im := -z.im }))
  let h : Cx := { re := (Cx.ofNum (numOfWord (m.rg (AX_CM_FR_RE.MANT.addr x + 8 * i)))).re
                  im := (Cx.ofNum (numOfWord (m.rg (AX_CM_FR_IM.MANT.addr x + 8 * i)))).re }
  let kt := Cx.ofNum (m.bk x b BK_KT_INV.MANT)
  (List.range 4).foldl (fun l s =>
    let ws : Option (List Num) := match p.notches.find? (fun n => n.1 = s) with
      | some n => some n.2
      | none => if bitOf (m.chainBits x) (4 + s) then some ((List.range 5).map (m.bqWord x s b)) else none
    match ws with
    | none => l
    | some w =>
      let v (i : Nat) := Cx.ofNum (w.getD i {})
      l.mul (((v 0).add (z.mul ((v 1).add (z.mul (v 2))))).div (unit.add (z.mul ((v 3).add (z.mul (v 4)))))))
    ((ctl.mul h).mul kt)

/-- 20 log10 of a magnitude, in dB × 2^20. -/
def Cx.db (a : Cx) : Int := ((log2Q40 (max a.sq 1) 1 : Int) - 120 * 2 ^ 40) * 30102999566 / (10000000000 * 2 ^ 20)

/-- The least value a list of bracketed crossings allows, each free within its bracket; none where nothing crosses. -/
def leastCrossing (f : Nat → Nat) (l : List (Int × Int)) : Option Int :=
  ((l.zip (List.range l.length)).map (fun e =>
    min e.1.1 e.1.2 + ((f e.2 % ((e.1.1 - e.1.2).natAbs + 1) : Nat) : Int))).foldl (fun o v => some (match o with
      | none => v
      | some w => min v w)) none

/-- Phase margin in degrees and gain margin in dB of a proposal (R203), read between the two bins next to a crossing (log 35);
where no bins lie about one, the value is free. -/
def Mach.margins (m : Mach) (x : Nat) (p : Proposal) (f : Nat → Nat) : Num × Num :=
  let ls := (List.range 64).map (m.openLoop x p)
  let next := ls.zip (ls.drop 1)
  let pm (a : Cx) : Int := Cx.angle { re := -a.re, im := -a.im } * 360 / 2 ^ 12
  let loud (a : Cx) : Bool := 2 ^ 120 ≤ a.sq
  let pms := (next.filter (fun e => loud e.1 != loud e.2)).map (fun e => (pm e.1, pm e.2))
  let gms := (next.filter (fun e => (decide (e.1.im < 0) != decide (e.2.im < 0))
    && decide ((e.1.re * e.2.im - e.1.im * e.2.re) * sgn (e.2.im - e.1.im) < 0))).map (fun e => (-e.1.db, -e.2.db))
  let num (o : Option Int) (i : Nat) : Num := match o with
    | some v => (round1 15 { m := v, e := -20 }).1
    | none => numOfWord (BitVec.ofNat 32 (f i))
  (num (leastCrossing (fun i => f (2 + i)) pms) 0, num (leastCrossing (fun i => f (70 + i)) gms) 1)

/-- The bandwidth whose margins hold (R203): `fv`, or what is left of it, multiplied by 7/8 again and again down to POL_FVMIN. -/
def Mach.marginSearch (m : Mach) (x : Nat) (f : Nat → Nat) : Nat → Nat → Nat → Option (Nat × Num × Num)
  | 0, _, _ => none
  | n + 1, fv, i =>
    let (pm, gm) := m.margins x (m.proposal x fv f) (fun j => f (1024 + 200 * i + j))
    if (m.co AX_CM_POL_PM.MANT x).dy.le pm.dy && (m.co AX_CM_POL_GM.MANT x).dy.le gm.dy then some (fv, pm, gm)
    else if fv ≤ m.fld AX_CM_POL_FVMIN.V x ∨ fv = 0 then none
    else m.marginSearch x f n (max (fv * 7 / 8) (m.fld AX_CM_POL_FVMIN.V x)) (i + 1)

/-- PROPOSE ends (R203 to R205): the proposal image in gain set PSET, or NO_MARGIN. The CHAIN bits of its biquads go with the bank
change that takes it. -/
def Mach.proposeEnd (m : Mach) (x : Nat) (stamp : Stamp) (f : Nat → Nat) : Mach :=
  let low : Dy := if m.fld AX_CM_STAT.NRES x = 0 then { m := m.fld AX_CM_POL_FVMAX.V x, e := 0 }
    else ({ m := (m.rg (AX_CM_RES_F.V.addr x)).toNat, e := 0 } : Dy).mul (recip (f 0) (m.co AX_CM_POL_RESM.MANT x)).dy
  let fv0 := min (m.fld AX_CM_POL_FVMAX.V x) (shiftI low.m low.e).toNat
  match m.marginSearch x f 200 fv0 0 with
  | none => m.cmEnd x 5 10 stamp
  | some (fv, pm, gm) =>
    let p := m.proposal x fv f
    let b := m.activeBank x
    let act (i : Nat) := m.rg (bankWord x b i)
    let step := m.co AX_CM_POL_STEP.MANT x
    let gains : List (Nat × Num) := [(0x60 / 4, m.co AX_CM_J.MANT x), (0x64 / 4, m.co AX_CM_B.MANT x), (0x68 / 4, m.co AX_CM_C.MANT x),
      (0x40 / 4, p.kpv), (0x44 / 4, p.kiv), (0x4C / 4, p.kpp), (0x50 / 4, {})]
    let cl := gains.map (fun g => (g.1, stepClip g.2 (numOfWord (act g.1)) step (f (5 + g.1))))
    let words : List (Nat × W32) := cl.map (fun c => (c.1, wordOfNum c.2.1)) ++ p.notches.flatMap (fun n => notchWords n.1 n.2)
    let clipped := cl.any (fun c => c.2.2)
    let set := m.fld AX_CM_POL.PSET x
    let m := (List.range 64).foldl (fun m i => m.setRg (gsWord x set i) (match words.find? (fun w => w.1 = i) with
      | some w => w.2
      | none => act i)) m
    let m := m.setComm x { m.comm x with chain := p.notches.foldl (fun c n => c ||| 2 ^ (4 + n.1)) 0 }
    let m := (m.setRg (AX_CM_FV.V.addr x) (BitVec.ofNat 32 fv)).setRg (AX_CM_PM.MANT.addr x) (wordOfNum pm)
    let m := (m.setRg (AX_CM_GM.MANT.addr x) (wordOfNum gm)).raise AX_CM_STAT.PROP_OK x
    let m := m.raiseIf clipped AX_CM_STAT.CLIPPED x
    let ap := m.fld AX_CM_POL.APPROVE x
    let m := m.cmEnd x 3 0 stamp
    if ap = 2 && (!clipped || m.flg AX_CM_POL.CLIPOK x) then
      ((m.setComm x { m.comm x with part := 5, abort := 0 }).askChange x { kind := 0, gset := set, seed := (m.comm x).seed }).changeNext x
    else if ap = 1 || ap = 2 then m.cmEvent x 1 0 0 stamp
    else m

/-- The commit fence an event outside one belongs to: the axis's latest, or the present where the slice does not run. -/
def Mach.cmStamp (m : Mach) (x : Nat) : Stamp := if m.liveSlice x then (m.slice x).lastCommit else m.now

/-- A sequence's part ends (R197): its results are worked out, and FULL goes on to the next part. -/
def Mach.cmSequenceEnd (m : Mach) (x : Nat) : Mach :=
  let c := m.comm x
  let (f, m) := m.drawMany 65536
  let stamp := if c.part = 3 then m.cmStamp x else c.endAt
  match c.part with
  | 1 =>
    if c.k < 64 + c.len then m
    else match m.massEnd x f with
      | none => m.cmEnd x 5 11 stamp
      | some m => if c.seq = 4 then m.partStart x 2 else m.cmEnd x 2 0 stamp
  | 2 =>
    if c.k < 64 + c.len then m
    else
      let m := m.respEnd x f
      if c.seq = 4 then m.partStart x 3 else m.cmEnd x 2 0 stamp
  | 3 => m.proposeEnd x stamp f
  | _ => m

/-! ### Adaptation (R207 to R209) -/

/-- The inertia estimate of a move (R207, R208). -/
def Mach.moveInertia (m : Mach) (x : Nat) : Mach :=
  let c := m.comm x
  if !c.mvReady then m
  else
    let (f, m) := m.draw
    let a := pairDy c.estA
    let m := m.setComm x { c with mvReady := false }
    let old := (m.rg (AX_CM_MI_EST.MANT.addr x)).toNat
    if a.lt (m.co AX_CM_MI_SAMIN.MANT x).dy then (m.raise AX_GS_STAT.INVALID x).cmEvent x 5 0 old c.estAt
    else
      let v := common [a, pairDy c.estB]
      let je := (round1 15 (quot20 f (v.getD 1 0) (v.getD 0 0).toNat).dy).1
      let m := (m.setRg (AX_CM_MI_EST.MANT.addr x) (wordOfNum je)).setComm x { m.comm x with je := je }
      let lo (s : Nat) := (m.co (AX_GS_JLO.MANT.sh (8 * s)) x).dy
      let hi (s : Nat) := (m.co (AX_GS_JHI.MANT.sh (8 * s)) x).dy
      let h := m.fld AX_CM_ADAPT.JHYS x
      let cur := m.fld AX_GS_STAT.CUR x
      if cur < 8 && ((lo cur).mul { m := 64 - h, e := -6 }).le je.dy && je.dy.lt ((hi cur).mul { m := 64 + h, e := -6 }) then m
      else
        match (List.range 8).find? (fun s => bitOf (m.fld AX_CM_POL.SETS x) s && (lo s).le je.dy && je.dy.lt (hi s)) with
        | none => (m.raise AX_GS_STAT.NOSET x).cmEvent x 5 0 (numWord je) c.estAt
        | some s =>
          if m.flg AX_CM_POL.GS_AUTO x then
            (m.askChange x { kind := 2, gset := s, seed := m.fld AX_CM_ADAPT.SEED x }).changeNext x
          else m

/-- A notch interval ends (R209). -/
def Mach.notchEnd (m : Mach) (x : Nat) : Mach :=
  if !m.flg AX_CM_ADAPT.NT_EN x then m
  else
    let c := m.comm x
    let m := m.until (c.ntFrom + m.ntInt x * 16000000)
    let en (i : Nat) := c.ntRe.getD i 0 * c.ntRe.getD i 0 + c.ntIm.getD i 0 * c.ntIm.getD i 0
    let d := c.fn * m.ntStep x / 64
    let up := 2 * en 0 ≤ en 2 && en 2 ≠ 0
    let dn := 2 * en 2 ≤ en 0 && en 0 ≠ 0
    let c := { c with ntRe := [], ntIm := [], ntK := 0, ntFrom := m.now }
    if !up && !dn then m.setComm x c
    else
      let lo := m.fld AX_CM_POL_NTLO.V x
      let hi := m.fld AX_CM_POL_NTHI.V x
      let t := if up then c.fn + d else c.fn - d
      let t := if hi < t then hi else if t < lo then lo else t
      let m := (m.setComm x { c with fn := t }).setFld AX_CM_NT_F.V x t
      let m := if t = hi || t = lo then m.cmEvent x 4 0 t (m.cmStamp x) else m
      if m.flg AX_CM_POL.NT_AUTO x then (m.askChange x { kind := 3, seed := 2 }).changeNext x else m

/-- A write of AX_CM_ADAPT (R209, R214): enabling the tracker is refused, with CAUSE 2, while VL or NT_BQ is outside the
chain; otherwise it starts at the interval's beginning, on the frequency of the notch in the active bank. -/
def Mach.adaptWrite (m : Mach) (x : Nat) (v : W32) : Mach :=
  let was := m.flg AX_CM_ADAPT.NT_EN x
  let fs := [AX_CM_ADAPT.NT_BQ, AX_CM_ADAPT.NT_INT, AX_CM_ADAPT.NT_STEP, AX_CM_ADAPT.MI_EN, AX_CM_ADAPT.MI_EARLY,
    AX_CM_ADAPT.EST_PER, AX_CM_ADAPT.JHYS, AX_CM_ADAPT.SEED]
  let m := fs.foldl (fun m f => m.setFld f x (f.of v)) m
  let m := m.raiseIf (AX_CM_ADAPT.NT_INT.of v = 0 || AX_CM_ADAPT.NT_STEP.of v = 0 || AX_CM_ADAPT.EST_PER.of v < 4) AX_STATE.RSVW x
  let on := AX_CM_ADAPT.NT_EN.of v ≠ 0
  if !on then m.setFld AX_CM_ADAPT.NT_EN x 0
  else if was then m
  else if bitOf (m.chainBits x) 2 && bitOf (m.chainBits x) (4 + m.fld AX_CM_ADAPT.NT_BQ x) then
    (m.raise AX_CM_ADAPT.NT_EN x).setComm x { m.comm x with
      ntRe := [], ntIm := [], ntK := 0, ntFrom := m.now, fn := m.notchF x (m.fld AX_CM_ADAPT.NT_BQ x) (m.activeBank x) }
  else m.setFld AX_CM_STAT.CAUSE x 2

/-- An applied group that marks AX_SP_TAG, or changes AX_LIM_CTRL from `old`, aborts a running excitation at the next commit fence
(R200). A GO applied to a disabled slice is discarded (R165), and the bank change that brought it with it. -/
def Mach.cmTarget (m : Mach) (x : Nat) (w : SMap (Option W32)) (old : W32) (stamp : Stamp) : Mach :=
  let m := if m.engine x && (marks w 0xE058 || m.rg (AX_LIM_CTRL.MODE.addr x) ≠ old)
    then m.setComm x { m.comm x with abort := 8 } else m
  if marks w 0xE080 && m.flg AX_OSC.GO x && !m.en x && (m.comm x).active.isSome then
    (m.setComm x { m.comm x with active := none }).cmAbort x 9 stamp
  else m

end Sys2Proof.Machine
end

