-- ==== Sys2Proof/Machine/Supervision.lean ====
section
/-! DEFINITION. Supervision (R436 to R456) but for the watchdogs' expiries: detection of last orders, the record and its
buffers, the external fault, the stop timeout. -/

namespace Sys2Proof.Machine

/-! ### Watchdogs: what they show (R441, R456) -/

def Mach.wd (m : Mach) (w : Nat) : Wd := SMap.get (fun _ => {}) m.wds w
def Mach.setWd (m : Mach) (w : Nat) (d : Wd) : Mach := { m with wds := SMap.set (fun _ => {}) m.wds w d }

/-- A field of watchdog `w`: of SUP_PWD_*_w for a pair, of SUP_DWD_* for the device (8). -/
def wdFld (p d : Fld) (w : Nat) : Fld := if w < 8 then p.sh (0x10 * w) else d

/-- Vernier in 10 µs. -/
abbrev vnPer10us : Nat := 160000

/-- TMAX: 0 is treated as 1,000. -/
def Mach.wdMax (m : Mach) (w : Nat) : Nat :=
  let v := m.fld (wdFld SUP_PWD_WIN.TMAX SUP_DWD_WIN.TMAX w) 0
  if v = 0 then 1000 else v

/-- TMIN: TMAX or more is treated as 0. -/
def Mach.wdMin (m : Mach) (w : Nat) : Nat :=
  let v := m.fld (wdFld SUP_PWD_WIN.TMIN SUP_DWD_WIN.TMIN w) 0
  if m.wdMax w ≤ v then 0 else v

/-- Time of the window of watchdog `w` gone so far. -/
def Mach.wdGone (m : Mach) (w : Nat) : Nat :=
  let d := m.wd w
  match d.frozen with
  | some n => n
  | none => m.now - d.from_

/-- The status word of watchdog `w`, LEFT worked out (R456). -/
def Mach.wdStat (m : Mach) (w : Nat) : W32 :=
  let f := wdFld SUP_PWD_STAT.LEFT SUP_DWD_STAT.LEFT w
  let word := m.rg (f.addr 0)
  if m.flg (wdFld SUP_PWD_STAT.RUN SUP_DWD_STAT.RUN w) 0 ∨ (m.wd w).frozen.isSome
    then f.into word ((m.wdMax w * vnPer10us - m.wdGone w) / vnPer10us) else f.into word 0

/-! ### Detection (R447) -/

/-- Whether source `i` (0 to 4) is enabled: SRCEN holds source 0 in its highest bit. -/
def Mach.srcEnabled (m : Mach) (i : Nat) : Bool := bitOf (m.fld SUP_LO_CFG.SRCEN 0) (4 - i)

/-- Whether input or monitor `i` detects now: 0 to 4 the sources of R447, 5 EXTF_N. -/
def Mach.detects (m : Mach) (i : Nat) : Bool := bitOf m.sup.lvl i

def Mach.setDetect (m : Mach) (i : Nat) (on : Bool) : Mach :=
  { m with sup := { m.sup with lvl := putBits m.sup.lvl i i (bit on) } }

/-- Whether last orders is active. -/
def Mach.loActive (m : Mach) : Bool := m.flg SUP_LO_STAT.ACT 0

/-! ### The record (R452 to R454) -/

/-- Address of record buffer `b`. -/
def recBuf (b : Nat) : Nat := 0x36001000 + 0x1000 * b

/-- The bytes of the retention store. -/
def Mach.retGet (m : Mach) (a n : Nat) : List Byte := SMap.getRange Memory.unlisted m.ret a n
def Mach.retPut (m : Mach) (a : Nat) (bs : List Byte) : Mach := { m with ret := SMap.setRange Memory.unlisted m.ret a bs }

/-- One bit of CRC-32 (IEEE 802.3), reflected. -/
def crcBit (c : Nat) : Nat := if c % 2 = 1 then (c / 2) ^^^ 0xEDB88320 else c / 2

/-- One byte of CRC-32. -/
def crcByte (c : Nat) (b : Byte) : Nat := (List.range 8).foldl (fun c _ => crcBit c) (c ^^^ b.toNat)

/-- CRC-32 over a list of bytes. -/
def crc32 (bs : List Byte) : Nat := (bs.foldl crcByte 0xFFFFFFFF) ^^^ 0xFFFFFFFF

/-- SEQ of buffer `b` as it stands. -/
def Mach.recSeq (m : Mach) (b : Nat) : Nat := natOfBytes (m.retGet (recBuf b + 4) 4)

/-- Whether buffer `b` holds a valid record. -/
def Mach.recValid (m : Mach) (b : Nat) : Bool :=
  natOfBytes (m.retGet (recBuf b) 4) = 0x4C4F5244
    && natOfBytes (m.retGet (recBuf b + 4088) 4) = crc32 (m.retGet (recBuf b) 4088)
    && natOfBytes (m.retGet (recBuf b + 4092) 4) = m.recSeq b

/-- The newest valid buffer: the greater SEQ in modulo-2^32 order. -/
def Mach.recNewest (m : Mach) : Option Nat :=
  match m.recValid 0, m.recValid 1 with
  | false, false => none
  | true, false => some 0
  | false, true => some 1
  | true, true => if (m.recSeq 1 + 2 ^ 32 - m.recSeq 0) % 2 ^ 32 < 2 ^ 31 then some 1 else some 0

/-- The buffers are evaluated: at every reset and after every commit. -/
def Mach.recEvaluate (m : Mach) : Mach :=
  let n := m.recNewest
  let m := ((m.setFlg SUP_LO_STAT.V0 0 (m.recValid 0)).setFlg SUP_LO_STAT.V1 0 (m.recValid 1)).setFld SUP_LO_STAT.NEWEST 0 (n.getD 0)
  m.setFld SUP_LO_SEQ.SEQ 0 (match n with
    | none => 0
    | some b => m.recSeq b)

/-- A register word's bytes as an observe read takes them. -/
def Mach.wordBytes (m : Mach) (a n : Nat) : List Byte := bytesOfNat n ((m.rg a).toNat + 2 ^ 32 * (m.rg (a + 4)).toNat)

/-- The entry of axis `x`. -/
def Mach.recAxis (m : Mach) (x : Nat) : List Byte :=
  let w (fl : Fld) (n : Nat) := m.wordBytes (fl.addr x) n
  let top (fl : Fld) := bytesOfNat 1 ((m.rg (fl.addr x)).toNat / 2 ^ 24)
  w AX_OUT_PFB.V 8 ++ bytesOfNat 8 (unsigned 64 (m.stopS x (m.slice x).dyn.lim)) ++ w AX_LIM_OUT_V.VAL 8
    ++ w AX_LIM_TAG_A.ACTIVE 4 ++ w AX_GT_CAUSE.CAUSE 2 ++ top AX_LIM_STAT.PHASE ++ top AX_GT_STAT.RUN
    ++ w AX_STICKY.DLMISS 4 ++ w AX_OUT_FLAGS.V 4 ++ bytesOfNat 8 (m.slice x).lastCommit

/-- The entry of converter channel `c`. -/
def Mach.recChannel (m : Mach) (c : Nat) : List Byte :=
  let x := 64 + c
  let w (fl : Fld) (n : Nat) := m.wordBytes (fl.addr x) n
  w AX_OUT_IQ.MANT 4 ++ w AX_OUT_ID.MANT 4 ++ w CV_BRK_STAT.RUN 4 ++ w AX_GT_CAUSE.CAUSE 2 ++ [0, 0] ++ w CV_PRED.MANT 4
    ++ bytesOfNat 8 (m.slice x).lastCommit ++ bytesOfNat 4 0

/-- The entry of pair `p`. -/
def Mach.recPair (m : Mach) (p : Nat) : List Byte :=
  m.wordBytes (SYS_PAIR_STAT.STATE.addr p) 4 ++ m.wordBytes (SYS_PAIR_MMADDR.ADDR.addr p) 4 ++ bytesOfNat 4 (m.wdStat p).toNat
    ++ bytesOfNat 4 0 ++ m.wordBytes (SYS_PAIR_HFSTAMP.STAMP.addr p) 8 ++ bytesOfNat 8 0

/-- The timers that select input `i` and act on it: their quadrant is powered (R239). -/
def Mach.stoTimers (m : Mach) (i : Nat) : List Nat :=
  (List.range 72).filter (fun x => m.stoSel x = some i && m.pdOn (13 + quadOf x))

/-- The level on SAFE_A and SAFE_B (R297): every input of SMASK in its safe state, every gate of every timer that selects such
an input off, and no disagreement. -/
def Mach.stoConf (m : Mach) : Bool :=
  let mask := m.fld OP_STO_CFG.SMASK 0
  m.outOfReset && !m.flg OP_STO_STAT.SPATH 0 &&
    (List.range 8).all (fun i => !bitOf mask i ||
      (m.stoSafe i && (m.stoTimers i).all (fun x => (List.range (2 * legsOf x)).all (fun g => m.gateOff x g))))

/-- Bytes 0 to 4,087 of a record. -/
def Mach.recBody (m : Mach) (seq kind cmp : Nat) (dstamp cstamp : Stamp) : List Byte :=
  bytesOfNat 4 0x4C4F5244 ++ bytesOfNat 4 seq ++ bytesOfNat 1 kind ++ bytesOfNat 1 cmp ++ bytesOfNat 2 (m.fld SUP_LO_STAT.SRC 0)
    ++ m.wordBytes (SYS_IDENT.PART.addr 0) 4 ++ bytesOfNat 8 dstamp ++ bytesOfNat 8 cstamp ++ bytesOfNat 4 m.sup.warms
    ++ List.replicate 28 0
    ++ (List.range 64).flatMap (fun x => m.recAxis x) ++ (List.range 8).flatMap (fun c => m.recChannel c)
    ++ (List.range 8).flatMap (fun p => m.recPair p)
    ++ (List.range 96).flatMap (fun i => m.wordBytes (SUP_LO_USER.V.addr 0 + 4 * i) 4)
    ++ [SUP_FSTAT.FAULT.addr 0, SYS_MEM_STAT.UE.addr 0, TAP_CSTAT.RDROP.addr 0, TAP_MC_STAT.READY.addr 0].flatMap (fun a => m.wordBytes a 4)
    ++ bytesOfNat 4 (OP_STO_STAT.CONF.into (m.rg (OP_STO_STAT.SAFE.addr 0)) (bit m.stoConf)).toNat ++ m.wordBytes (TB_STATUS.LOCK.addr 0) 4
    ++ List.replicate 32 0

/-- A record of `kind` begins (R452, R453): its values are those of the next tick, and it goes into the buffer that does not
hold the newest valid record. -/
def Mach.recStart (m : Mach) (kind cmp : Nat) (dstamp : Stamp) : Mach :=
  let b := match m.sup.rec_ with
    | some (b, _) => b
    | none => (match m.recNewest with
      | some 0 => 1
      | _ => 0)
  let seq := match m.recNewest with
    | none => 1
    | some n => (m.recSeq n + 1) % 2 ^ 32
  let body := m.recBody seq kind cmp dstamp ((m.now / 64 + 1) * 64)
  { m.retPut (recBuf b) body with sup := { m.sup with rec_ := some (b, kind) } }

/-- The record being written is committed (R453). -/
def Mach.recCommit (m : Mach) : Mach :=
  match m.sup.rec_ with
  | none => m
  | some (b, kind) =>
    let m := { m with sup := { m.sup with rec_ := none } }
    let m := m.retPut (recBuf b + 4088) (bytesOfNat 4 (crc32 (m.retGet (recBuf b) 4088)))
    let m := (m.retPut (recBuf b + 4092) (m.retGet (recBuf b + 4) 4)).recEvaluate
    if kind = 2 && m.loActive then m.raise SUP_LO_STAT.DONE 0 else m

/-! ### Last orders (R448, R450) -/

def Mach.reed (m : Mach) (c : Nat) : Reed := SMap.get (fun _ => {}) m.reeds c
def Mach.setReed (m : Mach) (c : Nat) (d : Reed) : Mach := { m with reeds := SMap.set (fun _ => {}) m.reeds c d }

/-- Whether pair `p` is a safe pair. -/
def Mach.safePair (m : Mach) (p : Nat) : Bool := !m.flg SYS_PAIR_STAT.MODE p

/-- A detection of source `src` with its stamp; `cmp` is the comparator of source CMP. -/
def Mach.loStart (m : Mach) (src : Nat) (stamp : Stamp) (cmp : Nat) : Mach :=
  let was := m.loActive
  let m := m.setFld SUP_LO_STAT.SRC 0 (m.fld SUP_LO_STAT.SRC 0 ||| 2 ^ src)
  if was then m
  else
    let m := (m.raise SUP_LO_STAT.ACT 0).setFault SUP_FSTAT.LO
    let m := (m.setFld SUP_LO_STAT.DONE 0 0).setFld SUP_LO_STAMP.V 0 stamp
    let m := m.recStart 2 (if src = 5 then cmp else 0) stamp
    let stops := (List.range 64).filter (fun x => m.flg AX_STOP_CTRL.LO x && m.liveSlice x)
    let m := { m with sup := { m.sup with stops := stops } }
    let m := m.stopAxes (fun x => m.flg AX_STOP_CTRL.LO x)
    (List.range 8).foldl (fun m p =>
      if m.safePair p then m.setReed (2 * p) { m.reed (2 * p) with lorders := true } else m) m

/-- Input or monitor `i` (0 to 4) changes to detecting, or no longer detects, with the stamp of the edge (R447). -/
def Mach.loInput (m : Mach) (i : Nat) (on : Bool) (stamp : Stamp) : Mach :=
  let was := m.detects i
  let m := m.setDetect i on
  if on && !was && m.srcEnabled i then m.loStart i stamp 0 else m

/-- PF_WARN_N goes low for its filter time after the edge `e`, or high again. -/
def Mach.pfWarn (m : Mach) (low : Bool) (e : Edge) : Mach :=
  if !m.outOfReset then m
  else
    let stamp := (m.stampEdge e).1
    (m.until (stamp + (if low then m.fld SUP_LO_CFG.PFFILT 0 * 64 else 0))).loInput 0 low stamp

/-- PF_CRIT_N (1) or a supply monitor (2 VS, 3 VCORE, 4 VANA) detects from the edge `e` on, or no longer does. -/
def Mach.supplyInput (m : Mach) (i : Nat) (on : Bool) (e : Edge) : Mach :=
  if !m.outOfReset then m
  else
    let stamp := (m.stampEdge e).1
    (m.until stamp).loInput i on stamp

/-- Whether an enabled source of bits 0 to 4 detects. -/
def Mach.loHolds (m : Mach) : Bool := (List.range 5).any (fun i => m.detects i && m.srcEnabled i)

/-- SUP_LO_CMD END (R450). -/
def Mach.loEnd (m : Mach) : Mach :=
  if m.loHolds then m.raise SUP_FSTAT.RSVW 0
  else
    let m := ((m.setFld SUP_LO_STAT.ACT 0 0).setFld SUP_LO_STAT.DONE 0 0).setFld SUP_LO_STAT.SRC 0 0
    { m with sup := { m.sup with stops := [] } }

/-- A snapshot of `kind` (0 periodic, 1 requested) is asked for (R450, R452). -/
def Mach.snapshot (m : Mach) (kind : Nat) : Mach :=
  if m.loActive || m.sup.rec_.isSome then m else m.recStart kind 0 m.now

/-- The snapshot interval ends (R452). -/
def Mach.snapTimer (m : Mach) : Mach :=
  let n := m.fld SUP_LO_CFG.SNAP 0
  if n = 0 then m
  else
    let t := m.sup.snapFrom + n * 16000000
    let m := m.until t
    { m with sup := { m.sup with snapFrom := t } }.snapshot 0

/-- A write of SUP_LO_CMD. -/
def Mach.loCmdWrite (m : Mach) (v : W32) : Mach :=
  match SUP_LO_CMD.CMD.of v with
  | 1 => m.loStart 6 m.now 0
  | 2 => m.loEnd
  | 3 => m.snapshot 1
  | _ => m

/-- A write of SUP_LO_CFG: a source that is enabled while it detects is detected then. -/
def Mach.loCfgWrite (m : Mach) (v : W32) : Mach :=
  let was := (List.range 5).map m.srcEnabled
  let snap := m.fld SUP_LO_CFG.SNAP 0
  let m := [SUP_LO_CFG.SRCEN, SUP_LO_CFG.VTH, SUP_LO_CFG.SNAP, SUP_LO_CFG.PFFILT].foldl (fun m f => m.setFld f 0 (f.of v)) m
  let m := if SUP_LO_CFG.SNAP.of v ≠ snap then { m with sup := { m.sup with snapFrom := m.now } } else m
  (List.range 5).foldl (fun m i =>
    if m.detects i && m.srcEnabled i && !was.getD i true then m.loStart i m.now 0 else m) m

/-! ### The external fault (R438, R439) -/

/-- The action of SUP_ESC.EXTF_ACT. -/
def Mach.extfActs (m : Mach) (stamp : Stamp) : Mach :=
  let mask := m.fld SUP_ESC_AXM.V 0
  let ax := (List.range 64).filter (fun x => bitOf mask x)
  match m.fld SUP_ESC.EXTF_ACT 0 with
  | 0 => m
  | 1 => m.stopAxes (fun x => bitOf mask x)
  | 2 => ax.foldl (fun m x => m.shutter x 0 m.now) m
  | _ => m.loStart 6 stamp 0

/-- EXTF_N goes low for its filter time after the edge `e`, or high again. -/
def Mach.extf (m : Mach) (low : Bool) (e : Edge) : Mach :=
  if !m.outOfReset then m
  else
    let stamp := (m.stampEdge e).1
    let m := m.until (stamp + (if low then m.fld SUP_ESC.EXTF_FILT 0 * 64 else 0))
    let was := m.detects 5
    let m := m.setDetect 5 low
    if low && !was then (m.setFault SUP_FSTAT.EXTF).extfActs stamp else m

/-- A write of SUP_FSTAT (R438): what is written 1 is cleared, but EXTF is set again while EXTF_N is low. -/
def Mach.fstatWrite (m : Mach) (v : W32) : Mach :=
  let keep : W32 := if m.detects 5 then 0x10 else 0
  (m.setRg (SUP_FSTAT.FAULT.addr 0) (m.rg (SUP_FSTAT.FAULT.addr 0) &&& ~~~(v &&& 0xFFFF &&& ~~~keep))).refreshFault

/-! ### The stop timeout (R440) -/

/-- The stop that supervision started on axis `x` has had STOPTMO ms: the shutter, unless it stands in STOPPED. -/
def Mach.stopTimeout (m : Mach) (x : Nat) : Mach :=
  let n := m.fld SUP_ESC.STOPTMO 0
  match (m.slice x).supStop with
  | none => m
  | some t =>
    if n = 0 then m
    else
      let m := m.until (t + n * 16000000)
      let m := m.setSlice x { m.slice x with supStop := none }
      if m.fld AX_LIM_STAT.PHASE x = 4 then m else m.shutter x 6 m.now

end Sys2Proof.Machine
end

