-- ==== Sys2Proof/Machine/Comparators.lean ====
section
/-! DEFINITION. Comparators and comparator windows (R86 to R108). -/

namespace Sys2Proof.Machine

/-- Settle time of a mode in vernier (R88). -/
def settleTime (mode : Nat) : Nat :=
  match mode with
  | 0 => 32000
  | 1 => 80000
  | 2 => 320000
  | _ => 3200000

/-- Length of a swap (kind 1) or tie check in vernier (R104). -/
def checkTime (kind mode : Nat) : Nat :=
  64 * (match mode, kind with
    | 0, 1 => 7
    | 0, _ => 10
    | 1, 1 => 15
    | 1, _ => 23
    | 2, 1 => 155
    | 2, _ => 233
    | _, 1 => 2005
    | _, _ => 3008)

/-! ### Event records and actions (R96 to R99) -/

/-- Posts an event record of `c`. -/
def Mach.cmpRecord (m : Mach) (c kind number chk : Nat) (stamp : Stamp) (flags : Nat) : Mach :=
  m.post (m.fld CMP_ACT.EVQ (m.actOf c))
    (bytesOfNat 8 stamp ++ bytesOfNat 1 kind ++ bytesOfNat 1 flags ++ bytesOfNat 2 number ++ bytesOfNat 1 chk)
    (some (CMP_STAT.EVDROP, c))

/-- Sets the comparators that chop leg `l`; AX_GT_STAT.CHOP shows whether any does (R98). -/
def Mach.setChop (m : Mach) (x l : Nat) (cs : List Nat) : Mach :=
  let t := m.timer x
  let m := m.setTimer x (t.setLeg l { t.leg l with chop := cs })
  let v := m.fld AX_GT_STAT.CHOP x
  m.setFld AX_GT_STAT.CHOP x (putBits v l l (bit (cs ≠ [])))

/-- Comparator `c` chops leg LEG of its owner (R97): at once into the chop state. LEG 3 is no leg of an axis timer. -/
def Mach.chop (m : Mach) (c : Nat) (stamp : Stamp) : Mach :=
  match m.cmpOwner c with
  | none => m
  | some x =>
    let l := m.fld CMP_ACT.LEG c
    if legsOf x ≤ l then m
    else
      let cs := ((m.timer x).leg l).chop
      let m := m.setChop x l (if c ∈ cs then cs else cs ++ [c])
      (m.raise CMP_STAT.CHOPPING c).drive x l stamp

/-- The trip actions of `c`'s CMP_ACT, provided ARM is 1 (R96, R97). -/
def Mach.tripActs (m : Mach) (c kind number : Nat) (stamp : Stamp) (flags : Nat) : Mach :=
  if !m.flg CMP_CTRL.ARM c then m
  else
    let m := if m.flg CMP_ACT.CHOP c then m.chop c stamp else m
    let m := match m.cmpOwner c with
      | some x => if m.flg CMP_ACT.SHUT c then m.shutter x 1 stamp (bitOf flags 0) (bitOf flags 1) else m
      | none => m
    let m := if m.flg CMP_ACT.EVT c then m.cmpRecord c kind number 0 stamp flags else m
    if m.flg CMP_ACT.LO c then m.loStart 5 stamp c else m

/-- The release record of `c`'s CMP_ACT (R97). -/
def Mach.releaseActs (m : Mach) (c kind number : Nat) (stamp : Stamp) (flags : Nat) : Mach :=
  if m.flg CMP_CTRL.ARM c && m.flg CMP_ACT.EVT c && m.flg CMP_ACT.EVREL c then
    m.cmpRecord c kind number 0 stamp flags
  else m

/-! ### Windows (R100, R101) -/

/-- The state of window `w` formed from its members: output, and whether it is resolved (R101). -/
def Mach.windowState (m : Mach) (w : Nat) : Bool × Bool :=
  let t (c : Nat) := !m.flg CMP_STAT.UNRES c && m.flg CMP_STAT.OUT c
  let r (c : Nat) := !m.flg CMP_STAT.UNRES c && !m.flg CMP_STAT.OUT c
  let inside := m.flg CMP_WIN_CTRL.SENSE w
  if t (2 * w) || t (2 * w + 1) then (!inside, true)
  else if r (2 * w) && r (2 * w + 1) then (inside, true)
  else (m.flg CMP_CTRL.INIT (2 * w), false)

/-- The window follows its members, and trips or releases (R101). -/
def Mach.windowFollow (m : Mach) (w : Nat) (stamp : Stamp) (flags : Nat) : Mach :=
  if !m.flg CMP_WIN_CTRL.EN w then m
  else
    let wasOut := m.flg CMP_WIN_STAT.OUT w
    let wasUnres := m.flg CMP_WIN_STAT.UNRES w
    let (out, res) := m.windowState w
    let m := (m.setFlg CMP_WIN_STAT.OUT w out).setFlg CMP_WIN_STAT.UNRES w (!res)
    let f := putBits flags 3 3 (bit wasUnres)
    if !res then m
    else if out && (wasUnres || !wasOut) then
      ((m.countSat CMP_WIN_STAT.TRIPS w).raise CMP_WIN_STAT.TRIP w).tripActs (2 * w) 3 w stamp f
    else if !out && !wasUnres && wasOut then m.releaseActs (2 * w) 4 w stamp (putBits flags 3 3 0)
    else m

/-! ### Output changes (R93 to R96) -/

/-- OUT takes `v` and the state is resolved: a trip or a release where that is a change (R94, R96). -/
def Mach.cmpOut (m : Mach) (c : Nat) (v : Bool) (stamp : Stamp) (arb dir blanked : Bool) : Mach :=
  let wasOut := m.flg CMP_STAT.OUT c
  let first := m.flg CMP_STAT.UNRES c
  let flags := bit arb + 2 * bit dir + 4 * bit blanked + 8 * bit first
  let m := ((m.setFld CMP_STAT.UNRES c 0).setFlg CMP_STAT.OUT c v).setFlg CMP_STAT.RAW c v
  let m :=
    if v && (first || !wasOut) then
      let m := (m.countSat CMP_CNT.TRIPS c).raise CMP_STAT.TRIP c
      let m := (m.setFld CMP_STAMP.STAMP c stamp).setFlg CMP_STAT.ARB c arb
      let m := (m.setFlg CMP_STAT.ARB_DIR c dir).windowEvent c stamp arb dir
      if m.inWindow c then m else m.tripActs c 0 c stamp flags
    else if !v && !first && wasOut then
      (if m.inWindow c then m else m.releaseActs c 1 c stamp (putBits flags 3 3 0))
    else m
  m.windowFollow (c / 2) stamp (putBits flags 3 3 0)

/-- Whether OUT holds: a blank runs (R93), or a swap or tie check (R104). -/
def Cmp.masked (d : Cmp) : Bool :=
  d.blank.isSome || (match d.check with
    | some k => k.running && k.kind ≠ 3
    | none => false)

/-- OUT takes the current RAW, unless it holds (R93, R104). DEDUCED: where a check ends inside a blank both rules hold OUT, so it
takes RAW at the later of the two ends. -/
def Mach.takeRaw (m : Mach) (c : Nat) (stamp : Stamp) (arb dir blanked : Bool) : Mach :=
  let d := m.cmp c
  match d.raw with
  | none => m
  | some r =>
    if !d.masked && (m.flg CMP_STAT.UNRES c || r ≠ m.flg CMP_STAT.OUT c) then m.cmpOut c r stamp arb dir blanked else m

/-- The blank under way ends at `e` (R93). -/
def Mach.blankEnds (m : Mach) (c : Nat) (e : Stamp) : Mach :=
  let d := m.cmp c
  let m := (m.until e).setCmp c { d with blank := none, hit := false }
  (m.raiseIf (d.hit && d.raw = some false) CMP_STAT.BLANK_HIT c).takeRaw c e false false true

/-- The blank under way ends where its end is no later than `t`. -/
def Mach.blankDue (m : Mach) (c : Nat) (t : Stamp) : Mach :=
  match (m.cmp c).blank with
  | some e => if e ≤ t then m.blankEnds c e else m
  | none => m

/-- Blanks start and end up to `t`, in time order; a start inside a running blank restarts it (R92). -/
def Mach.blankCatch (m : Mach) (c : Nat) (t : Stamp) : List (Stamp × Nat) → Mach
  | [] => m.blankDue c t
  | b :: rest =>
    if t < b.1 then m.blankDue c t
    else
      let m := m.blankDue c b.1
      let d := m.cmp c
      (m.setCmp c { d with blank := some (b.1 + b.2), hit := d.blank.isSome && d.hit, starts := rest }).blankCatch c t rest

/-- The end of the blank under way, or of the next to start. -/
def blankEndAt : Option Stamp → List (Stamp × Nat) → Option Stamp
  | e, [] => e
  | none, b :: rest => blankEndAt (some (b.1 + b.2)) rest
  | some e, b :: rest => if b.1 < e then blankEndAt (some (b.1 + b.2)) rest else some e

/-- The end of a blank (R93). -/
def Mach.blankEnd (m : Mach) (c : Nat) : Mach :=
  let d := m.cmp c
  match blankEndAt d.blank d.starts with
  | none => m
  | some e => m.blankCatch c e d.starts

/-- The input of `c` leaves the hysteresis band on the trip side or on the release side (R91); `stamp` is the instant the
output would change. -/
def Mach.cmpCross (m : Mach) (c : Nat) (e : Edge) (trip : Bool) : Mach :=
  if !m.flg CMP_CTRL.EN c || !(m.cmp c).settled || (m.cmp c).raw = some trip then m
  else
    let (stamp, arb, dir) := m.stampEdge e
    let m := (m.blankCatch c stamp (m.cmp c).starts).until stamp
    let d := m.cmp c
    let masks := d.blank.isSome && trip && (m.flg CMP_STAT.UNRES c || !m.flg CMP_STAT.OUT c)
    let m := m.setCmp c { d with raw := some trip, hit := d.hit || masks }
    let m := if m.flg CMP_STAT.UNRES c then m else m.setFlg CMP_STAT.RAW c trip
    m.takeRaw c stamp arb dir false

/-- The first evaluation after the settle time (R94). -/
def Mach.cmpSettled (m : Mach) (c : Nat) (i : BandSide) : Mach :=
  let d := m.cmp c
  if !m.flg CMP_CTRL.EN c || d.settled then m
  else
    let m := (m.until d.settleAt).blankCatch c d.settleAt d.starts
    let d := m.cmp c
    match i with
    | .inside => m.setCmp c { d with settled := true }
    | .tripSide => (m.setCmp c { d with settled := true, raw := some true }).takeRaw c d.settleAt false false false
    | .releaseSide => (m.setCmp c { d with settled := true, raw := some false }).takeRaw c d.settleAt false false false

/-! ### The end of a chop (R98) -/

/-- A carrier event of leg `l`: chops end whose comparators read not tripped. -/
def Mach.chopEnds (m : Mach) (x l : Nat) : Mach :=
  let cs := ((m.timer x).leg l).chop
  if cs = [] then m
  else
    let stay := cs.filter (fun c => m.actingOut c)
    let m := m.setChop x l stay
    (cs.filter (fun c => !m.actingOut c)).foldl (fun m c => m.setFld CMP_STAT.CHOPPING c 0) m

/-- A comparator's chop ends at once, wherever it holds (R108). -/
def Mach.unchop (m : Mach) (c : Nat) : Mach :=
  let m := m.setFld CMP_STAT.CHOPPING c 0
  (List.range 72).foldl (fun m x => (List.range (legsOf x)).foldl (fun m l =>
    let cs := ((m.timer x).leg l).chop
    if c ∈ cs then (m.setChop x l (cs.filter (· ≠ c))).redrive x l (m.rank x l) m.now else m) m) m

/-! ### Checks (R102 to R106) -/

/-- Ends the check under way with a result (R106): a failure sets CHK_FAIL, posts KIND 2 and may shutter. -/
def Mach.checkResult (m : Mach) (c st code : Nat) (stamp : Stamp) : Mach :=
  let m := m.setCmp c { m.cmp c with check := none }
  let m := ((m.setFld CMP_CHK_RES.ST c st).setFld CMP_CHK_RES.BUSY c 0).setFld CMP_CHK_RES.CODE c code
  if st = 2 ∨ st = 3 ∨ st = 4 ∨ st = 7 then
    let m := m.raise CMP_STAT.CHK_FAIL c
    let m := if m.flg CMP_ACT.EVT (m.actOf c) then m.cmpRecord c 2 c st stamp 0 else m
    match m.cmpOwner c with
    | some x => if m.flg CMP_ACT.FAILSHUT (m.actOf c) then m.shutter x 1 stamp else m
    | none => m
  else m

/-- The input a comparator watches: member 2w + 1 of an enabled window watches member 2w's (R100). -/
def Mach.cmpInput (m : Mach) (c : Nat) : Nat :=
  m.fld CMP_CTRL.INSEL (if m.inWindow c then c / 2 * 2 else c)

/-- Whether equal outputs of a swap check now would be inconclusive (R102). -/
def Mach.swapNear (m : Mach) (c : Nat) : Bool :=
  let i := m.cmpInput c
  i < 13 && (signed 16 (m.fld CB_SLOT_LIVE.CODE (16 * (c / 16) + i)) - ((m.fld CMP_THR.THR c : Int) - 512) * 64).natAbs ≤ 2048

/-- RB_TOL, 0 treated as 3. -/
def Mach.rbTol (m : Mach) (c : Nat) : Nat :=
  let v := m.fld CMP_CHK_CFG.RB_TOL c
  if v = 0 then 3 else v

/-- A check starts (R102 to R105): a read-back as an injected conversion of its bank, whose TAG the spec does not give. -/
def Mach.checkStart (m : Mach) (c kind : Nat) : Mach :=
  if kind = 3 then
    let b := c / 16
    if m.flg CMP_CTRL.ARM (m.actOf c) then m.checkResult c 10 0 m.now
    else if !m.spareReady b then m.checkResult c 8 0 m.now
    else if 4 ≤ (m.bank b).reqs.length then m.checkResult c 9 0 m.now
    else
      let (tag, m) := m.draw
      let m := m.setCmp c { m.cmp c with check := some { kind := 3, running := true } }
      m.injAsk b false 0 { src := 4, cmp := c, tag := tag % 256, check := true }
  else m.setCmp c { m.cmp c with check := some {
    kind := kind, running := true, endAt := m.now + checkTime kind (m.fld CMP_CTRL.MODE c), inconcl := m.swapNear c } }

/-- A check is asked for (R104, R106): refused, started, or waiting for the next apply fence of `pg`. DEDUCED: a check that waits
for its fence counts as running, as BUSY shows it. DESIGN CHOICE: a refusal leaves CODE as the check before left it. -/
def Mach.checkAsk (m : Mach) (c kind : Nat) (pg : Option Nat) : Mach :=
  let partner := if c % 2 = 0 then c + 1 else c - 1
  if !m.flg CMP_CTRL.EN c || m.flg CMP_CHK_RES.BUSY c || (m.inWindow c && m.flg CMP_CHK_RES.BUSY partner)
      || (kind = 3 && m.flg CMP_CTRL.ARM (m.actOf c)) then m.setFld CMP_CHK_RES.ST c 10
  else
    let m := m.raise CMP_CHK_RES.BUSY c
    match pg with
    | none => m.checkStart c kind
    | some g => m.setCmp c { m.cmp c with check := some { kind := kind, running := false, pg := g } }

/-- Checks that wait for an apply fence of group `g` start (R106). -/
def Mach.checksAtApply (m : Mach) (g : Nat) : Mach :=
  (List.range 256).foldl (fun m c =>
    match (m.cmp c).check with
    | some k => if !k.running && k.pg = g then m.checkStart c k.kind else m
    | none => m) m

/-- A swap or tie check ends (R102 to R104); OUT then takes the RAW of the reconnected input. -/
def Mach.checkEnd (m : Mach) (c : Nat) (o : CheckObs) : Mach :=
  match (m.cmp c).check with
  | none => m
  | some k =>
    if !k.running || k.kind = 3 then m
    else
      let st := if k.kind = 1 then (if o.moved then 1 else if k.inconcl then 5 else 2)
        else if !o.first then 3 else if !o.second then 4 else 1
      let m := (m.until k.endAt).blankCatch c k.endAt (m.cmp c).starts
      (m.checkResult c st 0 k.endAt).takeRaw c k.endAt false false false

/-- Read-back checks of bank `b` whose request ended without a conversion report RB_NOSPARE (R84, R105). -/
def Mach.readbacksLost (m : Mach) (b : Nat) : Mach :=
  (List.range 16).foldl (fun m i =>
    let c := 16 * b + i
    match (m.cmp c).check with
    | some k =>
      if k.kind = 3 && k.running && !(m.bank b).reqs.any (fun r => r.check && r.cmp = c) then m.checkResult c 8 0 m.now
      else m
    | none => m) m

/-- An injected conversion completes (R73), and with it the read-back check it serves (R105). -/
def Mach.injectionDone (m : Mach) (b : Nat) (t : Stamp) (code : Int) : Mach :=
  let served := (m.bank b).reqs.find? (fun r => r.held.isSome)
  let m := m.injectedDone b t code
  match served with
  | none => m
  | some r =>
    let v := clip16 (corrected code r.ofs r.gain)
    if !r.check then m.channelGets b r.use v
    else
      let ok := (v - ((m.fld CMP_THR.LIVE r.cmp : Int) - 512) * 64).natAbs ≤ m.rbTol r.cmp * 64
      m.checkResult r.cmp (if ok then 6 else 7) (unsigned 16 v) m.now

/-- INTV in vernier, 0 treated as 1 ms. -/
def Mach.checkIntv (m : Mach) (c : Nat) : Nat := max (m.fld CMP_CHK_CFG.INTV c) 1 * 16000000

/-- The automatic-check interval expires (R106): a swap or tie check for the next apply fence of the owner's group, or at
once with no owner. -/
def Mach.autoCheck (m : Mach) (c : Nat) : Mach :=
  let d := m.cmp c
  let a := m.fld CMP_CHK_CFG.AUTO c
  if a = 0 then m
  else
    let t := d.autoFrom + m.checkIntv c
    let tie := a = 2 || (a = 3 && d.autoTie)
    let m := (m.until t).setCmp c { d with autoFrom := t, autoTie := !d.autoTie }
    m.checkAsk c (if tie then 2 else 1) ((m.cmpOwner c).map (fun x => m.pgOf x))

/-! ### Register writes (R90, R97, R100, R108) -/

/-- The threshold goes live (R90). -/
def Mach.thrLive (m : Mach) (c : Nat) : Mach :=
  (m.setFld CMP_THR.LIVE c (m.fld CMP_THR.THR c)).setCmp c { m.cmp c with thrPend := false }

/-- A write of CMP_THR (R90). -/
def Mach.thrWrite (m : Mach) (c thr : Nat) : Mach :=
  let m := m.setFld CMP_THR.THR c thr
  match m.cmpOwner c with
  | some x => if m.flg CMP_CTRL.THR_SYNC c && m.flg TB_PG_STAT.RUN (m.pgOf x)
      then m.setCmp c { m.cmp c with thrPend := true } else m.thrLive c
  | none => m.thrLive c

/-- Thresholds that wait for a commit fence of group `g` go live (R90). -/
def Mach.thrAtCommit (m : Mach) (g : Nat) : Mach :=
  (List.range 256).foldl (fun m c =>
    if (m.cmp c).thrPend then
      match m.cmpOwner c with
      | some x => if m.pgOf x = g then m.thrLive c else m
      | none => m.thrLive c
    else m) m

/-- The settle time starts (R94, R108): OUT reads INIT and UNRES 1. -/
def Mach.settleStart (m : Mach) (c : Nat) : Mach :=
  let m := ((m.raise CMP_STAT.UNRES c).setFld CMP_STAT.RAW c 0).setFlg CMP_STAT.OUT c (m.flg CMP_CTRL.INIT c)
  let d := m.cmp c
  let m := m.setCmp c { d with
    raw := none, settled := false, settleAt := m.now + settleTime (m.fld CMP_CTRL.MODE c), blank := none, hit := false
    starts := [] }
  m.windowFollow (c / 2) m.now 0

/-- EN = 0 takes effect (R87, R108): no chop, no check, OUT 0, UNRES 1. -/
def Mach.cmpOff (m : Mach) (c : Nat) : Mach :=
  let m := (m.setFld CMP_CTRL.EN c 0).unchop c
  let m := ((m.raise CMP_STAT.UNRES c).setFld CMP_STAT.RAW c 0).setFld CMP_STAT.OUT c 0
  let m := (m.setFld CMP_CHK_RES.BUSY c 0).setCmp c { thrPend := (m.cmp c).thrPend, autoFrom := (m.cmp c).autoFrom }
  let b := c / 16
  let m := m.setReqs b (((m.bank b).reqs.filter (fun r => !(r.check && r.cmp = c && r.held.isNone))).map
    (fun r => if r.cmp = c then { r with check := false } else r))
  m.windowFollow (c / 2) m.now 0

/-- Whether CMP_ACT word `a` chops leg 3 of an axis timer (R97). -/
def badChop (a : W32) : Bool := CMP_ACT.CHOP.of a ≠ 0 && CMP_ACT.LEG.of a = 3 && CMP_ACT.OWN.of a < 64

/-- A write of CMP_CTRL, field by field in the order of R108: a locked field keeps its value and reports it, whatever was
written to it. -/
def Mach.cmpCtrlWrite (m : Mach) (c : Nat) (v : W32) : Mach :=
  let lower := c % 2 = 1 && m.inWindow c
  let m := if CMP_CTRL.ARM.of v = 0 then m.setFld CMP_CTRL.ARM c 0 else m
  let m := m.setFld CMP_CTRL.THR_SYNC c (CMP_CTRL.THR_SYNC.of v)
  let locked := m.flg CMP_CTRL.ARM c || lower
  let dirLocked := locked || m.inWindow c
  let wasEn := m.flg CMP_CTRL.EN c
  let wasMode := m.fld CMP_CTRL.MODE c
  let wantEn := CMP_CTRL.EN.of v ≠ 0
  let noPower := !locked && wantEn && !wasEn && !m.pdOn (34 + c / 64)
  let err := if dirLocked then 1 else if noPower then 2 else 0
  let m := if dirLocked then m else m.setFld CMP_CTRL.DIR c (CMP_CTRL.DIR.of v)
  let m := if locked then m
    else
      let m := [CMP_CTRL.MODE, CMP_CTRL.INIT, CMP_CTRL.INSEL].foldl (fun m f => m.setFld f c (f.of v)) m
      if wantEn && !wasEn then (if noPower then m else (m.raise CMP_CTRL.EN c).settleStart c)
      else if !wantEn && wasEn then m.cmpOff c
      else if wasEn && m.fld CMP_CTRL.MODE c ≠ wasMode then m.settleStart c
      else
        let m := if wasEn && m.flg CMP_STAT.UNRES c then m.setFlg CMP_STAT.OUT c (m.flg CMP_CTRL.INIT c) else m
        m.windowFollow (c / 2) m.now 0
  let (m, err2) : Mach × Nat :=
    if CMP_CTRL.ARM.of v = 0 || m.flg CMP_CTRL.ARM c then (m, 0)
    else if !m.flg CMP_CTRL.EN c then (m, 3)
    else if badChop (m.rg (CMP_ACT.OWN.addr c)) then (m, 5)
    else (m.raise CMP_CTRL.ARM c, 0)
  m.setFld CMP_STAT.CFG_ERR c (if err ≠ 0 then err else err2)

/-- A write of CMP_CHAT (R92, R108). -/
def Mach.cmpChatWrite (m : Mach) (c : Nat) (v : W32) : Mach :=
  if m.flg CMP_CTRL.ARM (m.actOf c) then m.setFld CMP_STAT.CFG_ERR c 1
  else
    let m := [CMP_CHAT.BLEN, CMP_CHAT.BSRC, CMP_CHAT.HYST].foldl (fun m f => m.setFld f c (f.of v)) m
    (m.setFld CMP_STAT.CFG_ERR c 0).raiseIf (4 < CMP_CHAT.BSRC.of v) CMP_STAT.RSVW c

/-- A write of CMP_ACT (R97): refused whole while armed if it would chop leg 3 of an axis timer. -/
def Mach.cmpActWrite (m : Mach) (c : Nat) (v : W32) : Mach :=
  if m.flg CMP_CTRL.ARM c && badChop v then m.setFld CMP_STAT.CFG_ERR c 5
  else
    let m := [CMP_ACT.CHOP, CMP_ACT.SHUT, CMP_ACT.EVT, CMP_ACT.LO, CMP_ACT.EVREL, CMP_ACT.FAILSHUT, CMP_ACT.OWN, CMP_ACT.LEG,
      CMP_ACT.EVQ].foldl (fun m f => m.setFld f c (f.of v)) m
    let o := CMP_ACT.OWN.of v
    (m.setFld CMP_STAT.CFG_ERR c 0).raiseIf (72 ≤ o && o ≤ 126) CMP_STAT.RSVW c

/-- A write of CMP_CHK (R106). -/
def Mach.cmpChkWrite (m : Mach) (c : Nat) (v : W32) : Mach :=
  let k := CMP_CHK.CMD.of v
  if k = 0 then m
  else if 3 < k then m.raise CMP_STAT.RSVW c
  else m.checkAsk c k (if CMP_CHK.WHEN.of v ≠ 0 then some (CMP_CHK.PG.of v) else none)

/-- A write of CMP_CHK_CFG (R106): setting AUTO starts its interval. -/
def Mach.cmpChkCfgWrite (m : Mach) (c : Nat) (v : W32) : Mach :=
  let m := if CMP_CHK_CFG.AUTO.of v ≠ m.fld CMP_CHK_CFG.AUTO c
    then m.setCmp c { m.cmp c with autoFrom := m.now, autoTie := false } else m
  let m := [CMP_CHK_CFG.AUTO, CMP_CHK_CFG.INTV, CMP_CHK_CFG.RB_TOL].foldl (fun m f => m.setFld f c (f.of v)) m
  m.raiseIf (CMP_CHK_CFG.INTV.of v = 0 || CMP_CHK_CFG.RB_TOL.of v = 0) CMP_STAT.RSVW c

/-- A write of CMP_WIN_CTRL (R100, R107, R108). -/
def Mach.cmpWinWrite (m : Mach) (w : Nat) (v : W32) : Mach :=
  let a := 2 * w
  let on := CMP_WIN_CTRL.EN.of v ≠ 0
  let was := m.flg CMP_WIN_CTRL.EN w
  let sense := CMP_WIN_CTRL.SENSE.of v
  if m.flg CMP_CTRL.ARM a then
    m.setFld CMP_STAT.CFG_ERR a (if on && !was then 4 else 1)
  else
    let m := m.setFld CMP_WIN_CTRL.SENSE w sense
    if on && !was then
      if m.flg CMP_CTRL.EN a && m.flg CMP_CTRL.EN (a + 1) && !m.flg CMP_CTRL.ARM (a + 1)
          && m.fld CMP_THR.THR (a + 1) < m.fld CMP_THR.THR a then
        ((m.raise CMP_WIN_CTRL.EN w).setFld CMP_STAT.CFG_ERR a 0).windowFollow w m.now 0
      else m.setFld CMP_STAT.CFG_ERR a 4
    else if !on && was then
      (((m.setFld CMP_WIN_CTRL.EN w 0).setFld CMP_WIN_STAT.OUT w 0).raise CMP_WIN_STAT.UNRES w).setFld CMP_STAT.CFG_ERR a 0
    else (m.setFld CMP_STAT.CFG_ERR a 0).windowFollow w m.now 0

end Sys2Proof.Machine
end

