-- ==== Sys2Proof/Machine/Fences.lean ====
section
/-! DEFINITION. What happens at the fences of a period group (R18 to R23, R44, R48 to R50, R163 to R167), the enable and
disable of a slice (R148 to R150), and the timers' carrier events, gate edges and fault inputs (R219 to R226, R237). -/

namespace Sys2Proof.Machine

/-! ### Enabling and disabling a slice (R148 to R150) -/

/-- The code of R148 an enable of slice `x` is refused with, 0 if it is accepted. -/
def Mach.sliceErr (m : Mach) (x : Nat) : Nat :=
  let mode := m.slMode x
  let g := 64 + m.fld AX_CTRL.GCH x
  if (slotsOf x).any (fun s => !m.flg CB_STAT.READY (s / 16)) then 1
  else if !m.pdOn (13 + quadOf x) then 2
  else if 64 ≤ x then 0
  else if mode ≠ 2 && (m.portOf x 0).isNone then 3
  else
    let bus : Bool := match m.busCh x with
      | none => (m.co AX_VBUS_FIX.MANT x).m = 0
      | some c => !m.flg CB_STAT.READY (2 * c + 1)
    if bus then 5
    else if mode = 2 && (!(m.en g && m.slMode g = 1) || (m.companion g).isSome) then 6 else 0

/-- The slice is enabled (R149): every state at zero, the bank BSEL names, the first wake at a sample fence at least 16 tk
on. -/
def Mach.sliceOn (m : Mach) (x : Nat) : Mach :=
  let s := m.slice x
  let b := m.flg AX_CTRL.BSEL x
  let m := ((m.raise AX_CTRL.EN x).setFld AX_STATE.CFG_ERR x 0).setFlg AX_STATE.BANK x b
  let m := (m.setFld AX_DL_STAT.WIN x 0).setFld AX_DL_STAT.RUN x 0
  let m := m.setSlice x {
    trace := s.trace, haltReq := s.haltReq, halted := s.halted, lane := s.lane, laneFrozen := s.laneFrozen, fed := s.fed,
    rampBase := s.rampBase, rampStep := s.rampStep, yawI := s.yawI, yawHigh := s.yawHigh, sepOld := s.sepOld, comm := s.comm
    dyn := { bank := b }
    from_ := (m.now + 63) / 64 + 16 }
  let m := m.restartSlots x
  if m.pgOn (m.pgOf x) then m.channelAsks x else m

/-- A write of TB_PG_CTRL of group `g`: a group that starts asks for the injections of its enabled channels (R186, R187). -/
def Mach.groupWrite (m : Mach) (g : Nat) (v : W32) : Mach :=
  let n := m.groupCtrlWrite g v
  if m.pgOn g || !n.pgOn g then n else (n.members g).foldl (fun n x => n.channelAsks x) n

/-- EN = 0 is accepted (R149): it takes effect at the next commit fence, or at once where the group is not running. -/
def Mach.sliceOff (m : Mach) (x : Nat) : Mach :=
  if !m.en x then m
  else
    let m := m.setFld AX_CTRL.EN x 0
    if m.flg TB_PG_STAT.RUN (m.pgOf x) then m.setSlice x { m.slice x with ending := true } else m.disableEffect x m.now

/-- The fields of AX_CTRL or CV_CTRL other than EN. -/
def sliceCtrlRest (x : Nat) : List Fld :=
  if x < 64 then [AX_CTRL.MODE, AX_CTRL.ISRC, AX_CTRL.PFAIL, AX_CTRL.BSEL, AX_CTRL.GCH]
  else [CV_CTRL.MODE, CV_CTRL.ISRC, CV_CTRL.BSEL, CV_CTRL.LEGS]

/-- A change of PG (R112, R528): the staging set and the mapped ports follow, and the carrier is the new group's. -/
def Mach.sliceRegroup (m : Mach) (x pg : Nat) : Mach :=
  if m.pgOf x = pg then m
  else
    let m := ((m.setFld AX_CTRL.PG x pg).moveStage x).portsFollow x
    (m.setFlg AX_GT_STAT.RUN x (m.flg TB_PG_STAT.RUN pg)).carrierMoved x

/-- A write of AX_CTRL or CV_CTRL (R148 to R150). -/
def Mach.sliceCtrlWrite (m : Mach) (x : Nat) (v : W32) : Mach :=
  let on := AX_CTRL.EN.of v ≠ 0
  let rest := sliceCtrlRest x
  let differs := rest.any (fun f => m.fld f x ≠ f.of v) || m.pgOf x ≠ AX_CTRL.PG.of v
  if m.liveSlice x then
    if on then m.setFld AX_STATE.CFG_ERR x 4
    else if 64 ≤ x && (m.companion x).isSome then m.setFld AX_STATE.CFG_ERR x 7
    else (m.sliceOff x).setFld AX_STATE.CFG_ERR x (if differs then 4 else 0)
  else
    let shift := 64 ≤ x && CV_CTRL.LEGS.of v ≠ m.fld CV_CTRL.LEGS x
    let m := (rest.foldl (fun m f => m.setFld f x (f.of v)) m).sliceRegroup x (AX_CTRL.PG.of v)
    let m := if shift then m.carrierMoved x else m
    let m := m.raiseIf (AX_CTRL.MODE.of v = 3) AX_STATE.RSVW x
    if !on then m.setFld AX_STATE.CFG_ERR x 0
    else match m.sliceErr x with
      | 0 => m.sliceOn x
      | e => m.setFld AX_STATE.CFG_ERR x e

/-- A slice reset (R474). -/
def Mach.sliceReset (m : Mach) (x : Nat) : Mach :=
  let m := m.sliceOff x
  let s := m.slice x
  let m := m.setSlice x { s with
    dyn := { bank := s.dyn.bank }, flight := none, late := none, await := none, stopTrig := false, supStop := none,
    swap := none, swapNext := none, newTag := false, newPos := false, relTrig := false
    trace := { s.trace with ring := [], dec := 0, left := none, lost := false, swtrig := false, trig := false } }
  let zero (l : List (Nat × Nat)) (m : Mach) : Mach :=
    l.foldl (fun m e => (List.range e.2).foldl (fun m i => m.setRg (Blk.base .sl x + e.1 + 4 * i) (resetWord (Blk.base .sl x + e.1 + 4 * i))) m) m
  let m := zero [(0x8000, 1), (0x8084, 1)] m
  let outs := (cardsOf .sl x).filter (fun c => (0x8008 ≤ c.off && c.off < 0x8080) || (x < 64 && 0x6108 ≤ c.off && c.off < 0x6120))
  let m := zero (outs.map (fun c => (c.off, c.n))) m
  let m := if x < 64 then m.setFld AX_OSC_STAT.PHASE x 0 else m
  m.setStage x { m.stage x with openW := [], closedW := [], closed := false, locked := false }

/-! ### Limiter and trace commands (R168, R170, R171, R173) -/

/-- A write of AX_LIM_CMD. -/
def Mach.limCmdWrite (m : Mach) (x : Nat) (v : W32) : Mach :=
  match AX_LIM_CMD.CMD.of v with
  | 1 => m.stopAxis x false
  | 2 => if m.fld AX_LIM_STAT.PHASE x = 4 ∧ m.flg AX_STATE.RUN x then m.setSlice x { m.slice x with relTrig := true } else m
  | 3 => m.raise AX_STATE.RSVW x
  | _ => m

/-- A write of AX_TRC_CTRL (R173): MODE and DSZ restart the recording. A software trigger that keeps both does not. -/
def Mach.trcCtrlWrite (m : Mach) (x : Nat) (v : W32) : Mach :=
  let trig := AX_TRC_CTRL.SWTRIG.of v ≠ 0
  let keeps := m.fld AX_TRC_CTRL.MODE x = AX_TRC_CTRL.MODE.of v ∧ m.fld AX_TRC_CTRL.DSZ x = AX_TRC_CTRL.DSZ.of v
  let m := [AX_TRC_CTRL.MODE, AX_TRC_CTRL.DSZ, AX_TRC_CTRL.DEC, AX_TRC_CTRL.POST].foldl (fun m f => m.setFld f x (f.of v)) m
  let m := m.raiseIf (AX_TRC_CTRL.MODE.of v = 3 || AX_TRC_CTRL.DSZ.of v < 10 || 20 < AX_TRC_CTRL.DSZ.of v) AX_STATE.RSVW x
  let m := if trig && keeps then m else m.traceRestart x
  let s := m.slice x
  if trig && m.trcMode x = 2 && s.trace.left.isNone then m.setSlice x { s with trace := { s.trace with swtrig := true } } else m

/-- Whether a trace node code names a node (R171). -/
def nodeKnown (x n : Nat) : Bool :=
  n ≤ 0x12 || (0x20 ≤ n && n ≤ 0x2C) || (0x30 ≤ n && n ≤ 0x35) || (0x40 ≤ n && n ≤ 0x45)
    || (64 ≤ x && 0x60 ≤ n && n ≤ 0x66) || (0x81 ≤ n && n ≤ 0x90)

/-- A write of AX_TRC_SEL (R171): the selection is taken at the next wake. -/
def Mach.trcSelWrite (m : Mach) (x : Nat) (v : W32) : Mach :=
  let m := (m.setRg (AX_TRC_SEL.N0.addr x) v).countMod AX_TRC_STAT.SELGEN x
  m.raiseIf ([AX_TRC_SEL.N0, AX_TRC_SEL.N1, AX_TRC_SEL.N2, AX_TRC_SEL.N3].any (fun f => !nodeKnown x (f.of v))) AX_STATE.RSVW x

/-- A write of AX_TRC_DBASE (R173). -/
def Mach.trcBaseWrite (m : Mach) (x : Nat) (v : W32) : Mach :=
  ((m.setFld AX_TRC_DBASE.DBASE x v.toNat).raiseIf (v.toNat < 0x80000000) AX_STATE.RSVW x).traceRestart x

/-- The oldest record of the ring not yet streamed goes to DRAM (R173, R174, R432): in triggered mode, once recording has
stopped. -/
def Mach.traceStream (m : Mach) (x : Nat) : Mach :=
  let s := m.slice x
  let mode := m.trcMode x
  let may := mode = 1 ∨ (mode = 2 ∧ s.trace.left = some 0)
  match s.trace.ring with
  | [] => m
  | r :: rest =>
    if ¬ may ∨ (mode = 2 ∧ m.flg AX_TRC_STAT.DONE x) then m
    else
      let r := if s.trace.lost then r.set 7 (r.getD 7 0 ||| 16) else r
      let (_, m) := m.store (21 + x) (m.trcAddr x) r
      let m := (m.countMod AX_TRC_WPTR.WPTR x).setSlice x { s with trace := { s.trace with ring := rest, lost := false } }
      m.raiseIf (mode = 2 && rest.isEmpty) AX_TRC_STAT.DONE x

/-! ### The sample fence (R18, R41) -/

/-- Whether a commit fence of group `g` is still to come on the tick of stamp `t`: it takes effect before the other fences there
(R40). -/
def Mach.commitFirst (m : Mach) (g : Nat) (t : Stamp) : Bool := m.commitStamp g (m.group g).kC / 64 = t / 64

/-- As `commitFirst`, for an apply fence, which comes before a sample fence on its tick. -/
def Mach.applyFirst (m : Mach) (g : Nat) (t : Stamp) : Bool := m.applyStamp g (m.group g).kA / 64 = t / 64

/-- The next sample fence of group `g`. -/
def Mach.sampleFence (m : Mach) (g : Nat) : Mach :=
  let d := m.group g
  let k := d.kS
  let s := m.sampleStamp g k
  if !m.pgOn g || m.commitFirst g s || m.applyFirst g s then m
  else
    let m := (m.until s).setGroup g { d with kS := k + 1 }
    let m := (m.raise TB_PG_STAT.RUN g).setFld TB_PG_COUNT.K g k
    let ms := m.members g
    let m := ms.foldl (fun m x => m.raise AX_GT_STAT.RUN x) m
    let m := m.captures g k
    let m := ms.foldl (fun m x => m.excite x) m
    let m := m.couple g s
    ms.foldl (fun m x =>
      let sl := m.slice x
      if (m.en x || (sl.ending && m.flg AX_STATE.RUN x)) && !sl.halted && sl.from_ ≤ m.sampleTick g k then
        m.setSlice x { sl with await := some (k, s) }
      else m) m

/-! ### New duties at the gates (R20, R224, R225) -/

/-- Leg `l` takes the shadow value. -/
def Mach.goLive (m : Mach) (x l : Nat) : Mach :=
  let t := m.timer x
  let d := m.shadowD x l
  (m.setTimer x (t.setLeg l { t.leg l with d := d, pend := false, live := true })).showLive x l d

/-- New duties going live end an accepted release's shutter (R232) and a halt pattern (R236). -/
def Mach.liveEnds (m : Mach) (x : Nat) (t : Stamp) : Mach :=
  let tm := m.timer x
  let m := if tm.pendHalt then (m.setFld AX_GT_STAT.HALT x 0).setTimer x { tm with pendHalt := false } else m
  if (m.timer x).pendRel then m.shutterEnd x t else m

/-- Legs of the timer take the shadow values at `t` (R224, R225). -/
def Mach.takeShadow (m : Mach) (x : Nat) (ls : List Nat) (t : Stamp) (fence : Bool) : Mach :=
  let was := m.ranks x
  let m := (ls.foldl (fun m l => m.goLive x l) m).liveEnds x t
  let m := m.redriveAll x was t
  if fence then ls.foldl (fun m l => if m.rank x l = 7 ∧ was.getD l 7 = 7 then m.pwm x l t true else m) m else m

/-- The used legs of a timer. -/
def Mach.legs (m : Mach) (x : Nat) : List Nat := List.range (m.usedLegs x)

/-- Committed duties of slice `x` at the fence `stamp`: into the shadows, and live at once, or at each leg's next carrier
start; one with the fence's own stamp uses them. -/
def Mach.commitDuties (m : Mach) (x : Nat) (duty : List Nat) (stamp : Stamp) : Mach :=
  if duty = [] then m
  else
    let m := m.setFld AX_GT_SHD_AB.D_A x (duty.getD 0 0)
    let m := if x < 64 then (m.setFld AX_GT_SHD_AB.D_B x (duty.getD 1 0)).setFld AX_GT_SHD_CD.D_A x (duty.getD 2 0) else m
    let t := m.timer x
    let m := m.setTimer x { t with
      pendRel := t.pendRel || (m.flg AX_GT_STAT.RELPEND x && t.relFrom ≤ stamp)
      pendHalt := t.pendHalt || (m.flg AX_GT_STAT.HALT x && !(m.slice x).halted) }
    if m.flg AX_GT_CTRL.UPD x then m.takeShadow x (m.legs x) stamp true
    else
      let same := (m.legs x).filter (fun l => ((m.timer x).leg l).started && m.carrierAt x l ((m.timer x).leg l).m = stamp)
      let m := (m.legs x).foldl (fun m l => m.setTimer x ((m.timer x).setLeg l { (m.timer x).leg l with pend := true })) m
      if same = [] then m else m.takeShadow x same stamp false

/-! ### Misses and escalation (R21, R166) -/

/-- CONSEC, 0 treated as 3. -/
def Mach.consec (m : Mach) (x : Nat) : Nat :=
  let v := m.fld AX_DL_CFG.CONSEC x
  if v = 0 then 3 else v

/-- The action of an escalation of slice `x` with cause code `c`. -/
def Mach.escalate (m : Mach) (x c : Nat) (stamp : Stamp) : Mach :=
  let m := (((m.raise AX_DL_STAT.ESC x).setFld AX_DL_STAT.CAUSE x c).tell 5 x 0 stamp).seqStopped x
  let act := m.fld AX_DL_CFG.ACT x
  let m := if act = 2 then m.shutter x 5 stamp
    else if act = 3 then (if x < 64 then m.stopAtFence x stamp else m.shutter x 6 stamp)
    else m
  if act = 0 then m else m.sliceEvent x 2 stamp 0 (m.rg (AX_DL_STAT.ESC.addr x)).toNat

/-- Slice `x` missed the commit fence `stamp`; `edge` says that the arbiter decided it (R48). -/
def Mach.missSlice (m : Mach) (x : Nat) (stamp : Stamp) (edge : Bool) : Mach :=
  let g := m.pgOf x
  let m := m.raise AX_STICKY.DLMISS x
  let m := ((m.raise TB_PG_STAT.MISS g).setFld TB_PG_STAT.MISS_SLICE g x).countSat TB_PG_STAT.MISS_CNT g
  let m := m.setFlg TB_PG_STAT.EDGE g edge
  let m := ((m.countSat AX_DL_STAT.RUN x).countSat AX_DL_STAT.WIN x).countSat AX_DL_STAT.TOTAL x
  let run := m.fld AX_DL_STAT.RUN x
  let rate := m.fld AX_DL_CFG.RATE x
  if m.flg AX_DL_STAT.ESC x then
    if x < 64 && m.fld AX_LIM_STAT.PHASE x = 3 && run = m.consec x then m.shutter x 5 stamp else m
  else if run = m.consec x then m.escalate x 1 stamp
  else if rate ≠ 0 && m.fld AX_DL_STAT.WIN x = rate then m.escalate x 2 stamp
  else m

/-- The values for the coupling units move on at a commit fence (R21, R27). -/
def Mach.pubMove (m : Mach) (x : Nat) (p : Pub) (stamp : Stamp) : Mach :=
  let s := m.slice x
  m.setSlice x { s with pubOld := s.pub, pub := { p with stamp := stamp } }

/-- Whether the failed capture of a mapped port shutters slice `x` at its commit fence (R135). -/
def Mach.posShutter (m : Mach) (x : Nat) : Bool :=
  let lost (role : Nat) : Bool := match m.portOf x role with
    | some p => !m.flg PP_STAT.VALID p
    | none => false
  x < 64 && m.flg AX_CTRL.PFAIL x && m.slMode x ≠ 2 && (lost 0 || (m.slMode x = 0 && lost 1))

/-- Nothing of the computation is kept; the marks and triggers its wake took stand again (R21). The shutter of a failed capture
needs none of its results (R135). -/
def Mach.dropFlight (m : Mach) (x : Nat) (stamp : Stamp) (edge : Bool) : Mach :=
  let s := m.slice x
  let lost := match s.flight with
    | some fl => fl.shutPos
    | none => m.posShutter x
  let m := match s.flight with
    | none => m
    | some fl =>
      let s := { s with
        newTag := s.newTag || fl.tookTag, newPos := s.newPos || fl.tookPos, relTrig := s.relTrig || fl.tookRel
        stopTrig := s.stopTrig || fl.tookStop, flight := none }
      if fl.done.isSome then (m.setSlice x s).recordPeriod x fl true 0 stamp
      else m.setSlice x { s with late := some fl }
  let c := m.comm x
  let m := ((m.setComm x { c with fed := false }).missSlice x stamp edge).pubMove x (m.slice x).pub stamp
  let m := if lost then m.shutter x 4 stamp else m
  if x < 64 then m.cmCheck x stamp else m

/-! ### A commit (R15, R20, R48, R50, R163) -/

/-- The limiter's records of a period (R159, R169): KIND 0 arrival, 1 given up, 3 stop profile at rest. -/
def Mach.limRecords (m : Mach) (x : Nat) (evs : List (Nat × Nat)) (stamp : Stamp) : Mach :=
  evs.foldl (fun m e =>
    let m := match e.1 with
      | 0 => m.setFld AX_LIM_TAG_A.DONE x e.2
      | 1 => m.setFld AX_LIM_TAG_S.SUPD x e.2
      | _ => m
    (m.sliceEvent x e.1 stamp e.2 0).tell 2 x (e.1 + 2 ^ 16 * m.fld AX_LIM_TAG_A.ACTIVE x + 2 ^ 32 * e.2) stamp) m

/-- The swap sequence at a commit (R163, R165). -/
def Mach.commitSwap (m : Mach) (x : Nat) (fl : Flight) (stamp : Stamp) : Mach :=
  let s := m.slice x
  if fl.opening then (m.setSlice x { s with swap := none }).setFld AX_OSC_STAT.PHASE x 2
  else if fl.closing && x < 64 then
    let m := m.setSlice x { s with swap := s.swap.or s.swapNext, swapNext := none }
    let again := (m.slice x).swap.isSome
    let m := (m.setFld AX_OSC_STAT.PHASE x (bit again)).countMod AX_OSC_STAT.COUNT x
    (m.sliceEvent x 5 stamp 0 (m.fld AX_OSC_STAT.COUNT x)).swapDone x stamp
  else m

/-- The deposit of slice `x` is committed at the fence `stamp`. -/
def Mach.commitFlight (m : Mach) (x : Nat) (fl : Flight) (t stamp : Stamp) : Mach :=
  let g := m.pgOf x
  let slack := min (stamp - t) 65535
  let m := if slack < m.fld TB_PG_SLACK.MIN g ∨ m.fld TB_PG_SLACK.MIN_SLICE g = 0x7F
    then (m.setFld TB_PG_SLACK.MIN g slack).setFld TB_PG_SLACK.MIN_SLICE g x else m
  let ph := if x < 64 then m.fld AX_LIM_STAT.PHASE x else 0
  let m := fl.outs.foldl (fun m e => m.setRg e.1 e.2) m
  let m := if x < 64 ∧ ph < 3 ∧ (m.fld AX_LIM_STAT.PHASE x = 3 ∨ m.fld AX_LIM_STAT.PHASE x = 4) then m.tell 3 x 0 stamp else m
  let m := if bitOf fl.flags AX_STICKY.LIMITED.lo then m.tell 12 x 0 stamp else m
  let st := AX_STICKY.DLMISS.addr x
  let m := m.setRg st (m.rg st ||| BitVec.ofNat 32 fl.flags)
  let m := (m.setFlg AX_STATE.BANK x fl.dyn.bank).setFld AX_DL_STAT.RUN x 0
  let m := m.setSlice x { m.slice x with dyn := fl.dyn, flight := none, lastCommit := stamp }
  let m := if x < 64 then m.setFld AX_LIM_TAG_A.ACTIVE x fl.dyn.lim.tag else m
  let m := m.pubMove x fl.pub stamp
  let m := if t = stamp then m.recordPeriod x fl false 0 stamp else m
  let m := m.limRecords x fl.evs stamp
  let m := m.commitDuties x fl.duty stamp
  let m := if fl.shutPos then m.shutter x 4 stamp else m
  let m := if fl.shutStop then m.shutter x 6 stamp else m
  (m.commitSwap x fl stamp).cmCommit x stamp fl.flags (fl.evs.any (fun e => e.1 = 0)) (fl.evs.any (fun e => e.1 = 1))

/-- The slice halts after this fence (R236, R508). -/
def Mach.sliceHalts (m : Mach) (x : Nat) (stamp : Stamp) : Mach :=
  let s := m.slice x
  let was := m.ranks x
  let m := m.setSlice x { s with haltReq := false, halted := true, stepping := false }
  let m := (m.raise AX_GT_STAT.HALT x).setTimer x { m.timer x with pendHalt := false }
  m.redriveAll x was stamp

/-- Member slice `x` at the commit fence `stamp` of its group; `first` decides a completion at the fence's own edge (R48). -/
def Mach.commitSlice (m : Mach) (x : Nat) (stamp : Stamp) (first : Bool) : Mach :=
  let s := m.slice x
  let steps := s.stepping && (s.flight.isSome || s.await.isSome)
  let m :=
    if s.ending then m.disableEffect x stamp
    else if !m.en x then m
    else
      let m := match s.flight with
        | some fl =>
          (match fl.done with
          | some t =>
            if t < stamp || (t = stamp && first) then m.commitFlight x fl t stamp else m.dropFlight x stamp (t = stamp)
          | none => m.dropFlight x stamp false)
        | none => if s.await.isSome then m.dropFlight x stamp false else m
      let s := m.slice x
      let m := if s.periods = 1023 then (m.setFld AX_DL_STAT.WIN x 0).setSlice x { s with periods := 0 }
        else m.setSlice x { s with periods := s.periods + 1 }
      if s.stopTrig && !s.halted && !m.servo x then (m.setSlice x { m.slice x with stopTrig := false }).shutter x 6 stamp else m
  let m := if s.haltReq || steps then m.sliceHalts x stamp else m
  if s.lossShut then (m.setSlice x { m.slice x with lossShut := false }).shutter x 4 stamp else m

/-- The next commit fence of group `g`; bit x of `arb` decides slice x where its deposit completes on the fence's edge. -/
def Mach.commitFence (m : Mach) (g : Nat) (arb : Nat) : Mach :=
  if !m.pgOn g then m
  else
    let d := m.group g
    let stamp := m.commitStamp g d.kC
    let m := (m.until stamp).setGroup g { d with kC := d.kC + 1 }
    let ms := m.members g
    let m := ms.foldl (fun m x => m.commitSlice x stamp (bitOf arb x)) m
    let m := ms.foldl (fun m x =>
      if x < 64 then m.coupleActs x stamp
      else if m.en x && !(m.slice x).halted then
        let m := m.busCheck x stamp
        (if m.slMode x = 1 then m.gridShows x stamp else m).channelAsks x
      else m) m
    let m := m.thrAtCommit g
    (ms.foldl (fun m x => if x < 64 then m.changeNext x else m) m).tell 1 g 0 stamp

/-! ### Staging lock and apply fence (R23, R44, R47, R192) -/

/-- The next staging lock of group `g`. -/
def Mach.stagingLock (m : Mach) (g : Nat) : Mach :=
  if !m.pgOn g then m
  else
    let d := m.group g
    let m := (m.until (m.lockStamp g d.kL)).setGroup g { d with kL := d.kL + 1 }
    (m.members g).foldl (fun m x => m.laneLock x) (m.lockStages g)

/-- One member slice at an apply fence. -/
def Mach.applySlice (m : Mach) (x : Nat) (stamp : Stamp) : Mach :=
  let s := m.stage x
  let w : SMap (Option W32) := if s.closed && s.locked then s.closedW else []
  let lim := m.rg (AX_LIM_CTRL.MODE.addr x)
  let m := m.applyStage x stamp
  if x < 64 then
    let m := if marks w 0xE280 then m.gantryApplied x else m
    let m := if marks w 0xE2C0 then m.envelopeApplied x else m
    m.cmTarget x w lim stamp
  else (m.storeFlags x).laneApply x (marks w (CV_FFB.MANT.off + 0x8000))

/-- The next apply fence of group `g`. -/
def Mach.applyFence (m : Mach) (g : Nat) : Mach :=
  let d := m.group g
  let stamp := m.applyStamp g d.kA
  if !m.pgOn g || m.commitFirst g stamp then m
  else
    let m := (m.until stamp).setGroup g { d with kA := d.kA + 1 }
    let m := (m.members g).foldl (fun m x => m.applySlice x stamp) m
    let m := m.checksAtApply g
    (m.members g).foldl (fun m x => if x < 64 then m.changeNext x else m) m

/-! ### Carrier events and gate edges (R219 to R226) -/

/-- The next carrier event of leg `l` (R219, R224, R226): the leg takes its live value, chops end, blanks start. Without
interleaving the carrier of leg 0 is every leg's. A low side still to turn on by the value of the period before keeps that
turn-on (R221). -/
def Mach.carrierEvent (m : Mach) (x l : Nat) : Mach :=
  let inter := m.interleaved x
  if !m.carrierRuns x || (!inter && l ≠ 0) || m.usedLegs x ≤ l then m
  else
    let lg := (m.timer x).leg l
    let k : Int := if lg.started then lg.m + 1 else m.carrierIdx x l m.now + (if m.carrierAt x l (m.carrierIdx x l m.now) = m.now then 0 else 1)
    let c := (m.carrierAt x l k).toNat
    let m := m.until c
    let ls := if inter then [l] else List.range (legsOf x)
    let m := ls.foldl (fun m i =>
      let t := m.timer x
      let lg := t.leg i
      let low : Int := m.carrierAt x i lg.m + (switchAt (m.flg AX_GT_CTRL.CMODE x) lg.d (m.tc x)).2 + m.legDT x i
      let due := if lg.started && !(t.gate (2 * i + 1)).on && (c : Int) ≤ low then some low.toNat else none
      m.setTimer x (t.setLeg i { lg with m := k, started := true, lowDue := due })) m
    let m := m.takeShadow x (ls.filter (fun i => ((m.timer x).leg i).pend)) c false
    let was := m.ranks x
    let m := (ls.foldl (fun m i => m.chopEnds x i) m).redriveAll x was c
    if l = 0 then m.blankOnCarrier x c else m

/-- High-side gate of leg `l` turns on in the carrier period the leg is in, which starts at `c`: DT after r, and after the low
side's turn-off where MINP held that one on (R221, R222). -/
def Mach.highOn (m : Mach) (x l : Nat) (c : Int) (r f : Nat) : Mach :=
  let tm := m.timer x
  let dt := m.legDT x l
  let m := m.setTimer x (tm.setLeg l { tm.leg l with lowDue := none })
  let t : Int := max (c + r + dt) (((tm.gate (2 * l + 1)).offAt + dt : Nat) : Int)
  let (ok, m) := m.produced x l (c + f - t)
  let m := m.until (m.edgeAt true t.toNat)
  if ok then m.turnOn x (2 * l) t.toNat else m

/-- Low-side gate of leg `l` turns on: DT after f of the carrier period the leg is in, or of the one before where that falls in the
present one. Its pulse ends at the r of the period after, by the value that will be live there as known now (R222). -/
def Mach.lowOn (m : Mach) (x l : Nat) (c : Int) (r f : Nat) : Mach :=
  let tm := m.timer x
  let lg := tm.leg l
  let dt := m.legDT x l
  let next := (switchAt (m.flg AX_GT_CTRL.CMODE x) (if lg.pend then m.shadowD x l else lg.d) (m.tc x)).1
  let (b, e) : Int × Int := match lg.lowDue with
    | some b => ((b : Int), c + r)
    | none => (c + f + dt, c + m.tc x + next)
  let m := m.setTimer x (tm.setLeg l { lg with lowDue := none })
  let t : Int := max b (((tm.gate (2 * l)).offAt + dt : Nat) : Int)
  let (ok, m) := m.produced x l (e - t)
  let m := m.until (m.edgeAt true t.toNat)
  if ok then m.turnOn x (2 * l + 1) t.toNat else m

/-- Low-side gate of leg `l` turns off at r, or later where MINP is reached later (R222). One that turned on after r has its
turn-off in the period after. -/
def Mach.lowOff (m : Mach) (x l : Nat) (c : Int) (r : Nat) : Mach :=
  let tm := m.timer x
  let a := tm.gate (2 * l + 1)
  let e : Int := c + r
  if e + 64 ≤ (a.at_ : Int) then m
  else
    let m := m.setTimer x (tm.setLeg l { tm.leg l with lowDue := none })
    let t := max e.toNat (a.at_ + m.legMINP x l)
    (m.until (m.edgeAt false t)).turnOff x (2 * l + 1) t

/-- Gate `g` turns on or off under pulse-width modulation (R221 to R223): the edge its leg's value gives in the carrier
period the leg is in, at the stamp R223 places it. A gate whose complement is on does not turn on. -/
def Mach.gateEdge (m : Mach) (x g : Nat) (on : Bool) : Mach :=
  let l := g / 2
  let tm := m.timer x
  let lg := tm.leg l
  if legsOf x ≤ l || m.rank x l ≠ 7 || !lg.started || (tm.gate g).on = on then m
  else
    let c := m.carrierAt x l lg.m
    let (r, f) := switchAt (m.flg AX_GT_CTRL.CMODE x) lg.d (m.tc x)
    if g % 2 = 0 then
      if !on then (m.until (m.edgeAt false (c + f).toNat)).turnOff x g (c + f).toNat
      else if (tm.gate (g + 1)).on then m
      else m.highOn x l c r f
    else if !on then m.lowOff x l c r
    else if (tm.gate (g - 1)).on then m
    else m.lowOn x l c r f

/-! ### AX_GT_CMD and the gate fault inputs (R229, R232, R237) -/

/-- A write of AX_GT_CMD. -/
def Mach.gtCmdWrite (m : Mach) (x : Nat) (v : W32) : Mach :=
  match AX_GT_CMD.CMD.of v with
  | 1 => m.shutter x 0 m.now
  | 2 => m.release x
  | 3 => m.raise AX_STATE.RSVW x
  | _ => m

/-- Window source code of fault input `i` of timer `x` (R56, R237). -/
def faultSrc (x i : Nat) : Nat := 0x120 + 2 * x + i

/-- Fault input `i` of timer `x` is asserted by the edge `e` at its ball: the stamp is the edge's, the actions come once the level
has been stable for FILT × 4 ns. -/
def Mach.faultAssert (m : Mach) (x i : Nat) (e : Edge) : Mach :=
  if !m.outOfReset || !m.pdOn (13 + quadOf x) || !m.flg (AX_GT_FLT.EN.sh (4 * i)) x || bitOf (m.fld AX_GT_STAT.FLT x) i then m
  else
    let (stamp, arb, dir) := m.stampEdge e
    let at_ := stamp + m.fld (AX_GT_FLT.FILT.sh (4 * i)) x * 64
    let m := m.until at_
    let m := m.setFld AX_GT_STAT.FLT x (putBits (m.fld AX_GT_STAT.FLT x) i i 1)
    let m := m.setFld AX_GT_STAT.FLT_SEEN x (putBits (m.fld AX_GT_STAT.FLT_SEEN x) i i 1)
    let m := (m.setFld AX_GT_FSTAMP.STAMP x stamp).windowEvent (faultSrc x i) stamp arb dir
    let act := m.fld (AX_GT_FLT.ACT.sh (4 * i)) x
    let m := if 2 ≤ act then m.shutter x 2 at_ arb dir else m
    let m := if act = 0 then m else m.gtRecord x 2 stamp arb dir i
    m.driveAll x at_

/-- Fault input `i` of timer `x` is no longer asserted (R230). -/
def Mach.faultDeassert (m : Mach) (x i : Nat) : Mach :=
  if !bitOf (m.fld AX_GT_STAT.FLT x) i then m
  else (m.setFld AX_GT_STAT.FLT x (putBits (m.fld AX_GT_STAT.FLT x) i i 0)).driveAll x m.now

end Sys2Proof.Machine
end

