-- ==== Sys2Proof/Machine/OutsidePorts.lean ====
section
/-! DEFINITION. Writes to the queue descriptors (R272, R278, R279) and the outside ports (R280 to R298): PCIe link,
Ethernet, command tunnel, field ports, vision triggers and strobes, STO inputs and the safe-status outputs. -/

namespace Sys2Proof.Machine

/-! ### Queue descriptors (R271, R272, R278, R279) -/

/-- Sets fields of a written word. -/
def Mach.putFlds (m : Mach) (fs : List Fld) (i : Nat) (v : W32) : Mach := fs.foldl (fun m f => m.setFld f i (f.of v)) m

/-- Whether a written word gives a field another value. -/
def Mach.differs (m : Mach) (fs : List Fld) (i : Nat) (v : W32) : Bool := fs.any (fun f => f.of v ≠ m.fld f i)

/-- The fields of QM_CFG other than EN. -/
def qmCfgRest : List Fld := [QM_CFG.SPACE, QM_CFG.WB, QM_CFG.KIND, QM_CFG.ESIZE, QM_CFG.OWNER, QM_CFG.LOG2]

/-- A write of QM_CFG by a requester of R272. -/
def Mach.qmCfgWrite (m : Mach) (q : Nat) (v : W32) : Mach :=
  if m.flg QM_CFG.EN q then
    let e := if QM_CFG.EN.of v = 1 ∨ m.differs qmCfgRest q v then 1 else 0
    (if QM_CFG.EN.of v = 1 then m else m.setFld QM_CFG.EN q 0).setFld QM_STAT.CFG_ERR q e
  else
    let m := (m.putFlds qmCfgRest q v).raiseIf (QM_CFG.LOG2.of v < 4) QM_STAT.RSVW q
    let m := m.setFlg QM_STAT.FULL q (m.qFull q)
    if QM_CFG.EN.of v = 1 then m.queueOn q else m.setFld QM_STAT.CFG_ERR q 0

/-- A write of QM_MOD: clearing MASK notifies at once if PEND ≥ CNT, else the timer restarts from the clear (R277). -/
def Mach.qmModWrite (m : Mach) (q : Nat) (v : W32) : Mach :=
  let was := m.flg QM_MOD.MASK q
  let m := (m.putFlds [QM_MOD.CNT, QM_MOD.MASK, QM_MOD.TIME] q v).raiseIf (QM_MOD.CNT.of v = 0) QM_STAT.RSVW q
  let d := m.qdyn q
  if was && QM_MOD.MASK.of v = 0 && d.pend ≠ 0 then
    if d.cnt ≤ d.pend then m.notify q else m.setQdyn q { d with since := some m.now }
  else m

/-- The moderation timer of queue `q` ends (R277). -/
def Mach.modTimeout (m : Mach) (q : Nat) : Mach :=
  match m.modDue q with
  | none => m
  | some t => (m.until t).notify q

/-- A write to a descriptor word at offset `o`; `cfg`: the requester is one of R272; `own`: it is of the owner world or a
House supervisor requester (R273). A write to a descriptor of the Tapster's internal range is ignored with CFG_ERR 5 (R271). -/
def Mach.qmWrite (m : Mach) (cfg own : Bool) (q o : Nat) (v : W32) : Mach :=
  if 3712 ≤ q ∧ o ≠ 0x10 then (m.raiseIf (if o = 0x14 ∨ o = 0x1C then !own else !cfg) QM_STAT.OWN_ERR q).setFld QM_STAT.CFG_ERR q 5
  else if o = 0x14 then (m.ring own q (QM_DB.SIDE.of v = 1) (QM_DB.INDEX.of v)).2
  else if o = 0x1C then
    if own then m.setRg (Blk.base .queue q + 0x1C) (m.rg (Blk.base .queue q + 0x1C) &&& ~~~(v &&& 0x7C000000))
    else m.raise QM_STAT.OWN_ERR q
  else if o = 0x10 then m
  else if !cfg then m.raise QM_STAT.OWN_ERR q
  else if o = 0x18 then m.qmModWrite q v
  else if o = 8 then m.qmCfgWrite q v
  else if m.flg QM_CFG.EN q then m.setFld QM_STAT.CFG_ERR q 1
  else
    let m := m.setFld QM_STAT.CFG_ERR q 0
    if o = 0 then m.setRg (Blk.base .queue q) (v &&& 0xFFFFFFC0)
    else if o = 4 then m.setRg (Blk.base .queue q + 4) v
    else
      let a := QM_LINK.AGENT.of v
      (m.putFlds [QM_LINK.AGENT, QM_LINK.VEC, QM_LINK.RQ] q v).raiseIf (28 ≤ a && a < 63) QM_STAT.RSVW q

/-! ### PCIe link (R281, R283) -/

/-- What R281 fixes of the endpoint for the host that enumerates it. -/
structure PcieEndpoint where
  vendor : Nat
  device : Nat
  classCode : Nat
  bar0 : Nat
  bar2 : Nat
  vectors : Nat
  msixTable : Nat
  msixPba : Nat
  maxPayload : Nat
  deriving DecidableEq, Repr

/-- The endpoint of R281: sizes of BAR0 and BAR2 in bytes, the places of the MSI-X table and PBA in BAR2. -/
def pcieEndpoint : PcieEndpoint :=
  { vendor := 0x1F3C, device := 0x6450, classCode := 0x118000, bar0 := 2 ^ 28, bar2 := 2 ^ 14, vectors := 256,
    msixTable := 0, msixPba := 0x2000, maxPayload := 512 }

/-- The link has trained to generation `gen` (1 to 4) and `width` lanes (1, 2 or 4). -/
def Mach.pcieUp (m : Mach) (gen width : Nat) : Mach :=
  if !(m.outOfReset && m.pdOn 44) then m
  else ((m.raise OP_PCIE_STAT.UP 0).setFld OP_PCIE_STAT.GEN 0 gen).setFld OP_PCIE_STAT.WIDTH 0 width

def Mach.pcieDown (m : Mach) : Mach :=
  if !m.flg OP_PCIE_STAT.UP 0 then m
  else (((m.setFld OP_PCIE_STAT.UP 0 0).setFld OP_PCIE_STAT.GEN 0 0).setFld OP_PCIE_STAT.WIDTH 0 0).raise OP_PCIE_STAT.LDN 0

/-- A write of OP_PCIE_CTRL by a House supervisor core (R282). -/
def Mach.pcieCtrlWrite (m : Mach) (v : W32) : Mach :=
  if m.flg OP_PCIE_CTRL.LOCK 0 then m
  else (m.setFld OP_PCIE_CTRL.WORLD 0 (OP_PCIE_CTRL.WORLD.of v)).raiseIf (OP_PCIE_CTRL.LOCK.of v = 1) OP_PCIE_CTRL.LOCK 0

/-! ### Port queues and their descriptors (R278, R287) -/

/-- The memory key of a buffer in shared SRAM or DRAM, where every line of it is in a memory that is on (R465). -/
def Mach.bufKey (m : Mach) (a n : Nat) : Option Nat :=
  if ((0x10000000 ≤ a ∧ a + n ≤ 0x11000000) ∨ (0x80000000 ≤ a ∧ a + n ≤ 0x100000000))
    ∧ (List.range ((a % 64 + n + 63) / 64)).all (fun i => m.memOn (a + 64 * i - a % 64)) then some a else none

/-- Whether `q` is an enabled PORT queue. -/
def Mach.portQueue (m : Mach) (q : Nat) : Bool := m.flg QM_CFG.EN q && m.fld QM_CFG.KIND q = 3

/-- HEAD moves past an entry. -/
def Mach.portNext (m : Mach) (q : Nat) : Mach :=
  (m.setIdx q (m.qHead q + 1) (m.qTail q)).writeBack q

/-- The descriptor at HEAD of queue `q`, if one is posted; entries that cannot be read are skipped (R278). `n` is how many
entries to look at. -/
def Mach.portTake (m : Mach) (q : Nat) : Nat → Option (List Byte) × Mach
  | 0 => (none, m)
  | n + 1 =>
    if !m.portQueue q || m.qFill q = 0 then (none, m)
    else
      match m.memAt none (m.qEntry q (m.qHead q)) 32 with
      | none => Mach.portTake ((m.raise QM_STAT.MEM_ERR q).portNext q) q n
      | some k =>
        match m.load srcPorts k 32 with
        | (some bs, m) => (some bs, m)
        | (none, m) => Mach.portTake ((m.raise QM_STAT.MEM_ERR q).portNext q) q n

/-- The entry at HEAD is completed: its bytes 4 to 31 are written, HEAD moves on, and the entry counts (R270, R275). -/
def Mach.portComplete (m : Mach) (q len status info : Nat) (stamp : Stamp) (id : Nat) : Mach :=
  let m := match m.memAt none (m.qEntry q (m.qHead q)) 32 with
    | none => m
    | some k => (m.store srcPorts (k + 4) (bytesOfNat 2 len ++ bytesOfNat 1 status ++ bytesOfNat 1 info ++ bytesOfNat 8 stamp
        ++ bytesOfNat 4 id ++ bytesOfNat 12 0)).2
  (m.portNext q).countEntries q 1

/-- A frame is received into the buffer at HEAD of queue `q` (R287): cut to the buffer with TRUNC; dropped and counted
where no buffer is posted. -/
def Mach.portReceive (m : Mach) (q : Nat) (data : List Byte) (info id : Nat) (stamp : Stamp) (err : Bool) : Mach :=
  match m.portTake q (m.qFill q) with
  | (none, m) => (m.countSat QM_STAT.DROPS q).raise QM_STAT.DROP q
  | (some d, m) =>
    let size := natOfBytes ((d.drop 4).take 2)
    let bs := data.take size
    let (ok, m) := match m.bufKey (natOfBytes (d.take 4)) bs.length with
      | none => (false, m)
      | some k => (true, (m.store srcPorts k bs).2)
    m.portComplete q bs.length (1 + 2 * bit (err || !ok) + 4 * bit (size < data.length)) info stamp id

/-- The frame at HEAD of transmit queue `q`: its descriptor and, where its buffer can be read, its bytes. -/
def Mach.portFrame (m : Mach) (q : Nat) : Option (List Byte × Option (List Byte)) × Mach :=
  match m.portTake q (m.qFill q) with
  | (none, m) => (none, m)
  | (some d, m) =>
    match m.bufKey (natOfBytes (d.take 4)) (natOfBytes ((d.drop 4).take 2)) with
    | none => (some (d, none), m)
    | some k =>
      let (bs, m) := m.load srcPorts k (natOfBytes ((d.drop 4).take 2))
      (some (d, bs), m)

/-- The frame at HEAD has been sent, or failed: descriptor completed, LEN, INFO and ID as posted. -/
def Mach.portSent (m : Mach) (q port dest : Nat) (d : List Byte) (bs : Option (List Byte)) (stamp : Stamp) (ok : Bool) : Mach :=
  let info := natOfBytes ((d.drop 7).take 1)
  let m := match bs with
    | some b => { m with sent := m.sent ++ [({ port := port, dest := dest, info := info, bytes := b, stamp := stamp } : Sent)] }
    | none => m
  m.portComplete q (natOfBytes ((d.drop 4).take 2)) (1 + 2 * bit (!ok || bs.isNone)) info stamp (natOfBytes ((d.drop 16).take 4))

/-! ### Ethernet (R284 to R286) -/

def Mach.eth (m : Mach) (p : Nat) : EthP := SMap.get (fun _ => {}) m.eths p
def Mach.setEth (m : Mach) (p : Nat) (d : EthP) : Mach := { m with eths := SMap.set (fun _ => {}) m.eths p d }

/-- Whether the MAC of port `p` carries frames. -/
def Mach.ethLive (m : Mach) (p : Nat) : Bool := m.outOfReset && m.pdOn 45 && m.flg OP_ETH_CTRL.EN p && m.flg OP_ETH_STAT.LINK p

/-- gPTP time of port `p` at stamp `s`, in units of 2^−32 ns (R285). -/
def EthP.time (d : EthP) (s : Stamp) : Int := d.ofs * 65536 + s * d.rate

/-- The first stamp at which the gPTP time has reached `t` ns, if the clock moves. -/
def EthP.stampAt (d : EthP) (t : Int) : Option Stamp :=
  if d.rate = 0 then none else some ((t * 2 ^ 32 - d.ofs * 65536 + d.rate - 1) / d.rate).toNat

/-- OP_ETH_PTP_CMD: OFS, OFSF and RATE take effect together (R285). -/
def Mach.ptpApply (m : Mach) (p : Nat) : Mach :=
  let ofs := m.fldS64 OP_ETH_PTP_OFS.V p * 65536 + m.fld OP_ETH_PTP_OFSF.V p
  m.setEth p { m.eth p with ofs := ofs, rate := m.fld OP_ETH_PTP_RATE.V p }

/-- The cycle of a list: 1,000,000 ns where the register is out of range. -/
def gclCycle (v : Nat) : Nat := if v < 1000 ∨ 1000000000 < v then 1000000 else v

/-- The list in the registers of port `p`, from its first cycle start at or after its base and the present (R286). -/
def Mach.gclTake (m : Mach) (p : Nat) : Gcl :=
  let n := m.fld OP_ETH_GCL_CTRL.LEN p + 1
  let cyc := gclCycle (m.fld OP_ETH_GCL_CYCLE.V p)
  let base : Int := m.fld OP_ETH_GCL_BASE.V p
  let t := (m.eth p).time m.now
  let start := if base * 2 ^ 32 < t then base + (t - base * 2 ^ 32 + cyc * 2 ^ 32 - 1) / (cyc * 2 ^ 32) * cyc else base
  { entries := (List.range n).map (fun i =>
      let v := m.fld (OP_ETH_GCL.INTV.sh (4 * i)) p
      (m.fld (OP_ETH_GCL.GATES.sh (4 * i)) p, if v = 0 then 8 else v)),
    cycle := cyc, start := start }

/-- When entry `i` of a cycle that began at `c` ends, and the place that follows: the next entry, or the next cycle where the
cycle or the list is over. -/
def Gcl.after (g : Gcl) (c : Int) (i : Nat) : Int × Int × Nat :=
  let e := c + ((g.entries.take (i + 1)).map (fun e => e.2)).sum
  if e < c + g.cycle ∧ i + 1 < g.entries.length then (e, c, i + 1) else (c + g.cycle, c + g.cycle, 0)

/-- The gate states of entry `i`. -/
def Gcl.gates (g : Gcl) (i : Nat) : Nat := (g.entries.getD i (255, 8)).1

/-- Gate states of port `p` now: all open while no list runs. -/
def EthP.gates (d : EthP) : Nat :=
  match d.live with
  | none => 255
  | some (g, _, i) => g.gates i

/-- The next gate change: its gPTP time, and the port after it. -/
def EthP.change (d : EthP) : Option (Int × EthP) :=
  let swap (g : Gcl) : Int × EthP := (g.start, { d with live := some (g, g.start, 0), next := none })
  match d.live, d.next with
  | none, none => none
  | none, some g => some (swap g)
  | some (l, c, i), n =>
    let (t, c', i') := l.after c i
    match n with
    | some g => if g.start ≤ t then some (swap g) else some (t, { d with live := some (l, c', i') })
    | none => some (t, { d with live := some (l, c', i') })

/-- The gPTP time at which the gate of class `tc` closes next, within `n` changes. -/
def EthP.closes (d : EthP) (tc : Nat) : Nat → Option Int
  | 0 => none
  | n + 1 =>
    match d.change with
    | none => none
    | some (t, d') => if bitOf d'.gates tc then EthP.closes d' tc n else some t

/-- The gate control list of port `p` moves on (R286). PEND reads 0 once the list that waited has started. -/
def Mach.gateChange (m : Mach) (p : Nat) : Mach :=
  let d := m.eth p
  if !m.flg OP_ETH_GCL_CTRL.RUN p then m
  else
    match d.change with
    | none => m
    | some (t, d') =>
      match d.stampAt t with
      | none => m
      | some s => ((m.until s).setEth p d').setFlg OP_ETH_GCL_CTRL.PEND p d'.next.isSome

/-- A write of OP_ETH_GCL_CTRL. -/
def Mach.gclCtrlWrite (m : Mach) (p : Nat) (v : W32) : Mach :=
  let was := m.flg OP_ETH_GCL_CTRL.RUN p
  let run := OP_ETH_GCL_CTRL.RUN.of v = 1
  let m := m.putFlds [OP_ETH_GCL_CTRL.RUN, OP_ETH_GCL_CTRL.LEN] p v
  let m :=
    if !run then m.setEth p { m.eth p with live := none, next := none }
    else if !was || OP_ETH_GCL_CTRL.PEND.of v = 1 then m.setEth p { m.eth p with next := some (m.gclTake p) }
    else m
  m.setFlg OP_ETH_GCL_CTRL.PEND p (was && (m.eth p).next.isSome)

/-- Time of one byte in units of 2^−32 ns at the port's rate (R284). -/
def Mach.ethByte (m : Mach) (p : Nat) : Int :=
  match m.fld OP_ETH_CTRL.MODE p with
  | 0 => 2 ^ 32 * 8 / 10
  | 1 => 2 ^ 32 * 32 / 10
  | _ => 2 ^ 32 * 8

/-- Queue of traffic class `tc` of port `p`, transmit or receive (R287). -/
def ethQueue (p tc : Nat) (rx : Bool) : Nat := 3200 + 64 * p + 8 * bit rx + tc

/-- The frame at HEAD of class `tc` is sent with its SFD at `t` (R286, R287); `ok`: it left whole. -/
def Mach.ethTransmit (m : Mach) (p tc : Nat) (t : Stamp) (ok : Bool) : Mach :=
  let m := m.until t
  let q := ethQueue p tc false
  if !m.ethLive p then m
  else
    match m.portFrame q with
    | (none, m) => m
    | (some (d, bs), m) =>
      let e := m.eth p
      let len := natOfBytes ((d.drop 4).take 2)
      let fits := bitOf e.gates tc && (match e.closes tc 66 with
        | none => true
        | some c => e.time t + len * m.ethByte p ≤ c * 2 ^ 32)
      if !fits then m
      else m.portSent q (18 + p) (natOfBytes ((bs.getD []).take 6).reverse) d bs t (ok && len ≤ 1522)

/-- A frame of the command tunnel from MAC `src` (R288): taken whole, or dropped whole with DROP. -/
def Mach.tunnelReceive (m : Mach) (src : Nat) (payload : List Byte) : Mach :=
  if !(m.ethLive 0 && m.flg OP_ETH_CTRL.TUN 0) then m
  else
    let q := natOfBytes ((payload.drop 2).take 2) % 4096
    let n := natOfBytes ((payload.drop 4).take 1)
    let ok := natOfBytes (payload.take 2) = 0x4B44 && 1 ≤ n && n ≤ 22 && 8 + 64 * n ≤ payload.length && 3216 ≤ q && q < 3248
      && m.flg QM_CFG.EN q && m.fld QM_CFG.KIND q = 0 && m.qFill q + n ≤ m.qN q
    if !ok then m.raise QM_STAT.DROP q
    else
      let m := (List.range n).foldl (fun m i =>
        match m.memAt none (m.qEntry q (m.qTail q + i)) 64 with
        | none => m
        | some k => (m.store srcPorts k ((payload.drop (8 + 64 * i)).take 64)).2) m
      let m := { m with tunnel := (q, src) :: m.tunnel.filter (fun e => e.1 ≠ q) }
      (m.ring true q false ((m.qTail q + n) % 65536)).2

/-- Traffic class of a frame: the priority code point of its tag; `tc` where it has none. -/
def frameClass (frame : List Byte) (tc : Nat) : Nat :=
  if (frame.drop 12).take 2 = [0x81, 0x00] then natOfBytes ((frame.drop 14).take 1) / 32 else tc

/-- EtherType and payload of a frame, behind its tag if it has one. -/
def frameBody (frame : List Byte) : List Byte :=
  if (frame.drop 12).take 2 = [0x81, 0x00] then frame.drop 16 else frame.drop 12

/-- A frame arrives with its SFD at `t` (R285, R287, R288). -/
def Mach.ethReceive (m : Mach) (p tc : Nat) (t : Stamp) (frame : List Byte) (ok : Bool) : Mach :=
  let m := m.until t
  if !m.ethLive p then m
  else if p = 0 && ok && m.flg OP_ETH_CTRL.TUN 0 && (frameBody frame).take 2 = [0x88, 0xB5] then
    m.tunnelReceive (natOfBytes ((frame.drop 6).take 6).reverse) ((frameBody frame).drop 2)
  else
    let c := frameClass frame tc
    m.portReceive (ethQueue p c true) frame c 0 t (!ok || 1522 < frame.length)

/-- The link of port `p` comes up or goes down. -/
def Mach.ethLink (m : Mach) (p : Nat) (up : Bool) : Mach := m.setFlg OP_ETH_STAT.LINK p (up && m.outOfReset && m.pdOn 45)

/-- A write of OP_ETH_CTRL. -/
def Mach.ethCtrlWrite (m : Mach) (p : Nat) (v : W32) : Mach :=
  if m.flg OP_ETH_CTRL.EN p then
    let e := if OP_ETH_CTRL.EN.of v = 1 ∨ m.differs [OP_ETH_CTRL.TUN, OP_ETH_CTRL.MODE] p v then 1 else 0
    (if OP_ETH_CTRL.EN.of v = 1 then m else m.setFld OP_ETH_CTRL.EN p 0).setFld OP_ETH_STAT.CFG_ERR p e
  else
    let m := m.putFlds [OP_ETH_CTRL.TUN, OP_ETH_CTRL.MODE] p v
    let m := m.raiseIf (OP_ETH_CTRL.MODE.of v = 3 || (p = 1 && OP_ETH_CTRL.TUN.of v = 1)) OP_ETH_STAT.RSVW p
    if OP_ETH_CTRL.EN.of v = 0 then m.setFld OP_ETH_STAT.CFG_ERR p 0
    else if m.pdOn 45 then (m.raise OP_ETH_CTRL.EN p).setFld OP_ETH_STAT.CFG_ERR p 0
    else m.setFld OP_ETH_STAT.CFG_ERR p 2

/-- A write to a register of Ethernet port `p` at offset `o`. -/
def Mach.ethWrite (m : Mach) (p o : Nat) (v : W32) : Mach :=
  let a := Blk.base .eth p + o
  if o = 0 then m.ethCtrlWrite p v
  else if o = 4 then m.setRg a (m.rg a &&& ~~~(v &&& 1))
  else if o = 8 ∨ o = 0xC then
    if m.flg OP_ETH_CTRL.EN p then m.setFld OP_ETH_STAT.CFG_ERR p 1
    else (m.setRg a (if o = 8 then v else v &&& 0xFFFF)).setFld OP_ETH_STAT.CFG_ERR p 0
  else if o = 0x1C then if v.getLsbD 0 then m.ptpApply p else m
  else if o = 0x20 then m.gclCtrlWrite p v
  else if o = 0x24 then (m.setRg a v).raiseIf (gclCycle v.toNat ≠ v.toNat) OP_ETH_STAT.RSVW p
  else if o = 0x30 then m.setRg a (v &&& 0xFFFF)
  else if o = 0x10 ∨ o = 0x14 ∨ o = 0x18 ∨ o = 0x28 ∨ o = 0x2C then m.setRg a v
  else if 0x100 ≤ o ∧ o < 0x200 then
    if m.flg OP_ETH_GCL_CTRL.RUN p then m.setFld OP_ETH_STAT.CFG_ERR p 1
    else (m.setRg a v).raiseIf (OP_ETH_GCL.INTV.of v = 0) OP_ETH_STAT.RSVW p
  else m

/-! ### Field ports (R289 to R291) -/

/-- TEC of the CAN controller; OP_FLD_STAT shows it saturating at 255. -/
def Mach.tec (m : Mach) (f : Nat) : Nat := SMap.get (fun _ => 0) m.tecs f

/-- Sets TEC; bus-off above 255. -/
def Mach.setTec (m : Mach) (f n : Nat) : Mach :=
  let m := { m with tecs := SMap.set (fun _ => 0) m.tecs f n }
  (m.setFld OP_FLD_STAT.TEC f (min n 255)).raiseIf (255 < n) OP_FLD_STAT.BOFF f

/-- Whether field port `f` is enabled in UART (or CAN FD) mode. -/
def Mach.fldLive (m : Mach) (f : Nat) (uart : Bool) : Bool :=
  m.outOfReset && m.pdOn 46 && m.flg OP_FLD_CTRL.EN f && ((m.fld OP_FLD_CTRL.MODE f = 1) == uart)

/-- Bit time in ns of the nominal or the data phase. -/
def Mach.bitNs (m : Mach) (f : Nat) (data : Bool) : Nat :=
  if data then
    (m.fld OP_FLD_DBT.BRP f + 1) * (1 + max (m.fld OP_FLD_DBT.TSEG1 f) 1 + max (m.fld OP_FLD_DBT.TSEG2 f) 1) * 4
  else (m.fld OP_FLD_NBT.BRP f + 1) * (1 + max (m.fld OP_FLD_NBT.TSEG1 f) 1 + max (m.fld OP_FLD_NBT.TSEG2 f) 1) * 4

/-- The check of an enable (R289, R291), with the registers as they stand. -/
def Mach.fldErr (m : Mach) (f : Nat) : Nat :=
  if !m.pdOn 46 then 2
  else if m.fld OP_FLD_CTRL.MODE f = 1 then 0
  else
    let n := m.bitNs f false
    let d := m.bitNs f true
    if n < 1000 ∨ 8000 < n ∨ d < 200 ∨ n < d then 3 else 0

/-- The fields of OP_FLD_CTRL other than EN. -/
def fldRest : List Fld := [OP_FLD_CTRL.MODE, OP_FLD_CTRL.DE_LEAD, OP_FLD_CTRL.DE_LAG, OP_FLD_CTRL.PAR, OP_FLD_CTRL.IDLE]

/-- A write of OP_FLD_CTRL. An enable starts the CAN controller with its counters at 0. -/
def Mach.fldCtrlWrite (m : Mach) (f : Nat) (v : W32) : Mach :=
  if m.flg OP_FLD_CTRL.EN f then
    let e := if OP_FLD_CTRL.EN.of v = 1 ∨ m.differs fldRest f v then 1 else 0
    (if OP_FLD_CTRL.EN.of v = 1 then m else m.setFld OP_FLD_CTRL.EN f 0).setFld OP_FLD_STAT.CFG_ERR f e
  else
    let m := m.putFlds fldRest f v
    let m := m.raiseIf (2 ≤ OP_FLD_CTRL.MODE.of v || 3 ≤ OP_FLD_CTRL.PAR.of v % 8 || OP_FLD_CTRL.IDLE.of v < 2) OP_FLD_STAT.RSVW f
    if OP_FLD_CTRL.EN.of v = 0 then m.setFld OP_FLD_STAT.CFG_ERR f 0
    else
      let e := m.fldErr f
      let m := m.setFld OP_FLD_STAT.CFG_ERR f e
      if e = 0 then
        (((m.raise OP_FLD_CTRL.EN f).setTec f 0).setFld OP_FLD_STAT.REC f 0).setFld OP_FLD_STAT.BOFF f 0
      else m

/-- Whether a timing word carries a reserved value. -/
def timingReserved (o : Nat) (v : W32) : Bool :=
  if o = 4 then OP_FLD_NBT.TSEG1.of v = 0 || OP_FLD_NBT.TSEG2.of v = 0 || OP_FLD_NBT.SJW.of v = 0 || OP_FLD_NBT.TSEG2.of v < OP_FLD_NBT.SJW.of v
  else if o = 8 then OP_FLD_DBT.TSEG1.of v = 0 || OP_FLD_DBT.TSEG2.of v = 0 || OP_FLD_DBT.SJW.of v = 0 || OP_FLD_DBT.TSEG2.of v < OP_FLD_DBT.SJW.of v
  else OP_FLD_DIV.DIV.of v < 25 || 208333 < OP_FLD_DIV.DIV.of v

/-- A write to a register of field port `f` at offset `o`. -/
def Mach.fldWrite (m : Mach) (f o : Nat) (v : W32) : Mach :=
  let a := Blk.base .fld f + o
  let rd := match cardAt a with
    | some c => c.rd
    | none => 0
  if o = 0 then m.fldCtrlWrite f v
  else if o = 0xC then m.setRg a (m.rg a &&& ~~~(v &&& 0x40000000))
  else if 0x40 ≤ o then m.setRg a (v &&& rd)
  else if o = 4 ∨ o = 8 ∨ o = 0x10 then
    if m.flg OP_FLD_CTRL.EN f then m.setFld OP_FLD_STAT.CFG_ERR f 1
    else ((m.setRg a (v &&& rd)).raiseIf (timingReserved o v) OP_FLD_STAT.RSVW f).setFld OP_FLD_STAT.CFG_ERR f 0
  else m

/-- Whether the acceptance filters pass a frame (R290). -/
def Mach.canAccepts (m : Mach) (f : Nat) (ide : Bool) (id : Nat) : Bool :=
  let on := (List.range 16).filter (fun i => m.flg (OP_FLD_FILT.EN.sh (4 * i)) f)
  on.isEmpty || on.any (fun i =>
    m.flg (OP_FLD_FILT.IDE.sh (4 * i)) f == ide &&
      ((m.fld (OP_FLD_FILT.ID.sh (4 * i)) f ^^^ id) &&& m.fld (OP_FLD_MASK.MASK.sh (4 * i)) f) % (if ide then 2 ^ 29 else 2 ^ 11) = 0)

/-- A CAN frame ends on field port `f`, its start bit at `t` (R287, R289, R290): `info` as the descriptor's, bit 2 by `ide`; `ok`
false: an error frame in its place. -/
def Mach.canReceive (m : Mach) (f : Nat) (t : Stamp) (id : Nat) (ide : Bool) (info : Nat) (data : List Byte) (ok : Bool) : Mach :=
  let m := m.until t
  if !m.fldLive f false || m.flg OP_FLD_STAT.BOFF f then m
  else if !ok then m.countSat OP_FLD_STAT.REC f
  else
    let m := m.setFld OP_FLD_STAT.REC f (m.fld OP_FLD_STAT.REC f - 1)
    let id := if ide then id else id % 2048
    let remote := bitOf info 3 && !bitOf info 0
    if !m.canAccepts f ide id then m
    else m.portReceive (3329 + 2 * f) (if remote then [] else data) (info % 4 + 4 * bit ide + 8 * bit remote) id t false

/-- Field port `f` sends the CAN frame at HEAD, its start bit at `t`; one that fails stays and is sent again. -/
def Mach.canTransmit (m : Mach) (f : Nat) (t : Stamp) (ok : Bool) : Mach :=
  let m := m.until t
  if !m.fldLive f false || m.flg OP_FLD_STAT.BOFF f then m
  else
    match m.portFrame (3328 + 2 * f) with
    | (none, m) => m
    | (some (d, bs), m) =>
      if bs.isNone then m.portSent (3328 + 2 * f) (20 + f) 0 d bs t false
      else if ok then (m.setTec f (m.tec f - 1)).portSent (3328 + 2 * f) (20 + f) (natOfBytes ((d.drop 16).take 4)) d bs t true
      else m.setTec f (m.tec f + 8)

/-- The bit time of a UART in vernier: a DIV out of range is treated as 2,170 (R291). -/
def Mach.uartBit (m : Mach) (f : Nat) : Nat :=
  let d := m.fld OP_FLD_DIV.DIV f
  (if d < 25 ∨ 208333 < d then 2170 else d) * 64

/-- Bits of a UART character: start, 8 data bits, parity (PAR 1 or 2), 1 or 2 stop bits. -/
def Mach.uartChar (m : Mach) (f : Nat) : Nat :=
  let p := m.fld OP_FLD_CTRL.PAR f
  10 + bit (p % 8 = 1 ∨ p % 8 = 2) + p / 8

/-- While DE of a UART was last driven high (R289): from DE_LEAD bit times before the first start bit at `t` to DE_LAG bit times after
the last stop bit of `n` characters sent one behind the other. -/
def Mach.deWindow (m : Mach) (f : Nat) (t : Stamp) (n : Nat) : Stamp × Stamp :=
  (t - m.fld OP_FLD_CTRL.DE_LEAD f * m.uartBit f, t + (n * m.uartChar f + m.fld OP_FLD_CTRL.DE_LAG f) * m.uartBit f)

/-- Whether DE of UART `f` is high at `t`. -/
def Mach.deHigh (m : Mach) (f : Nat) (t : Stamp) : Bool :=
  let w := SMap.get (fun _ => (0, 0)) m.des f
  w.1 ≤ t && t < w.2

/-- The level on FLDf_DE now: low on an enabled CAN FD port, DE of an enabled UART; the spec gives no other. -/
def Mach.deOut (m : Mach) (f : Nat) : Option Bool :=
  if m.fldLive f false then some false else if m.fldLive f true then some (m.deHigh f m.now) else none

/-- A receive buffer of a UART ends at an idle line (R289), its first start bit at `t`. Echo while DE is high is ignored. -/
def Mach.uartReceive (m : Mach) (f : Nat) (t : Stamp) (data : List Byte) (ok : Bool) : Mach :=
  let m := m.until t
  if m.fldLive f true && !m.deHigh f t then m.portReceive (3329 + 2 * f) data 0 0 t (!ok) else m

/-- Field port `f` sends the buffer at HEAD, its first start bit at `t`. -/
def Mach.uartTransmit (m : Mach) (f : Nat) (t : Stamp) : Mach :=
  let m := m.until t
  if !m.fldLive f true then m
  else
    match m.portFrame (3328 + 2 * f) with
    | (none, m) => m
    | (some (d, bs), m) =>
      let m := match bs with
        | some b => { m with des := SMap.set (fun _ => (0, 0)) m.des f (m.deWindow f t b.length) }
        | none => m
      m.portSent (3328 + 2 * f) (20 + f) 0 d bs t true

/-! ### Vision triggers and strobes (R292, R293) -/

def Mach.vis (m : Mach) (o : Nat) : Vis := SMap.get (fun _ => {}) m.viss o
def Mach.setVis (m : Mach) (o : Nat) (d : Vis) : Mach := { m with viss := SMap.set (fun _ => {}) m.viss o d }

/-- A pulse of `w` vernier from `at_` on is put among the scheduled ones of output `o`; false where it overlaps one or eight
are scheduled. -/
def Mach.visSchedule (m : Mach) (o : Nat) (at_ : Stamp) (w : Nat) : Bool × Mach :=
  let d := m.vis o
  if 8 ≤ d.pulses.length || d.pulses.any (fun p => at_ < p.1 + p.2 && p.1 < at_ + w) then (false, m)
  else
    let before := d.pulses.filter (fun p => p.1 < at_)
    let after := d.pulses.filter (fun p => at_ ≤ p.1)
    (true, m.setVis o { d with pulses := before ++ (at_, w) :: after })

/-- The level on trigger output `o`: at rest low, inverted by TPOL; none while high-impedance. -/
def Mach.visOut (m : Mach) (o : Nat) : Option Bool :=
  if m.outOfReset && m.pdOn 0 then some ((m.vis o).high != bitOf (m.fld OP_VIS_TPOL.V 0) o) else none

/-- An edge of trigger output `o`: the next pulse begins, or the one under way ends. Before VN_CAL edges lie on whole ticks (R36). -/
def Mach.visEdge (m : Mach) (o : Nat) (rise : Bool) : Mach :=
  let d := m.vis o
  match d.pulses with
  | [] => m
  | p :: ps =>
    if rise = d.high then m
    else if rise then
      let t := m.edgeAt false p.1
      (((m.until t).setVis o { d with high := true }).windowEvent (0x110 + o) t false false).tell 11 o 0 t
    else (m.until (m.edgeAt false (p.1 + p.2))).setVis o { pulses := ps, high := false }

/-- An edge on strobe input `n`, stable for SFILT: an active one is stamped and posted (R293). -/
def Mach.strobe (m : Mach) (n : Nat) (e : Edge) (rising : Bool) : Mach :=
  if !(m.outOfReset && m.pdOn 0 && bitOf (m.fld OP_VIS_SEN.EN 0) n) || rising = bitOf (m.fld OP_VIS_SEN.EDGE 0) n then m
  else
    let (s, arb, dir) := m.stampEdge e
    let m := m.until (s + m.fld OP_VIS_SFILT.V 0 * 64)
    (m.windowEvent (0x100 + n) s arb dir).postIf (m.flg OP_VIS_SQ.EN 0) (m.fld OP_VIS_SQ.QUEUE 0)
      (bytesOfNat 8 s ++ bytesOfNat 1 n ++ bytesOfNat 1 (bit arb + 2 * bit dir))

/-! ### STO inputs and safe-status outputs (R294 to R298, R234) -/

def Mach.sto (m : Mach) (i : Nat) : StoIn := SMap.get (fun _ => {}) m.stos i
def Mach.setSto (m : Mach) (i : Nat) (d : StoIn) : Mach := { m with stos := SMap.set (fun _ => {}) m.stos i d }

/-- Vernier in a millisecond. -/
abbrev vnPerMs : Nat := 16000000

def Mach.stoRet (m : Mach) : Nat := max (m.fld OP_STO_CFG.RET 0) 1 * vnPerMs
def Mach.stoDisc (m : Mach) : Nat := (let d := m.fld OP_STO_CFG.DISC 0; if d = 0 then 100 else d) * vnPerMs

/-- Whether a discrepancy of input `i` is held. -/
def Mach.stoHeld (m : Mach) (i : Nat) : Bool := bitOf (m.fld OP_STO_STAT.DISC 0) i

def Mach.setStoBit (m : Mach) (f : Fld) (i : Nat) (b : Bool) : Mach := m.setFld f 0 (putBits (m.fld f 0) i i (bit b))

/-- The record of R298: 0 entered, 1 left, 2 discrepancy. -/
def Mach.stoRecord (m : Mach) (i kind : Nat) (stamp : Stamp) : Mach :=
  m.postIf (m.flg OP_STO_EVQ.EN 0) (m.fld OP_STO_EVQ.QUEUE 0) (bytesOfNat 8 stamp ++ bytesOfNat 1 i ++ bytesOfNat 1 kind)

/-- Input `i` enters its safe state: every timer that selects it is driven off (R234). -/
def Mach.stoEnter (m : Mach) (i : Nat) (stamp : Stamp) (arb dir : Bool) : Mach :=
  let m := m.setStoBit OP_STO_STAT.SAFE i true
  let m := (m.stoTimers i).foldl (fun m x => ((m.raise AX_GT_STAT.STO x).gtRecord x 3 stamp arb dir).driveAll x stamp) m
  m.stoRecord i 0 stamp

/-- Channel `ch` of STO input `i` goes low, or high again, with the edge `e`. -/
def Mach.stoChannel (m : Mach) (i : Nat) (ch low : Bool) (e : Edge) : Mach :=
  let (s, arb, dir) := m.stampEdge e
  let m := m.until s
  let d := m.sto i
  let d := if ch then { d with hi1 := !low, since1 := if low || d.hi1 then d.since1 else s }
    else { d with hi0 := !low, since0 := if low || d.hi0 then d.since0 else s }
  let d := { d with differ := if d.hi0 = d.hi1 then none else d.differ.or (some s) }
  let m := m.setSto i d
  let m := if !d.hi0 && !d.hi1 then m.setStoBit OP_STO_STAT.DISC i false else m
  let m := if low && !m.stoSafe i then m.stoEnter i s arb dir else m
  if low then m.windowEvent (0x1B0 + 2 * i + bit ch) s arb dir else m

/-- When input `i` leaves its safe state, as things stand (R296). -/
def Mach.stoDue (m : Mach) (i : Nat) : Option Stamp :=
  let d := m.sto i
  let ticks := m.flg TB_STATUS.LOCK 0 || m.flg SYS_CLK_STAT.HOLD 0
  if ticks && m.stoSafe i && !m.stoHeld i && d.hi0 && d.hi1 then some (max d.since0 d.since1 + m.stoRet) else none

/-- Input `i` leaves its safe state: the timers that select it stay shuttered with cause STO (R234). -/
def Mach.stoReturn (m : Mach) (i : Nat) : Mach :=
  match m.stoDue i with
  | none => m
  | some t =>
    let m := (m.until t).setStoBit OP_STO_STAT.SAFE i false
    let m := (m.stoTimers i).foldl (fun m x => ((m.setFld AX_GT_STAT.STO x 0).shutter x 9 m.now).driveAll x m.now) m
    m.stoRecord i 1 m.now

/-- The channels of input `i` have differed for more than DISC ms (R296). -/
def Mach.stoDiscrepancy (m : Mach) (i : Nat) : Mach :=
  match (m.sto i).differ with
  | none => m
  | some t =>
    if m.stoHeld i then m
    else
      let m := m.until (t + m.stoDisc)
      (m.setStoBit OP_STO_STAT.DISC i true).stoRecord i 2 m.now

/-- The two output paths disagree for more than 1 µs (R297). -/
def Mach.safeDisagree (m : Mach) : Mach := if m.outOfReset then m.raise OP_STO_STAT.SPATH 0 else m

/-- A write of OP_STO_CFG by a House supervisor core. -/
def Mach.stoCfgWrite (m : Mach) (v : W32) : Mach :=
  (m.putFlds [OP_STO_CFG.SMASK, OP_STO_CFG.DISC, OP_STO_CFG.RET] 0 v).raiseIf
    (OP_STO_CFG.DISC.of v = 0 || OP_STO_CFG.RET.of v = 0) OP_STO_STAT.RSVW 0

/-- Every input starts in its safe state, its return time counted from `t` (R296: tick 0 after a reset). -/
def Mach.stoRestart (m : Mach) (t : Stamp) : Mach :=
  { m with stos := SMap.mapV (fun _ => {}) m.stos (fun d =>
      { d with since0 := t, since1 := t, differ := if d.hi0 = d.hi1 then none else some t }) }

end Sys2Proof.Machine
end

