-- ==== Sys2Proof/Machine/Pairs.lean ====
section
/-! DEFINITION. Pairs of Reed cores (R395 to R418, R473, R486): mode and state, pair reset, hard faults, milestones, debug halts,
the pair loader; and the watchdogs (R441 to R446). -/

namespace Sys2Proof.Machine

def Mach.pair (m : Mach) (p : Nat) : Pair := SMap.get (fun _ => {}) m.pairs p
def Mach.setPair (m : Mach) (p : Nat) (d : Pair) : Mach := { m with pairs := SMap.set (fun _ => {}) m.pairs p d }

/-- SYS_PAIR_STAT.STATE: 0 RUN, 1 ROLLBACK, 2 REPLAY, 3 HALT, 4 RESET, 5 HELD. -/
def Mach.pState (m : Mach) (p : Nat) : Nat := m.fld SYS_PAIR_STAT.STATE p
def Mach.setPState (m : Mach) (p v : Nat) : Mach := m.setFld SYS_PAIR_STAT.STATE p v

/-- The cores that run in pair `p`: a safe pair is one core, numbered 2p (R396). -/
def Mach.coresOf (m : Mach) (p : Nat) : List Nat := if m.safePair p then [2 * p] else [2 * p, 2 * p + 1]

/-- The core that runs for core number `c`. -/
def Mach.coreIdx (m : Mach) (c : Nat) : Nat := if m.safePair (c / 2) then 2 * (c / 2) else c

/-- The address of control register `n` of core `c`. -/
def ctlAddr (c n : Nat) : Nat := Blk.base .ctl c + 4 * n

/-- The value in force of control register `n` (R337). -/
def Mach.inForce (m : Mach) (c n : Nat) : W32 :=
  match SMap.get (fun _ => none) (m.reed c).core.old n with
  | some v => v
  | none => m.rg (ctlAddr c n)

/-- Every control-register write comes into force (R337). -/
def Core.sync (k : Core) : Core := { k with old := [] }

def Mach.setCore (m : Mach) (c : Nat) (k : Core) : Mach := m.setReed c { m.reed c with core := k }

/-! ### Watchdogs (R441 to R446) -/

/-- The life-cycle state is Field. -/
def Mach.inField (m : Mach) : Bool := m.fld SYS_LC_STAT.STATE 0 = 2

/-- Watchdog `w` counts a full window from now. -/
def Mach.wdStart (m : Mach) (w : Nat) : Mach :=
  ((m.setWd w { from_ := m.now }).setFld (wdFld SUP_PWD_STAT.RUN SUP_DWD_STAT.RUN w) 0 1).setFld
    (wdFld SUP_PWD_STAT.FROZEN SUP_DWD_STAT.FROZEN w) 0 0

/-- Watchdog `w` no longer counts. -/
def Mach.wdStop (m : Mach) (w : Nat) : Mach :=
  ((m.setWd w {}).setFld (wdFld SUP_PWD_STAT.RUN SUP_DWD_STAT.RUN w) 0 0).setFld
    (wdFld SUP_PWD_STAT.FROZEN SUP_DWD_STAT.FROZEN w) 0 0

def Mach.wdEn (m : Mach) (w : Nat) : Bool := m.flg (wdFld SUP_PWD_CTRL.EN SUP_DWD_CTRL.EN w) 0
def Mach.wdRuns (m : Mach) (w : Nat) : Bool := m.flg (wdFld SUP_PWD_STAT.RUN SUP_DWD_STAT.RUN w) 0

/-- A watchdog is frozen by a halt. -/
def Mach.wdFreeze (m : Mach) (w : Nat) : Mach :=
  if !m.wdRuns w then m
  else
    let d := m.wd w
    ((m.setWd w { d with frozen := some (m.wdGone w) }).setFld (wdFld SUP_PWD_STAT.RUN SUP_DWD_STAT.RUN w) 0 0).setFld
      (wdFld SUP_PWD_STAT.FROZEN SUP_DWD_STAT.FROZEN w) 0 1

/-- A frozen watchdog restarts at the release. -/
def Mach.wdThaw (m : Mach) (w : Nat) : Mach :=
  if (m.wd w).frozen.isNone then m
  else (m.wdStart w).setFld (wdFld SUP_PWD_STAT.WD_DBGREL SUP_DWD_STAT.WD_DBGREL w) 0 1

/-- Whether a safe pair is halted. -/
def Mach.safeHalted (m : Mach) : Bool := (List.range 8).any (fun p => m.safePair p && m.pState p = 3)

/-- The device watchdog follows the halts of safe pairs (R446). -/
def Mach.dwdFollow (m : Mach) : Mach :=
  if m.inField then m
  else if m.safeHalted then m.wdFreeze 8
  else m.wdThaw 8

/-- The pair a watchdog warns: its own, or WPAIR. -/
def Mach.wdPair (m : Mach) (w : Nat) : Nat := if w < 8 then w else m.fld SUP_DWD_CTRL.WPAIR 0

/-! ### Reset of a pair (R473, R433) -/

/-- A core comes to its reset state: its registers, its store buffer, its events. -/
def Mach.coreReset (m : Mach) (c : Nat) : Mach :=
  let m := m.setReed c {}
  { m with
    regs := SMap.clear m.regs (Blk.base .ctl c) (Blk.base .ctl c + 0x4000)
    qevents := SMap.clear m.qevents (2 * c) (2 * c + 2) }

/-- The TCM of a core reads 0 with good check bits. -/
def Mach.wipeTcm (m : Mach) (c : Nat) : Mach :=
  { m with
    mem := SMap.clear m.mem (tcmKey c) (tcmKey c + 0x40000)
    ecc := SMap.clear m.ecc (tcmKey c / 8) (tcmKey c / 8 + 0x8000) }

/-- A wipe runs until WIPE_COMPLETE. -/
def Mach.wipeStart (m : Mach) (w : Nat) : Mach :=
  { m with power := { m.power with wipes := w :: m.power.wipes.filter (fun v => v ≠ w) } }

/-- Pair `p` is reset; it stays HELD, or starts when its wipe completes. Its mode is that of SPLIT now (R395, R414). -/
def Mach.pairReset (m : Mach) (p : Nat) (held : Bool) : Mach :=
  let m := [2 * p, 2 * p + 1].foldl (fun m c => ((m.coreReset c).wipeTcm c).setRg (DBG_CSTAT.HALTED.addr 0 + 4 * c)
    (m.rg (DBG_CSTAT.HALTED.addr 0 + 4 * c) &&& 0xFF)) m
  let m := m.setPair p { start := !held }
  let m := (m.setFlg SYS_PAIR_STAT.MODE p (m.flg SYS_PAIR_CTRL.SPLIT p)).setPState p (if held then 5 else 4)
  let m := (m.wipeStart p).setFld SYS_MEM_STAT.WIPE_PAIR 0 (m.fld SYS_MEM_STAT.WIPE_PAIR 0 ||| 2 ^ p)
  let m := m.setFld (SYS_PFW_ST.PST.sh (8 * p)) 0 1
  let m := m.wdStop p
  let m := if m.safePair p then m else m.setFld (wdFld SUP_PWD_CTRL.EN SUP_DWD_CTRL.EN p) 0 0
  m.dwdFollow

/-- Steps 2 to 4 of R408, for a pair that was `safe`: reset and HELD; the fault; the stops. -/
def Mach.pairFails (m : Mach) (p : Nat) (f : Mach → Mach) : Mach :=
  let safe := m.safePair p
  let m := f (m.pairReset p true)
  if safe then m.stopPairAxes p else m

/-- A hard fault of pair `p` (R408): `cls` as CLASS, `item` as ITEM, `addr` the bundle. -/
def Mach.hardFault (m : Mach) (p cls item addr : Nat) : Mach :=
  let m := ((m.raise SYS_PAIR_STAT.HF p).setFld SYS_PAIR_STAT.CLASS p cls).setFld SYS_PAIR_STAT.ITEM p item
  let m := (m.setFld SYS_PAIR_MMADDR.ADDR p addr).setFld SYS_PAIR_HFSTAMP.STAMP p m.now
  m.pairFails p (fun m => m.setFault SUP_FSTAT.HF)

/-- A House triple fault of pair `p` (R394). -/
def Mach.tripleHouse (m : Mach) (p : Nat) : Mach := m.pairFails p (fun m => m.setFault SUP_FSTAT.TRIPLE)

/-- Watchdog `w` expires (R443, R444). -/
def Mach.wdExpire (m : Mach) (w : Nat) (early : Bool) : Mach :=
  let m := m.raiseIf early (wdFld SUP_PWD_STAT.EARLY SUP_DWD_STAT.EARLY w) 0
  let m := m.raise (wdFld SUP_PWD_STAT.EXP SUP_DWD_STAT.EXP w) 0
  let m := { m with sup := { m.sup with wdo := m.now + vnPerMs } }
  if w < 8 then
    m.pairFails w (fun m => (m.setFld SUP_FSTAT.PWD 0 (m.fld SUP_FSTAT.PWD 0 ||| 2 ^ w)).refreshFault)
  else
    let was := m.loActive
    let m := ((m.wdStop 8).setFault SUP_FSTAT.DWD).loStart 7 m.now 0
    if was then m
    else
      let g := m.fld SUP_DWD_CTRL.GRACE 0
      { m with sup := { m.sup with grace := some (if g = 0 then 0 else m.now + g * vnPerMs) } }

/-- Expiry by time. -/
def Mach.wdTimeout (m : Mach) (w : Nat) : Mach :=
  if m.wdRuns w then (m.until ((m.wd w).from_ + m.wdMax w * vnPer10us)).wdExpire w false else m

/-- A write to the KICK register of watchdog `w` (R441, R442, R444); `ok`: from a core that may kick it. -/
def Mach.wdKick (m : Mach) (w : Nat) (ok : Bool) (v : W32) : Mach :=
  if !ok then m.raise SUP_FSTAT.RSVW 0
  else
    let d := m.wd w
    if !m.wdEn w || d.frozen.isSome then m
    else if v = 0xC35A ∧ ¬ d.half then m.setWd w { d with half := true }
    else if v = 0x3CA5 ∧ d.half then
      let early : Bool := match d.kicked with
        | some t => m.now - t < m.wdMin w * vnPer10us
        | none => false
      if early then m.wdExpire w true
      else
        let m := m.wdStart w
        m.setWd w { m.wd w with kicked := some m.now }
    else m.wdExpire w true

/-- The warning of watchdog `w` (R441). -/
def Mach.wdWarn (m : Mach) (w : Nat) : Mach :=
  let n := m.fld (wdFld SUP_PWD_CTRL.WARN SUP_DWD_CTRL.WARN w) 0
  let d := m.wd w
  if !m.wdRuns w || d.warned || n = 0 || m.wdMax w ≤ n then m
  else
    let m := m.until (d.from_ + (m.wdMax w - n) * vnPer10us)
    let m := (m.setWd w { d with warned := true }).raise (wdFld SUP_PWD_STAT.WARNED SUP_DWD_STAT.WARNED w) 0
    let p := m.wdPair w
    if m.safePair p then m.setReed (2 * p) { m.reed (2 * p) with wdwarn := true } else m

/-- A write of SUP_PWD_CTRL_p or SUP_DWD_CTRL. -/
def Mach.wdCtrlWrite (m : Mach) (w : Nat) (v : W32) : Mach :=
  let lock := m.flg (wdFld SUP_PWD_CTRL.LOCK SUP_DWD_CTRL.LOCK w) 0
  let was := m.wdEn w
  let m := m.setFld (wdFld SUP_PWD_CTRL.WARN SUP_DWD_CTRL.WARN w) 0 (SUP_PWD_CTRL.WARN.of v)
  let m := if w < 8 then m
    else (m.setFld SUP_DWD_CTRL.GRACE 0 (SUP_DWD_CTRL.GRACE.of v)).setFld SUP_DWD_CTRL.WPAIR 0 (SUP_DWD_CTRL.WPAIR.of v)
  if lock then m
  else
    let on := SUP_PWD_CTRL.EN.of v = 1 && (w = 8 || m.safePair w)
    let m := m.setFlg (wdFld SUP_PWD_CTRL.EN SUP_DWD_CTRL.EN w) 0 on
    let m := m.raiseIf (SUP_PWD_CTRL.LOCK.of v = 1) (wdFld SUP_PWD_CTRL.LOCK SUP_DWD_CTRL.LOCK w) 0
    if on && !was then
      if w < 8 && (m.pState w = 4 || m.pState w = 5) then m else m.wdStart w
    else if !on then m.wdStop w
    else m

/-- A write of SUP_PWD_WIN_p or SUP_DWD_WIN. -/
def Mach.wdWinWrite (m : Mach) (w : Nat) (v : W32) : Mach :=
  if m.flg (wdFld SUP_PWD_CTRL.LOCK SUP_DWD_CTRL.LOCK w) 0 then m
  else
    let m := m.setRg ((wdFld SUP_PWD_WIN.TMAX SUP_DWD_WIN.TMAX w).addr 0) v
    let tmax := SUP_PWD_WIN.TMAX.of v
    m.raiseIf (tmax = 0 || (if tmax = 0 then 1000 else tmax) ≤ SUP_PWD_WIN.TMIN.of v) SUP_FSTAT.RSVW 0

/-! ### Milestones (R401, R402) -/

/-- The control registers a milestone record holds: those of the core but the ones derived (R402). -/
def Mach.ctlOf (m : Mach) (c : Nat) : SMap W32 :=
  (m.regs.filter (fun e => Blk.base .ctl c ≤ e.1 && e.1 < Blk.base .ctl c + 0x4000)).map (fun e => (e.1 - Blk.base .ctl c, e.2))

/-- The record of the safe core `c`. -/
def Mach.msRecord (m : Mach) (c : Nat) : MsRec :=
  { core := (m.reed c).core, ctl := m.ctlOf c, evH := SMap.get (fun _ => ([], false)) m.qevents (2 * c),
    evG := SMap.get (fun _ => ([], false)) m.qevents (2 * c + 1), rl := SMap.get (fun _ => none) m.shadow c }

/-- A milestone of safe pair `p` is taken: every unit has its result, the record goes into the other slot, log and undo record
are emptied. A transient mismatch of the interval that ends is counted (R407). -/
def Mach.msTake (m : Mach) (p : Nat) : Mach :=
  let c := 2 * p
  let m := m.setCore c { (m.reed c).core with busy := 0 }
  let d := m.pair p
  let m := match d.item with
    | none => m
    | some i => ((m.setFld MMINFO.ITEM c i).countSat MMINFO.COUNT c).countSat SYS_PAIR_MMCNT.TRANS p
  let slot := 1 - m.fld MSSTAT.SLOT c
  let m := (m.setFld MSSTAT.SLOT c slot).countMod MSCNT.V c
  m.setPair p { d with
    slots := SMap.set (fun _ => none) d.slots slot (some (m.msRecord c)), log := [], undo := [], msFrom := m.now, due := none,
    count := 0, item := none, back := none }

/-- Whether a due milestone holds issue: no reservation is held (R401). -/
def Mach.msHolds (m : Mach) (p : Nat) : Bool := (m.pair p).due.isSome && (m.reed (2 * p)).resv.isNone

/-- Takes a due milestone when it can be taken: the store buffer has drained. -/
def Mach.msTry (m : Mach) (p : Nat) : Mach :=
  if m.safePair p && m.pState p = 0 && m.msHolds p && (m.reed (2 * p)).sb.isEmpty then m.msTake p else m

/-- A milestone falls due. -/
def Mach.msFall (m : Mach) (p : Nat) : Mach :=
  let d := m.pair p
  (m.setPair p { d with due := d.due.or (some m.now) }).msTry p

/-- MINT in µs: 0 and 97 to 127 are treated as 96 (R416). -/
def Mach.mint (m : Mach) (p : Nat) : Nat :=
  let n := MSCFG.MINT.of (m.inForce (2 * p) 0x40)
  if n = 0 ∨ 96 < n then 96 else n

/-- MINT µs have passed since the last milestone. -/
def Mach.msTimer (m : Mach) (p : Nat) : Mach :=
  if m.safePair p && m.pState p ≤ 2 then (m.until ((m.pair p).msFrom + m.mint p * 16000)).msFall p else m

/-- A due milestone has waited 3 µs for a reservation to clear: the part clears it. -/
def Mach.msReservation (m : Mach) (p : Nat) : Mach :=
  match (m.pair p).due with
  | none => m
  | some t =>
    if m.pState p ≠ 0 || (m.reed (2 * p)).resv.isNone then m
    else
      let m := m.until (t + 48000)
      (m.setReed (2 * p) { m.reed (2 * p) with resv := none }).msTry p

/-- An item is logged (R403); the log or undo record near its end makes a milestone due (R401). -/
def Mach.logItem (m : Mach) (p kind a v : Nat) : Mach :=
  if !m.safePair p then m
  else
    let d := m.pair p
    let m := m.setPair p { d with log := d.log ++ [{ kind := kind, a := a, v := v }] }
    if 2016 ≤ d.log.length + 1 then m.setPair p { m.pair p with due := (m.pair p).due.or (some m.now) } else m

/-- The words of TCM bytes about to be stored go into the undo record, the first time in an interval (R403). `o` is the TCM
offset. -/
def Mach.undoItem (m : Mach) (p o n : Nat) : Mach :=
  if !m.safePair p || n = 0 then m
  else
    let k := tcmKey (2 * p)
    let d := m.pair p
    let u := (List.range ((o + n - 1) / 8 - o / 8 + 1)).foldl (fun u i =>
      let w := o / 8 + i
      match SMap.get (fun _ => none) u w with
      | some _ => u
      | none => SMap.set (fun _ => none) u w (some (BitVec.ofNat 64 (m.peekNat (k + 8 * w) 8)))) d.undo
    m.setPair p { d with undo := u, due := if 4064 ≤ u.length then d.due.or (some m.now) else d.due }

/-! ### Mismatch, rollback, replay (R404 to R408, R411) -/

/-- A milestone record is loaded into core `c`: its registers, control registers and RL shadow. The queue-event lists keep what has
arrived since (R406). -/
def Mach.loadRecord (m : Mach) (c : Nat) (r : MsRec) : Mach :=
  let m := { m with regs := SMap.clear m.regs (Blk.base .ctl c) (Blk.base .ctl c + 0x4000), shadow := SMap.set (fun _ => none) m.shadow c r.rl }
  (r.ctl.foldl (fun m e => m.setRg (Blk.base .ctl c + e.1) e.2) m).setCore c r.core

/-- Steps 3 and 4 of R404, once the store buffer has drained: TCM and the core go back to the milestone; the replay runs. -/
def Mach.rollback (m : Mach) (p : Nat) : Mach :=
  let c := 2 * p
  let d := m.pair p
  let k := tcmKey c
  let words := d.undo.map (fun e => (e.1, BitVec.ofNat 64 (m.peekNat (k + 8 * e.1) 8)))
  let here := m.msRecord c
  let m := d.undo.foldl (fun m e => match e.2 with
    | some v => m.poke (k + 8 * e.1) (bytesOfNat 8 v.toNat)
    | none => m) m
  let back := (SMap.get (fun _ => none) d.slots (m.fld MSSTAT.SLOT c)).getD here
  ((m.loadRecord c back).setPair p { d with back := some (here, words) }).setPState p 2

/-- The pair freezes at a mismatch in item `item` (R399) of the bundle it was to run (R404): the reservation clears, earlier stores
proceed. A second mismatch of the interval is a hard fault of class REPEAT. -/
def Mach.mismatch (m : Mach) (p item : Nat) : Mach :=
  let c := 2 * p
  let r := m.reed c
  let d := m.pair p
  if d.item.isSome then m.hardFault p 1 item r.core.pc
  else
    let m := (m.setFld SYS_PAIR_MMADDR.ADDR p r.core.pc).setPair p { d with item := some item }
    let m := (m.setReed c { r with resv := none, resvLog := r.resv, fenced := false, wfe := false }).setPState p 1
    if r.sb.isEmpty then m.rollback p else m

/-- A replay ends (R405): `out` 0 it reached the mismatching bundle; 1 REPEAT, 2 LOGDIV, 3 MSERR. The core and TCM stand again as
they stood there. -/
def Mach.replayEnd (m : Mach) (p out : Nat) : Mach :=
  let c := 2 * p
  let d := m.pair p
  if m.pState p ≠ 2 then m
  else if out ≠ 0 then m.hardFault p out (d.item.getD 0) (m.fld SYS_PAIR_MMADDR.ADDR p)
  else
    match d.back with
    | none => m
    | some (rec, words) =>
      let k := tcmKey c
      let m := words.foldl (fun m e => m.poke (k + 8 * e.1) (bytesOfNat 8 e.2.toNat)) m
      let m := m.loadRecord c rec
      let r := m.reed c
      let m := m.setReed c { r with resv := r.resvLog, resvLog := none }
      ((m.setPair p { d with back := none }).setPState p 0).msTry p

/-- The comparator's self-test (R409), every 1 ms. -/
def Mach.selfTest (m : Mach) (p : Nat) (pass : Bool) : Mach :=
  if !m.safePair p || (m.pState p ≠ 0 && m.pState p ≠ 3) then m
  else
    let t := (m.pair p).testFrom + vnPerMs
    let m := m.until t
    let m := m.setPair p { m.pair p with testFrom := t }
    if pass then m.countMod SYS_PAIR_MMCNT.TESTS p else m.hardFault p 4 0 (m.reed (2 * p)).core.pc

/-! ### The output balls of supervision (R436) -/

/-- LO_ACT, LO_DONE, FAULT_N, GLOCK_N, WDO_N, and SAFE_A with SAFE_B. -/
inductive SupBall where
  | loAct
  | loDone
  | faultN
  | glockN
  | wdoN
  | safe
  deriving DecidableEq, Repr

/-- The level on an output ball: none where it is high-impedance. FAULT_N is driven low in reset; GLOCK_N is low while a core is
locked (R394), WDO_N for 1 ms after an expiry. -/
def Mach.supOut (m : Mach) (b : SupBall) : Option Bool :=
  match b with
  | .faultN => some (m.outOfReset && !m.flg SUP_FSTAT.FAULT 0)
  | b =>
    if !m.outOfReset then none
    else some (match b with
      | .loAct => m.loActive
      | .loDone => m.flg SUP_LO_STAT.DONE 0
      | .glockN => !(List.range 16).any (fun c => (m.reed c).locked)
      | .wdoN => m.sup.wdo ≤ m.now
      | _ => m.stoConf)

/-! ### Debug halts of cores and pairs (R503, R509) -/

/-- DBG_CSTAT of the cores that core `c` stands for: in a safe pair both read the pair's state. -/
def Mach.setCstat (m : Mach) (c : Nat) (halted : Bool) (why : Nat) : Mach :=
  (if m.safePair (c / 2) then [c, c + 1] else [c]).foldl (fun m n =>
    (m.setFlg (DBG_CSTAT.HALTED.sh (4 * n)) 0 halted).setFld (DBG_CSTAT.WHY.sh (4 * n)) 0 why) m

def Mach.coreHalted (m : Mach) (c : Nat) : Bool := m.flg (DBG_CSTAT.HALTED.sh (4 * c)) 0

/-- A halt asked for is completed once the store buffer has drained: every unit has its result, a safe pair takes a milestone,
the reservation clears, the watchdogs freeze (R503, R446). -/
def Mach.haltTry (m : Mach) (c : Nat) : Mach :=
  let p := c / 2
  let r := m.reed c
  match r.haltReq with
  | none => m
  | some why =>
    if !r.sb.isEmpty || m.pState p ≠ 0 then m
    else
      let m := m.setReed c { r with haltReq := none, resv := none, wfe := false, fenced := false, core := { r.core with busy := 0 } }
      let m := if m.safePair p then m.msTake p else m
      let m := m.setCstat c true why
      if (m.coresOf p).all (fun n => m.coreHalted n) then
        let m := m.setPState p 3
        let m := if m.safePair p && !m.inField then m.wdFreeze p else m
        m.dwdFollow
      else m

/-- A halt of core `c` is asked for, for reason `why`. -/
def Mach.haltAsk (m : Mach) (c why : Nat) (link : Bool) : Mach :=
  let r := m.reed c
  if m.coreHalted c then m else (m.setReed c { r with haltReq := some why, link := link }).haltTry c

/-- A halted core is released (R509): a safe pair takes a milestone, a frozen watchdog restarts, and a WDWARN pending then is
discarded (R446). -/
def Mach.coreResume (m : Mach) (c : Nat) : Mach :=
  let p := c / 2
  let r := m.reed c
  if !m.coreHalted c then m.setReed c { r with haltReq := none }
  else
    let m := (m.setCstat c false 0).setReed c { r with link := false, past := true }
    if m.pState p ≠ 3 then m
    else
      let frozen := (m.wd p).frozen.isSome
      let m := (m.setPState p 0).wdThaw p
      let m := if frozen then m.setReed c { m.reed c with wdwarn := false } else m
      let m := if m.safePair p then m.msTake p else m
      m.dwdFollow

/-! ### The pair loader (R486) -/

/-- Pair `p` starts at 0x0000_0000: safe at HS with EM = 1, split at GS with the boundaries House firmware set (R379, R418). -/
def Mach.pairStart (m : Mach) (p : Nat) : Mach :=
  let m := (m.setPState p 0).setFld (SYS_PFW_ST.PST.sh (8 * p)) 0 4
  let m := m.setPair p { m.pair p with testFrom := m.now, msFrom := m.now }
  if m.safePair p then
    let m := m.msTake p
    if m.wdEn p then m.wdStart p else m
  else [2 * p, 2 * p + 1].foldl (fun m c =>
    let m := (m.raise ST.WORLD c).raise COREID.SPLIT c
    ((m.setFld TCM_GB.OFS c 0).setFld SRAM_GB.OFS c (m.fld SYS_PAIR_SGB.OFS p)).setFld DRAM_GB.OFS c (m.fld SYS_PAIR_DGB.OFS p)) m

/-- The loader of pair `p` starts once its wipe has completed: it latches the record; without one the pair is HELD. -/
def Mach.loaderStart (m : Mach) (p : Nat) : Mach :=
  let d := m.pair p
  if !d.start || p ∈ m.power.wipes || !m.pdOn (5 + p) then m
  else
    let a := m.fld (SYS_PFW.ADDR.sh (8 * p)) 0
    let st := (m.rg ((SYS_PFW_ST.VALID.sh (8 * p)).addr 0)).toNat
    if bitOf st 31 then
      let h := SMap.get (fun _ => []) m.secure.hashes p
      (m.setPair p { d with start := false, loading := true, pfw := a, pfwSt := st, hash := h, loadAt := m.now }).setFld
        (SYS_PFW_ST.PST.sh (8 * p)) 0 2
    else ((m.setPair p { d with start := false }).setPState p 5).setFld (SYS_PFW_ST.PST.sh (8 * p)) 0 5

/-- SYS_PFW_ST.PST of pair `p`: the self-tests of a running loader take 250 µs, then it copies (R486). -/
def Mach.pst (m : Mach) (p : Nat) : Nat :=
  let d := m.pair p
  if d.loading && d.loadAt + 4000000 ≤ m.now then 3 else m.fld (SYS_PFW_ST.PST.sh (8 * p)) 0

/-- The loader of pair `p` ends: `ok` the self-tests passed; the pair starts where the hash of the copy is the latched one. -/
def Mach.loaderEnd (m : Mach) (p : Nat) (ok : Bool) : Mach :=
  let d := m.pair p
  if !d.loading then m
  else
    let m := m.setPair p { d with loading := false }
    let len := 16 * (d.pfwSt % 2 ^ 15)
    let (bytes, m) := m.load (2 * p) d.pfw len
    match ok && (m.bufKey d.pfw len).isSome && bytes.map Config.sha384 = some d.hash, bytes with
    | true, some bs => ((m.coresOf p).foldl (fun m c => m.poke (tcmKey c) bs) m).pairStart p
    | _, _ => (m.setPState p 5).setFld (SYS_PFW_ST.PST.sh (8 * p)) 0 5

/-! ### Registers of a pair (R415 to R418) -/

/-- A write of SYS_PAIR_CMD: RESTART leaves HELD, RESET resets the pair. -/
def Mach.pairCmdWrite (m : Mach) (p : Nat) (v : W32) : Mach :=
  match SYS_PAIR_CMD.CMD.of v with
  | 1 =>
    if m.pState p = 5 && m.pdOn (5 + p) then (m.setPState p 4).setPair p { m.pair p with start := true } else m
  | 2 => m.pairReset p false
  | 3 => m.raise SYS_PAIR_STAT.RSVW p
  | _ => m

/-- A write of SYS_PAIR_CTRL: SPLIT while LOCK is 0; P0 never splits. -/
def Mach.pairCtrlWrite (m : Mach) (p : Nat) (v : W32) : Mach :=
  if m.flg SYS_PAIR_CTRL.LOCK p then m
  else
    let split := SYS_PAIR_CTRL.SPLIT.of v = 1
    let m := m.setFlg SYS_PAIR_CTRL.SPLIT p (split && p ≠ 0)
    (m.raiseIf (split && p = 0) SYS_PAIR_STAT.RSVW p).raiseIf (SYS_PAIR_CTRL.LOCK.of v = 1) SYS_PAIR_CTRL.LOCK p

/-- A write of SYS_PAIR_SGB or SYS_PAIR_DGB, in RESET or HELD only. -/
def Mach.pairGbWrite (m : Mach) (p : Nat) (f : Fld) (size : Nat) (v : W32) : Mach :=
  if m.pState p ≠ 4 && m.pState p ≠ 5 then m.raise SYS_PAIR_STAT.RSVW p
  else (m.setFld f p (f.of v)).raiseIf (size < f.of v * 64) SYS_PAIR_STAT.RSVW p

/-- A write to a register of pair `p` at offset `o`; `cfg`: by a requester of R272. -/
def Mach.pairWrite (m : Mach) (cfg : Bool) (p o : Nat) (v : W32) : Mach :=
  if o = 4 then m.setRg (Blk.base .pair p + 4) (m.rg (Blk.base .pair p + 4) &&& ~~~(v &&& 0x08000001))
  else if o ≠ 0 && o ≠ 8 && o ≠ 0x1C && o ≠ 0x20 then m
  else if !cfg then m.raise SYS_PAIR_STAT.RSVW p
  else if o = 0 then m.pairCtrlWrite p v
  else if o = 8 then m.pairCmdWrite p v
  else if o = 0x1C then m.pairGbWrite p SYS_PAIR_SGB.OFS 0x1000000 v
  else m.pairGbWrite p SYS_PAIR_DGB.OFS 0x80000000 v

end Sys2Proof.Machine
end

