-- ==== Sys2Proof/Machine/Power.lean ====
section
/-! DEFINITION. Supplies, clock, power domains and reset classes (R457 to R475), memory wipes and the scrubber (R427, R433,
R434). -/

namespace Sys2Proof.Machine

/-! ### Cold and warm reset (R470 to R472) -/

/-- The words a warm reset keeps (R435, R445). -/
def warmWords : List Nat :=
  [SYS_MEM_CECNT.TCM.addr 0, SYS_MEM_UECNT.TCM.addr 0, SYS_MEM_EADDR.ADDR.addr 0, SYS_MEM_ESRC.SRC.addr 0, SYS_MEM_ESTAMP.STAMP.addr 0,
    SYS_MEM_ESTAMP.STAMP.addr 0 + 4, SUP_FSTAT.FAULT.addr 0] ++ (List.range 9).map (fun w => (wdFld SUP_PWD_STAT.RUN SUP_DWD_STAT.RUN w).addr 0)

/-- The reset of the part (R472): every register and every unit at its reset value, every domain on, the wipes started. A warm
reset keeps the retention store and the words named to survive it. What stands outside the part stays: fuses, straps, levels at
the balls, host memory, flash, what was sent. -/
def Mach.partReset (m : Mach) (warm : Bool) (cause : Nat) : Mach :=
  let fuses := m.rg (SYS_LC_STAT.STATE.addr 0) &&& 0x0001FF07
  let floors := m.rg (SYS_LC_FLOOR.IMG.addr 0)
  let (f, m) := m.drawMany 8
  let r := { Mach.reset with
    fresh := m.fresh, held := m.held, host := m.host, flash := m.flash, msix := m.msix, sent := m.sent,
    stos := SMap.mapV (fun _ => {}) m.stos (fun d => { d with since0 := 0, since1 := 0, differ := none }),
    sup := { lvl := m.sup.lvl, warms := if warm then m.sup.warms + 1 else 0 },
    secure := { keys := m.secure.keys, straps := m.secure.straps },
    power := { straps := m.power.straps, loLoss := m.power.loLoss },
    dbg := { ir := m.dbg.ir, cells := m.dbg.cells },
    ret := if warm then m.ret else [] }
  let r := (r.setRg (SYS_LC_STAT.STATE.addr 0) fuses).setRg (SYS_LC_FLOOR.IMG.addr 0) floors
  let r := (List.range 8).foldl (fun r i => r.setRg (DBG_NONCE.V.addr 0 + 4 * i) (BitVec.ofNat 32 (f i))) r
  let r := if warm then
      let r := warmWords.foldl (fun r a => r.setRg a (m.rg a)) r
      let r := (List.range 9).foldl (fun r w => (r.setFld (wdFld SUP_PWD_STAT.RUN SUP_DWD_STAT.RUN w) 0 0).setFld
        (wdFld SUP_PWD_STAT.FROZEN SUP_DWD_STAT.FROZEN w) 0 0) r
      let r := (r.setFld SUP_LO_STAT.SRC 0 (m.fld SUP_LO_STAT.SRC 0)).raise SUP_FSTAT.BOOT 0
      ((r.setFld SYS_RST_STAT.WARMS 0 (min r.sup.warms 65535)).setFld SYS_RST_STAT.RSVW 0 (m.fld SYS_RST_STAT.RSVW 0)).raise
        SYS_RST_STAT.CLASS 0
    else r
  (((r.setFld SYS_RST_STAT.CAUSE 0 cause).setFld SYS_BOOT_STAT.MODE 0 r.secure.straps).refreshFault).recEvaluate

/-- The straps are sampled at the release of a cold reset (R476): a high MODE3 is treated as low. -/
def Mach.sampleStraps (m : Mach) : Mach :=
  { m with secure := { m.secure with straps := m.power.straps % 8 } }.setFld SYS_BOOT_STAT.MODE 0 (m.power.straps % 8)

def Mach.coldReset (m : Mach) (cause : Nat) : Mach :=
  let m := { m with power := { m.power with loLoss := false } }
  let m := m.partReset false cause
  if m.outOfReset then m.sampleStraps else m

def Mach.warmReset (m : Mach) (cause : Nat) : Mach := m.partReset true cause

/-- RSTOUT_N (R460, R472): low from the start of a cold or warm reset until the on-die wipes complete and the boot ROM starts. -/
def Mach.rstoutN (m : Mach) : Bool := m.outOfReset && !m.flg SYS_MEM_STAT.WIPE_ONDIE 0

/-- TB_MARK (R460): high for 4 tk from every tick count that is a multiple of 250,000; none in reset. -/
def Mach.tbMark (m : Mach) : Option Bool :=
  if !m.outOfReset then none
  else some ((m.flg TB_STATUS.LOCK 0 || m.flg SYS_CLK_STAT.HOLD 0) && m.tick % 250000 < 4)

/-- A condition `c` holds the part in cold reset (R458, R460, R492). -/
def Mach.holdReset (m : Mach) (c : Nat) : Mach :=
  { m with held := c :: m.held.filter (fun d => d ≠ c) }.coldReset c

/-- Conditions that held the part in cold reset end; the last one releases it. -/
def Mach.releaseReset (m : Mach) (p : Nat → Bool) : Mach :=
  let held := m.held.filter (fun c => !p c)
  if m.held.isEmpty then m
  else
    let m := { m with held := held }
    if held.isEmpty then m.sampleStraps else m

/-- A rail leaves its range or PWR_OK goes low (R458, R459): the part is held as in a cold reset from then on. -/
def Mach.supplyLoss (m : Mach) : Mach :=
  { m with held := 0 :: m.held.filter (fun d => d ≠ 0), power := { m.power with loLoss := m.loActive && m.outOfReset } }

/-- Every rail in range, PWR_OK and RESET_N high for 1 ms, with the straps as they stand (R458). -/
def Mach.powerGood (m : Mach) (straps : Nat) : Mach :=
  let m := { m with power := { m.power with straps := straps } }
  let m := if 0 ∈ m.held then m.coldReset 0 else m
  m.releaseReset (fun c => c ≤ 1)

/-- RESET_N low for 1 µs or more (R460). -/
def Mach.resetN (m : Mach) : Mach := m.holdReset 1

/-- TEST_EN reads high, or low again (R460). -/
def Mach.testEn (m : Mach) (low : Bool) : Mach := if low then m.releaseReset (fun c => c = 2) else m.holdReset 2

/-- VCORE returns to its range (R471): `kept`: VBAT stayed in range and RESET_N high from the loss on. -/
def Mach.vcoreReturn (m : Mach) (kept : Bool) : Mach :=
  if ¬ 0 ∈ m.held then m
  else if kept && m.power.loLoss && m.held = [0] then
    { m with held := [], power := { m.power with loLoss := false } }.warmReset 6
  else (m.coldReset 0).releaseReset (fun c => c = 0)

/-- A write of SYS_RST_CMD by a requester of R272 (R475). -/
def Mach.rstCmdWrite (m : Mach) (v : W32) : Mach :=
  if SYS_RST_CMD.CMD.of v = 1 ∧ SYS_RST_CMD.KEY.of v = 0x5752 then m.warmReset 5 else m.raise SYS_RST_STAT.RSVW 0

/-- The grace after a device-watchdog expiry ends (R444): a warm reset when every stop that last orders started reads STOPPED, or
when GRACE ms have passed; with a GRACE of 0, when the record is committed. -/
def Mach.graceEnd (m : Mach) : Mach :=
  match m.sup.grace with
  | none => m
  | some t =>
    let stopped := m.sup.stops.all (fun x => m.fld AX_LIM_STAT.PHASE x = 4)
    if t = 0 then (if m.sup.rec_.isSome then m else m.warmReset 4)
    else if stopped then m.warmReset 4
    else (m.until t).warmReset 4

/-! ### The timebase (R461 to R463) -/

/-- The PLL locks after a reset: the tick counter starts at 0 (R34, R461). -/
def Mach.lock (m : Mach) : Mach :=
  if m.flg TB_STATUS.LOCK 0 || m.flg SYS_CLK_STAT.HOLD 0 then m
  else
    let m := { m with now := 0, sup := { m.sup with snapFrom := 0 } }
    (m.raise TB_STATUS.LOCK 0).stoRestart 0

/-- The first vernier calibration completes (R461). -/
def Mach.vernierCal (m : Mach) : Mach :=
  if m.flg TB_STATUS.LOCK 0 || m.flg SYS_CLK_STAT.HOLD 0 then m.raise TB_STATUS.VN_CAL 0 else m

/-- Lock is lost (R462): the counter goes on in holdover, and the timers of enabled slices are shuttered with cause TB. -/
def Mach.lockLoss (m : Mach) : Mach :=
  if !m.flg TB_STATUS.LOCK 0 && !m.flg SYS_CLK_STAT.HOLD 0 then m
  else
    let m := ((m.setFld TB_STATUS.LOCK 0 0).raise SYS_CLK_STAT.HOLD 0).raise SYS_CLK_STAT.LOST 0
    let m := m.countSat SYS_CLK_STAT.LOSSES 0
    (List.range 72).foldl (fun m x => if m.liveSlice x then m.shutter x 10 m.now else m) m

/-- The PLL has relocked in frequency (R463). -/
def Mach.relock (m : Mach) : Mach :=
  if m.flg SYS_CLK_STAT.HOLD 0 then (m.raise TB_STATUS.LOCK 0).setFld SYS_CLK_STAT.HOLD 0 0 else m

/-! ### Power domains (R464 to R467) -/

/-- Whether a domain cannot be switched off. -/
def fixedDomain (d : Nat) : Bool := d < 6

/-- Slices of loop quadrant `q`. -/
def quadSlices (q : Nat) : List Nat := (List.range 16).map (fun i => 16 * q + i) ++ [64 + 2 * q, 65 + 2 * q]

/-- Whether a debug halt is in force or a session is open. -/
def Mach.debugging (m : Mach) : Bool :=
  m.flg DBG_SESS.ACTIVE 0 || m.flg DBG_STAT.TAPH 0 || (List.range 16).any m.coreHalted || (List.range 72).any (fun x => (m.slice x).halted)

/-- Whether an enabled queue has its ring or write-back word in [lo, hi) of device memory. -/
def Mach.ringIn (m : Mach) (lo hi : Nat) : Bool :=
  (List.range 4096).any (fun q => m.flg QM_CFG.EN q && !m.flg QM_CFG.SPACE q &&
    m.qBase q < hi && lo < m.qBase q + m.qN q * m.qESize q + (if m.flg QM_CFG.WB q then 4 else 0))

/-- Whether a switch-off of domain `d` is refused as in use (R466, R175). -/
def Mach.domainInUse (m : Mach) (d : Nat) : Bool :=
  if d < 13 then m.pState (d - 5) ≠ 4 && m.pState (d - 5) ≠ 5
  else if d < 17 then (quadSlices (d - 13)).any m.en
  else if d = 17 then
    (List.range 64).any (fun x => m.flg AX_CPL_CTRL.EN x || m.flg AX_GAN_CTRL.EN x || m.flg AX_ENV_CTRL.EN x
        || (m.liveSlice x && m.slMode x = 2))
      || (List.range 8).any (fun c => m.flg CV_BRK.EN (64 + c) && m.slMode (64 + c) ≠ 2)
  else if d < 34 then m.flg CB_CTRL.EN (d - 18)
  else if d < 38 then (List.range 64).any (fun i => m.flg CMP_CTRL.EN (64 * (d - 34) + i))
  else if d < 40 then (List.range 36).any (fun i => m.flg PP_CTRL.EN (36 * (d - 38) + i))
  else if d < 42 then m.ringIn 0x80000000 0x100000000 || (List.range 72).any (fun x => m.fld AX_TRC_CTRL.MODE x ≠ 0)
  else if d < 44 then m.ringIn (0x10000000 + 0x800000 * (d - 42)) (0x10800000 + 0x800000 * (d - 42))
  else if d = 44 then (List.range 4096).any (fun q => m.flg QM_CFG.EN q && m.flg QM_CFG.SPACE q)
  else if d = 45 then m.flg OP_ETH_CTRL.EN 0 || m.flg OP_ETH_CTRL.EN 1
  else if d = 46 then (List.range 8).any (fun f => m.flg OP_FLD_CTRL.EN f)
  else m.debugging

/-- A write of SYS_PD_CMD; `cfg`: by a requester of R272. -/
def Mach.pdCmdWrite (m : Mach) (cfg : Bool) (v : W32) : Mach :=
  let d := SYS_PD_CMD.DOMAIN.of v
  let on := SYS_PD_CMD.ON.of v = 1
  let ends (m : Mach) (st : Nat) : Mach := (m.setFld SYS_PD_RES.ST 0 st).setFld SYS_PD_RES.DOMAIN 0 d
  if !cfg then m.raise SYS_RST_STAT.RSVW 0
  else if SYS_PD_CMD.GO.of v = 0 then m
  else if m.power.switch.isSome then ends m 3
  else if 48 ≤ d then ends m 4
  else if !on && fixedDomain d then ends m 2
  else if !on && m.pdOn d && m.domainInUse d then ends m 1
  else if on = m.pdOn d then ends m 0
  else (ends { m with power := { m.power with switch := some (d, on) } } 0).raise SYS_PD_RES.BUSY 0

/-- The words from `lo` to `hi` that are no configuration read their reset values (R465). -/
def Mach.coldStatus (m : Mach) (lo hi : Nat) : Mach :=
  m.regs.foldl (fun m e =>
    if e.1 < lo || hi ≤ e.1 then m
    else
      match cardAt e.1 with
      | none => m
      | some c =>
        let keep := if c.staged then 0xFFFFFFFF else c.rw ||| c.w1s
        m.setRg e.1 ((e.2 &&& keep) ||| (resetWord e.1 &&& ~~~keep))) m

/-- Bytes of device memory from `lo` to `hi` (with `die`: of that DRAM die only, R420) read 0 with good check bits. -/
def Mach.wipeRange (m : Mach) (lo hi : Nat) (die : Option Nat) : Mach :=
  let hit (k : Nat) : Bool := lo ≤ k && k < hi && (match die with
    | none => true
    | some d => k / 64 % 2 = d)
  { m with mem := m.mem.filter (fun e => !hit e.1), ecc := m.ecc.filter (fun e => !hit (8 * e.1)) }

/-- The register blocks of a domain, by address. -/
def domainWords (d : Nat) : List (Nat × Nat) :=
  if d < 5 then []
  else if d < 13 then [(Blk.base .pair (d - 5), 0x40)]
  else if d < 17 then (quadSlices (d - 13)).map (fun x => (Blk.base .sl x, 0x10000))
  else if d = 17 then (List.range 64).map (fun x => (AX_CPL_STAT.GAN_ON.addr x, 0x20))
  else if d < 34 then [(Blk.base .bank (d - 18), 0x1000)]
  else if d < 38 then [(Blk.base .cmp (64 * (d - 34)), 0x4000)]
  else if d < 40 then [(Blk.base .port (36 * (d - 38)), 36 * 0x400)]
  else if d < 44 then []
  else if d = 44 then [(Blk.base .pcie 0, 0x100)]
  else if d = 45 then [(Blk.base .eth 0, 0x2000)]
  else if d = 46 then [(Blk.base .fld 0, 0x800)]
  else [(Blk.base .dbg 0, 0x200)]

/-- The status and result words of a domain read their cold reset values (R465). -/
def Mach.coldDomain (m : Mach) (d : Nat) : Mach := (domainWords d).foldl (fun m r => m.coldStatus r.1 (r.1 + r.2)) m

/-- What a domain's blocks are after it was switched on: their internal state at reset, a memory wiped (R465, R467). -/
def Mach.domainFresh (m : Mach) (d : Nat) : Mach :=
  let m := m.coldDomain d
  if d < 5 then m
  else if d < 13 then m.pairReset (d - 5) true
  else if d < 17 then (quadSlices (d - 13)).foldl (fun m x =>
    let m := (m.setFlg AX_GT_STAT.RUN x (m.flg TB_PG_STAT.RUN (m.pgOf x))).setFlg AX_GT_STAT.STO x (m.stoOn x)
    { m with slices := SMap.drop m.slices x, timers := SMap.drop m.timers x, stages := SMap.drop m.stages x }) m
  else if d = 17 then { m with slices := SMap.mapV (fun _ => {}) m.slices (fun s =>
    { s with cpl := {}, yawI := {}, yawHigh := false, sepOld := none }) }
  else if d < 34 then
    let b := d - 18
    { m with banks := SMap.drop m.banks b, slots := SMap.clear m.slots (16 * b) (16 * b + 16), cells := SMap.clear m.cells (16 * b) (16 * b + 16) }
  else if d < 38 then { m with cmps := SMap.clear m.cmps (64 * (d - 34)) (64 * (d - 33)) }
  else if d < 40 then { m with ports := SMap.clear m.ports (36 * (d - 38)) (36 * (d - 37)) }
  else if d < 42 then (m.wipeRange 0x80000000 0x100000000 (some (d - 40))).wipeStart (12 + (d - 40))
  else if d < 44 then (m.wipeRange (0x10000000 + 0x800000 * (d - 42)) (0x10800000 + 0x800000 * (d - 42)) none).wipeStart (10 + (d - 42))
  else if d = 45 then { m with eths := [], tunnel := [] }
  else if d = 46 then { m with tecs := [], des := [] }
  else if d = 47 then { m with dbg := {} }
  else m

/-- A domain switch completes (R467). -/
def Mach.pdComplete (m : Mach) : Mach :=
  match m.power.switch with
  | none => m
  | some (d, on) =>
    let m := { m with power := { m.power with switch := none } }.setFld SYS_PD_RES.BUSY 0 0
    let bits := m.fld SYS_PD_STAT.ON 0
    let m := m.setFld SYS_PD_STAT.ON 0 (putBits bits d d (bit on))
    if on then m.domainFresh d
    else
      let m := (if d = 44 then m.pcieDown else m).coldDomain d
      if 13 ≤ d ∧ d < 17 then (quadSlices (d - 13)).foldl (fun m x => m.driveAll x m.now) m else m

/-! ### Adaptive voltage (R468, R469) -/

/-- The refresh of the measured step time. -/
def Mach.avsRefresh (m : Mach) (step : Nat) : Mach :=
  let m := m.until ((m.now / 4096000 + 1) * 4096000)
  let m := (m.setFld SYS_AVS_STEP.STEP 0 step).setFld SYS_AVS_STEP.MAX 0 (max step (m.fld SYS_AVS_STEP.MAX 0))
  let m := { m with power := { m.power with avsUp := m.fld SYS_AVS_CTRL.STHI 0 < step, avsDn := step < m.fld SYS_AVS_CTRL.STLO 0 } }
  m.raiseIf (710 < step) SYS_AVS_STEP.SLOW 0

/-- AVS_UP on GPIO0 (R469): none while the ball is not taken for it. -/
def Mach.avsUp (m : Mach) : Option Bool := if m.outOfReset && m.flg SYS_AVS_CTRL.OUT 0 then some m.power.avsUp else none
/-- AVS_DN on GPIO1 (R469). -/
def Mach.avsDn (m : Mach) : Option Bool := if m.outOfReset && m.flg SYS_AVS_CTRL.OUT 0 then some m.power.avsDn else none

/-- A write of SYS_AVS_CTRL: STLO ≥ STHI makes both take their reset values. -/
def Mach.avsCtrlWrite (m : Mach) (v : W32) : Mach :=
  let bad := SYS_AVS_CTRL.STHI.of v ≤ SYS_AVS_CTRL.STLO.of v
  let m := m.setFld SYS_AVS_CTRL.OUT 0 (SYS_AVS_CTRL.OUT.of v)
  let m := (m.setFld SYS_AVS_CTRL.STHI 0 (if bad then 0x280 else SYS_AVS_CTRL.STHI.of v)).setFld SYS_AVS_CTRL.STLO 0
    (if bad then 0x230 else SYS_AVS_CTRL.STLO.of v)
  m.raiseIf bad SYS_AVS_STEP.RSVW 0

/-- A write to a register of the power, reset and clock group at offset `o`; `cfg`: by a requester of R272. -/
def Mach.pwrWrite (m : Mach) (cfg : Bool) (o : Nat) (v : W32) : Mach :=
  let a := Blk.base .pwr 0 + o
  if o = 8 then m.pdCmdWrite cfg v
  else if o = 0x10 then (if cfg then m.rstCmdWrite v else m.raise SYS_RST_STAT.RSVW 0)
  else if o = 0x14 then m.setRg a (m.rg a &&& ~~~(v &&& 0x10000))
  else if o = 0x18 then m.setRg a (m.rg a &&& ~~~(v &&& 0x40000000))
  else if o = 0x20 then (if cfg then m.avsCtrlWrite v else m.raise SYS_RST_STAT.RSVW 0)
  else if o = 0x24 then m.setRg a (m.rg a &&& ~~~(v &&& 0xC0000000))
  else m

/-! ### Wipes and the scrubber (R427, R433, R434) -/

/-- Wipe `w` completes. -/
def Mach.wipeComplete (m : Mach) (w : Nat) : Mach :=
  if ¬ w ∈ m.power.wipes then m
  else
    let m := { m with power := { m.power with wipes := m.power.wipes.filter (fun v => v ≠ w) } }
    if w < 8 then
      let m := m.setFld SYS_MEM_STAT.WIPE_PAIR 0 (putBits (m.fld SYS_MEM_STAT.WIPE_PAIR 0) w w 0)
      if m.pState w = 5 then m.setFld (SYS_PFW_ST.PST.sh (8 * w)) 0 0 else m
    else if w = 8 then m.setFld SYS_MEM_STAT.WIPE_ONDIE 0 0
    else if w = 9 then m.setFld SYS_MEM_STAT.WIPE_DRAM 0 0
    else m

/-- The scrubber reads the word at memory key `k` (R427): `upset` tells what has struck the word since it was last read. -/
def Mach.scrub (m : Mach) (k : Nat) (upset : Ecc) : Mach :=
  if !m.flg SYS_MEM_CTRL.SCRUB 0 || !m.memOn k then m
  else
    let w := k / 8
    let m := match upset, SMap.get eccGood m.ecc w with
      | .good, _ => m
      | _, .bad p => { m with ecc := SMap.set eccGood m.ecc w (.bad p) }
      | e, _ => { m with ecc := SMap.set eccGood m.ecc w e }
    match SMap.get eccGood m.ecc w with
    | .good => m
    | .correctable => { m with ecc := SMap.set eccGood m.ecc w .good }.countCe (w * 8)
    | .bad p => m.reportUeKey (w * 8) 93 1 p

/-- A write of SYS_MEM_CTRL. -/
def Mach.memCtrlWrite (m : Mach) (v : W32) : Mach :=
  (m.putFlds [SYS_MEM_CTRL.SCRUB, SYS_MEM_CTRL.SINTV] 0 v).raiseIf (SYS_MEM_CTRL.SINTV.of v = 0) SYS_MEM_STAT.RSVW 0

/-- A write to a memory register at offset `o`. -/
def Mach.membWrite (m : Mach) (o : Nat) (v : W32) : Mach :=
  let a := Blk.base .memb 0 + o
  if o = 0 then m.memCtrlWrite v
  else if o = 4 then m.setRg a (m.rg a &&& ~~~(v &&& 7))
  else if o = 0x28 then m.setRg a (v &&& 0x80000FFF)
  else m

end Sys2Proof.Machine
end

