-- ==== Sys2Proof/Machine/Microcode.lean ====
section
/-! DEFINITION. The Tapster: contexts, replies (R247 to R249), holds (R252), the microcode stores, patch containers, loads and
swaps (R299 to R317). -/

namespace Sys2Proof.Machine

/-! ### Contexts -/

def Mach.ctx (m : Mach) (i : Nat) : Option Ctx := SMap.get (fun _ => none) m.tap.ctxs i
def noBank (_ : Nat) : MBank := {}
def Mach.mbank (m : Mach) (b : Bool) : MBank := SMap.get noBank m.tap.banks (bit b)

/-- The active bank. -/
def Mach.mcActive (m : Mach) : Bool := m.flg TAP_MC_STAT.BANK 0

/-- TAP_MC_STAT, TAP_MC_VER and TAP_CSTAT show where the Tapster stands. -/
def Mach.tapShow (m : Mach) : Mach :=
  let cs := m.tap.ctxs.filterMap (fun e => e.2.map (fun c => (e.1, c)))
  let b := m.mcActive
  let m := m.setFld TAP_MC_STAT.OLDCTX 0 (cs.filter (fun e => e.1 < 256 && e.2.bank ≠ b)).length
  let m := (m.setFld TAP_CSTAT.INFLIGHT 0 (cs.filter (fun e => e.1 < 256 && !e.2.final)).length).setFld TAP_CSTAT.HELD 0 m.tap.replies.length
  let m := m.setFlg TAP_MC_STAT.IVALID 0 (m.mbank (!b)).valid
  (m.setFld TAP_MC_VER.ACT 0 (m.mbank b).version).setFld TAP_MC_VER.INACT 0 (if (m.mbank (!b)).valid then (m.mbank (!b)).version else 0)

def Mach.setCtx (m : Mach) (i : Nat) (c : Option Ctx) : Mach :=
  { m with tap := { m.tap with ctxs := SMap.set (fun _ => none) m.tap.ctxs i c } }.tapShow

def Mach.setMbank (m : Mach) (b : Bool) (d : MBank) : Mach :=
  { m with tap := { m.tap with banks := SMap.set noBank m.tap.banks (bit b) d } }.tapShow

/-- The other fields of a header (R243). -/
def Ctx.plen (c : Ctx) : Nat := min (bitsOf c.head 27 22) 56
def Ctx.ack (c : Ctx) : Nat := bitsOf c.head 29 28
def Ctx.fence (c : Ctx) : Nat := bitsOf c.head 31 30
def Ctx.tag (c : Ctx) : Nat := bitsOf c.head 47 32
def Ctx.barrier (c : Ctx) : Bool := bitOf c.head 49

/-- Parameter bytes `o` to `o + n` as a number (R244). -/
def Ctx.param (c : Ctx) (o n : Nat) : Nat :=
  natOfBytes (((c.pkt.drop 2).flatMap (bytesOfNat 4)).drop o |>.take n)

/-! ### Replies (R247 to R249) -/

/-- Appends a reply to its queue, with RLOST after a loss. -/
def Mach.replyAppend (m : Mach) (rq : Nat) (bytes : List Byte) : Mach :=
  let lost : Bool := rq ∈ m.tap.rlost
  let m := m.append rq (if lost then bytes.set 7 (bytes.getD 7 0 ||| 8) else bytes)
  { m with tap := { m.tap with rlost := m.tap.rlost.filter (fun r => r ≠ rq) } }

/-- A reply is dropped. -/
def Mach.replyDrop (m : Mach) (rq : Nat) : Mach :=
  ({ m with tap := { m.tap with rlost := rq :: m.tap.rlost.filter (fun r => r ≠ rq) } }).raise TAP_CSTAT.RDROP 0

/-- A reply for the reply queue of `q`: appended, held behind a full or disabled queue, or dropped: with 256 held, and towards a
host whose link is down (R283). -/
def Mach.replyTo (m : Mach) (q : Nat) (bytes : List Byte) : Mach :=
  let rq := m.fld QM_LINK.RQ q
  if m.flg QM_CFG.SPACE rq ∧ ¬ m.flg OP_PCIE_STAT.UP 0 then m.replyDrop rq
  else if m.outReady rq 1 ∧ ¬ m.tap.replies.any (fun r => r.1 = rq) then m.replyAppend rq bytes
  else if m.tap.replies.length < 256 then
    { m with tap := { m.tap with replies := m.tap.replies ++ [(rq, bytes)] } }.tapShow
  else m.replyDrop rq

/-- The oldest held reply whose queue has room is posted. -/
def Mach.heldPost (m : Mach) : Mach :=
  match m.tap.replies.findIdx? (fun r => m.outReady r.1 1 || (m.flg QM_CFG.SPACE r.1 && !m.flg OP_PCIE_STAT.UP 0)) with
  | none => m
  | some i =>
    let r := m.tap.replies.getD i (0, [])
    let m := { m with tap := { m.tap with replies := m.tap.replies.eraseIdx i } }.tapShow
    if m.outReady r.1 1 then m.replyAppend r.1 r.2 else m.replyDrop r.1

/-- A reply's bytes: `res` is RESULT (R247). -/
def Ctx.reply (c : Ctx) (status detail : Nat) (final : Bool) (res : List Byte) : List Byte :=
  bytesOfNat 2 c.tag ++ bytesOfNat 2 c.op ++ bytesOfNat 2 (c.target + 1024 * detail) ++ bytesOfNat 1 status
    ++ bytesOfNat 1 (bit final + 2 * bit c.rsvw + 4 * bit c.holdTmo) ++ bytesOfNat 8 c.afstamp ++ (res ++ List.replicate 16 0).take 16

/-- The command of context `i` posts ACCEPTED under ACK, with DETAIL and RESULT of its reply buffer (R249, R305). -/
def Mach.acceptWith (m : Mach) (i detail : Nat) (res : List Byte) : Mach :=
  match m.ctx i with
  | none => m
  | some c =>
    let m := m.setCtx i (some { c with accepted := true })
    if i < 256 && c.ack % 2 = 1 then m.replyTo c.q (c.reply 1 detail false res) else m

/-- The command of context `i` sends ACCEPTED, once, under ACK (R249). -/
def Mach.accept (m : Mach) (i : Nat) : Mach :=
  match m.ctx i with
  | none => m
  | some c =>
    if c.accepted || c.final then m
    else
      let m := m.setCtx i (some { c with accepted := true })
      if c.ack % 2 = 1 then m.replyTo c.q (c.reply 1 0 false []) else m

/-- The command of context `i` becomes final (R248, R249); a context that runs no micro-words ends with it. -/
def Mach.finish (m : Mach) (i status detail : Nat) (res : List Byte) : Mach :=
  match m.ctx i with
  | none => m
  | some c =>
    if c.final then m
    else
      let m := if 256 ≤ i then m
        else if 0x10 ≤ status || 2 ≤ c.ack then m.replyTo c.q (c.reply status detail true res) else m
      m.setCtx i (if c.micro then some { c with final := true } else none)

/-- DONE: ACCEPTED and the final reply fall due together (R249). -/
def Mach.done (m : Mach) (i : Nat) (res : List Byte) : Mach := (m.accept i).finish i 0 0 res

/-- BAD_PARAM with DETAIL; DETAIL 63 with the block's code in RESULT byte 24 (R248). -/
def Mach.badParam (m : Mach) (i detail : Nat) : Mach := m.finish i 0x12 detail []
def Mach.refusedBy (m : Mach) (i code : Nat) : Mach := m.finish i 0x12 63 (bytesOfNat 8 0 ++ bytesOfNat 1 code)

/-- EVSTAMP and the bytes from 24 on (R247). -/
def evBytes (stamp : Nat) (rest : List Byte) : List Byte := bytesOfNat 8 stamp ++ rest

/-- Sets AFSTAMP. -/
def Mach.setAf (m : Mach) (i stamp : Nat) : Mach :=
  match m.ctx i with
  | none => m
  | some c => m.setCtx i (some { c with afstamp := stamp })

/-! ### Holds of the Tapster (R252) -/

def Mach.tapHold (m : Mach) (g : Nat) : Option Stamp := SMap.get (fun _ => none) m.tap.holds g
def Mach.setTapHold (m : Mach) (g : Nat) (h : Option Stamp) : Mach :=
  { m with tap := { m.tap with holds := SMap.set (fun _ => none) m.tap.holds g h } }

/-- Every context, changed. -/
def Mach.mapCtx (m : Mach) (f : Nat → Ctx → Ctx) : Mach :=
  { m with tap := { m.tap with ctxs := m.tap.ctxs.map (fun e => (e.1, e.2.map (f e.1))) } }

/-- Whether the group command `c` closed still waits for its apply fence. -/
def Mach.awaitsApply (m : Mach) (c : Ctx) : Bool := c.closed && !c.final && c.target < 72 && (m.stage c.target).gen < c.gen

/-- Fence HOLD: APPLY_HOLD is set where it reads 0, and the Tapster becomes the holder; groups of the period group closed before are
held with it. -/
def Mach.holdTake (m : Mach) (g : Nat) : Mach :=
  if m.flg TB_PG_CTRL.APPLY_HOLD g then m
  else ((m.raise TB_PG_CTRL.APPLY_HOLD g).setTapHold g (some m.now)).mapCtx
    (fun _ c => if m.awaitsApply c && m.pgOf c.target = g then { c with hold := some g } else c)

/-- APPLY_HOLD clears where the Tapster is the holder: whether it was. What it held is held no more. -/
def Mach.holdFree (m : Mach) (g : Nat) : Bool × Mach :=
  match m.tapHold g with
  | none => (false, m)
  | some _ => (true, ((m.setFld TB_PG_CTRL.APPLY_HOLD g 0).setTapHold g none).mapCtx
      (fun _ c => if c.hold = some g then { c with hold := none } else c))

/-- A hold kept for 1,024 periods is released: the commands whose groups it still holds are told. -/
def Mach.holdTimeout (m : Mach) (g : Nat) : Mach :=
  match m.tapHold g with
  | none => m
  | some t =>
    let m := m.until (t + 1024 * m.pgP g * 64)
    let m := m.mapCtx (fun _ c => if c.hold = some g && m.awaitsApply c then { c with holdTmo := true } else c)
    (m.holdFree g).2.raise TAP_CSTAT.HOLDTMO 0

/-- Software wrote APPLY_HOLD: a hold it ended is no longer the Tapster's. -/
def Mach.holdWritten (m : Mach) (g : Nat) : Mach :=
  if m.flg TB_PG_CTRL.APPLY_HOLD g then m else (m.holdFree g).2

/-! ### The interlock (R25, R311) -/

/-- Context `i` takes the interlock of set `x` with its first mirror write. -/
def Mach.lockTake (m : Mach) (i x : Nat) : Mach :=
  match m.ctx i with
  | none => m
  | some c => (m.setStage x { m.stage x with tapLock := true }).setCtx i (some { c with lock := some x })

/-- The interlock of set `x` is released. -/
def Mach.lockFree (m : Mach) (x : Nat) : Mach := m.setStage x { m.stage x with tapLock := false }

/-- The interlock is released and the marks of the words written under it are cleared (R311). -/
def Mach.lockAbort (m : Mach) (c : Ctx) : Mach :=
  match c.lock with
  | none => m
  | some x =>
    let s := m.stage x
    m.setStage x { s with tapLock := false, openW := s.openW.filter (fun e => e.1 ∉ c.wrote) }

/-- Whether another context holds the interlock of set `x`, or a command of this target taken earlier has not closed yet (R250): one
that has not started, a routine of the micro-sequencer that may still stage. -/
def Mach.targetBusy (m : Mach) (i : Nat) (c : Ctx) : Bool :=
  (m.stage c.target).tapLock ||
    m.tap.ctxs.any (fun e => match e.2 with
      | some d => e.1 ≠ i && e.1 < 256 && d.target = c.target && d.taken < c.taken && !d.final
          && (!d.started || (d.micro && !d.closed) || d.lock.isSome)
      | none => false)

/-! ### Micro faults (R310) -/

/-- A micro fault of context `i` at micro address `u`. -/
def Mach.microFault (m : Mach) (i cause u : Nat) : Mach :=
  match m.ctx i with
  | none => m
  | some c =>
    let m := m.lockAbort c
    let m := ((m.setFld TAP_MC_FAULT.CAUSE 0 cause).setFld TAP_MC_FAULT.OPCODE 0 (if 256 ≤ i then 0 else c.op)).setFld
      TAP_MC_FAULT.UADDR 0 u
    let m := (m.raise TAP_MC_STAT.UFAULT 0).countSat (if 0x3000 ≤ u then TAP_MC_FCNT.GUEST else TAP_MC_FCNT.VENDOR) 0
    (m.finish i 0x3F 0 []).setCtx i none

/-! ### Patch containers (R312, R313) -/

/-- Little-endian number of `n` bytes at `o`. -/
def num (bs : List Byte) (o n : Nat) : Nat := natOfBytes (bs.drop o |>.take n)

/-- Whether bytes `o` to `o + n` are zero. -/
def zeros (bs : List Byte) (o n : Nat) : Bool := (bs.drop o |>.take n).all (· = 0)

/-- Bytes of an entry of a section by TYPE. -/
def entryLen (type : Nat) : Nat := if type = 2 then 20 else 4

/-- The sections of a payload: TYPE, first index, entries. `fuel` bounds their number. -/
def sections : Nat → List Byte → Option (List (Nat × Nat × List Nat))
  | 0, _ => none
  | fuel + 1, bs =>
    if bs.isEmpty then some []
    else
      let type := num bs 0 1
      let count := num bs 8 4
      let w := entryLen type
      let len := 16 + count * w
      if bs.length < 16 || type = 0 || 3 < type || !zeros bs 1 3 || !zeros bs 12 4 || bs.length < len then none
      else match sections fuel (bs.drop len) with
        | none => none
        | some rest => some ((type, num bs 4 4, (List.range count).map (fun i => num bs (16 + i * w) w)) :: rest)

/-- The range of a store that vendor or guest sections may write (R299). -/
def storeRange (type : Nat) (guest : Bool) : Nat × Nat :=
  match type, guest with
  | 1, false => (0, 0x3000)
  | 1, true => (0x3000, 0x4000)
  | 2, false => (0, 1536)
  | 2, true => (1536, 2048)
  | _, false => (0, 0xC00)
  | _, true => (0xC00, 0x1000)

/-- Whether an entry is allowed (R308, R312, R313). -/
def entryOk (type : Nat) (guest : Bool) (e : Nat) : Bool :=
  match type with
  | 1 => e < 2 ^ 24 && (guest || bitsOf e 20 10 < 1536)
  | 2 => true
  | _ =>
    bitsOf e 31 30 = 0 && bitsOf e 29 24 ≤ 56 && bitsOf e 23 20 = 0
      && !(guest && bitOf e 14 && !(0x3000 ≤ bitsOf e 13 0))

def sectionOk (guest : Bool) (s : Nat × Nat × List Nat) : Bool :=
  let (lo, hi) := storeRange s.1 guest
  lo ≤ s.2.1 && s.2.1 + s.2.2.length ≤ hi && s.2.2.all (entryOk s.1 guest)

/-- What an unlisted entry of a store reads as after the wipe. -/
def noWord (_ : Nat) : Nat := 0

/-- A bank with sections written into it. -/
def MBank.write (b : MBank) (ss : List (Nat × Nat × List Nat)) : MBank :=
  ss.foldl (fun b s =>
    match s.1 with
    | 1 => { b with micro := SMap.setRange noWord b.micro s.2.1 s.2.2 }
    | 2 => { b with nano := SMap.setRange noWord b.nano s.2.1 s.2.2 }
    | _ => { b with disp := SMap.setRange noWord b.disp s.2.1 s.2.2 }) b

/-- Whether `n` bytes from `a` on lie wholly in shared SRAM or wholly in DRAM. -/
def inRam (a n : Nat) : Bool :=
  (0x10000000 ≤ a && a + n ≤ 0x11000000) || (0x80000000 ≤ a && a + n ≤ 0x100000000)

/-- The secret and public keys by number: owner slots 0 to 3 are hashes, 4 is KIMG (R481, R485). -/
def Mach.fuseKey (m : Mach) (k : Nat) : List Byte := SMap.get (fun _ => []) m.secure.keys k

/-- Whether KIMG is programmed and usable: not in Return (R484). -/
def Mach.kimg (m : Mach) : Bool := m.flg SYS_LC_STAT.KIMG 0 && m.fld SYS_LC_STAT.STATE 0 ≠ 3

/-- The checks of R314 on a container of `len` bytes: LDST, and where it is 0 VERSION and the sections. -/
def Mach.container (m : Mach) (bs : List Byte) (len : Nat) : Nat × Nat × List (Nat × Nat × List Nat) :=
  let clen := num bs 12 4
  let key := num bs 9 1
  let sect := num bs 8 1
  let ver := num bs 6 2
  let guest := key = 1
  let ident := (m.rg (SYS_IDENT.PART.addr 0)).toNat / 256
  let bad (e : Nat) : Nat × Nat × List (Nat × Nat × List Nat) := (e, 0, [])
  if bs.length < 224 || num bs 0 4 ≠ 0x43504D54 || num bs 4 2 ≠ 1 || 4 ≤ sect || 2 ≤ key || !zeros bs 10 2 || clen % 4 ≠ 0
      || len ≠ 224 + clen || !zeros bs 28 4 || num bs 48 4 ≠ ident || !zeros bs 52 76 then bad 1
  else if ver / 2048 < m.fld (if guest then SYS_LC_FLOOR.MCG else SYS_LC_FLOOR.MCV) 0 then bad 7
  else if !Config.ecdsa (if guest then m.secure.pubkey else Config.salegPub) (bs.take (128 + clen)) (bs.drop (128 + clen) |>.take 96) then
    bad 2
  else
    match (if guest && !m.kimg then none else
      Config.gcm (if guest then m.fuseKey 4 else Config.salegKey) (bs.drop 16 |>.take 12) (bs.drop 32 |>.take 16)
        (bs.drop 128 |>.take clen)) with
    | none => bad 3
    | some p =>
      match sections (p.length + 1) p with
      | none => bad 4
      | some ss => if sect ≠ (if guest then 2 else 1) || !ss.all (sectionOk guest) then bad 4 else (0, ver, ss)

/-! ### Loads (R314) -/

/-- Whether any context runs in the inactive bank. -/
def Mach.oldRuns (m : Mach) : Bool := m.tap.ctxs.any (fun e => match e.2 with
  | some c => c.bank ≠ m.mcActive
  | none => false)

/-- Whether a load or a swap is in progress. -/
def Mach.mcBusy (m : Mach) : Bool := m.flg TAP_MC_STAT.LOAD 0 || m.flg TAP_MC_STAT.SWAP 0

/-- A load starts: IVALID reads 0 from here on; `swap`: a swap follows if it passes. -/
def Mach.loadStart (m : Mach) (swap : Bool) (addr len : Nat) : Mach :=
  if m.mcBusy || m.oldRuns then m.setFld TAP_MC_STAT.LDST 0 5
  else
    let b := !m.mcActive
    let m := { m with tap := { m.tap with load := some (swap, addr, len) } }.raise TAP_MC_STAT.LOAD 0
    m.setMbank b { m.mbank b with valid := false }

/-- The container at ADDR, LEN is loaded into bank `b`, over a copy of bank `src`: LDST. -/
def Mach.loadInto (m : Mach) (b : Bool) (src : MBank) (addr len : Nat) : Nat × Mach :=
  if (m.bufKey addr len).isNone then (6, m)
  else
    let (bytes, m) := m.load 16 addr len
    match bytes with
    | none => (1, m)
    | some bs =>
      let (e, ver, ss) := m.container bs len
      if e ≠ 0 then (e, m) else (0, m.setMbank b { src.write ss with version := ver, valid := true })

/-! ### Swaps (R316) -/

/-- Whether a sequence that holds up a swap runs on some axis (R213). -/
def Mach.cmHolds (m : Mach) : Bool :=
  (List.range 64).any (fun x => (m.comm x).part ≠ 0 && (m.comm x).part ≤ 3)

/-- INIT starts in a service context at micro address 0 (R315, R316). -/
def Mach.initStart (m : Mach) : Mach :=
  m.setCtx 256 (some { bank := m.mcActive, started := true, micro := true })

/-- A waiting swap goes on once no sequence runs: the inactive bank becomes active and runs its INIT. -/
def Mach.swapTry (m : Mach) : Mach :=
  if m.tap.swapFrom.isNone || m.cmHolds then m
  else
    let m := { m with tap := { m.tap with swapFrom := none } }
    ((m.setFlg TAP_MC_STAT.BANK 0 (!m.mcActive)).tapShow).initStart

/-- The MC_SWAP command that waits is answered (R317): `st` its status; RESULT as there. -/
def Mach.mcAnswer (m : Mach) (st detail : Nat) : Mach :=
  match m.tap.mc with
  | none => m
  | some i =>
    let m := { m with tap := { m.tap with mc := none } }
    let a := m.mcActive
    let res := if st = 0x12 then bytesOfNat 8 0 ++ bytesOfNat 1 (m.fld TAP_MC_STAT.LDST 0) ++ bytesOfNat 1 (m.fld TAP_MC_STAT.SWST 0)
      else bytesOfNat 2 (m.mbank (if st = 0 then !a else a)).version ++ bytesOfNat 2 (m.mbank (if st = 0 then a else !a)).version
        ++ bytesOfNat 1 (bit a)
    if st = 0 then m.done i res else m.finish i st detail res

/-- A swap is asked for; one asked for during a load or a swap is a refused write (RSVW). -/
def Mach.swapStart (m : Mach) : Mach :=
  if m.mcBusy then m.raise TAP_MC_STAT.RSVW 0
  else if !(m.mbank (!m.mcActive)).valid then (m.setFld TAP_MC_STAT.SWST 0 1).mcAnswer 0x12 63
  else ({ m with tap := { m.tap with swapFrom := some m.now } }.raise TAP_MC_STAT.SWAP 0).swapTry

/-- A load ends (R314); a swap that was asked for with it follows. -/
def Mach.loadEnd (m : Mach) : Mach :=
  match m.tap.load with
  | none => m
  | some (swap, addr, len) =>
    let b := !m.mcActive
    let (e, m) := m.loadInto b (m.mbank (!b)) addr len
    let m := ({ m with tap := { m.tap with load := none } }.setFld TAP_MC_STAT.LOAD 0 0).setFld TAP_MC_STAT.LDST 0 e
    if e = 0 then (if swap then m.swapStart else m) else m.mcAnswer 0x12 63

/-- A swap that has waited 1 s for commissioning is refused (R316). -/
def Mach.swapBlocked (m : Mach) : Mach :=
  match m.tap.swapFrom with
  | none => m
  | some t =>
    let m := m.until (t + 16000000000)
    let m := { m with tap := { m.tap with swapFrom := none } }
    ((m.setFld TAP_MC_STAT.SWAP 0 0).setFld TAP_MC_STAT.SWST 0 2).mcAnswer 0x12 63

/-- INIT of the active bank ends, without a fault or with one (R315, R316). -/
def Mach.initEnd (m : Mach) (ok : Bool) : Mach :=
  match m.ctx 256 with
  | none => m
  | some _ =>
    let m := m.setCtx 256 none
    if m.flg TAP_MC_STAT.SWAP 0 then
      let m := m.setFld TAP_MC_STAT.SWAP 0 0
      if ok then ((m.raise TAP_MC_STAT.READY 0).setFld TAP_MC_STAT.SWST 0 0).mcAnswer 0 0
      else (((m.setFlg TAP_MC_STAT.BANK 0 (!m.mcActive)).setFld TAP_MC_STAT.SWST 0 3).tapShow).mcAnswer 0x3F 0
    else if ok then m.raise TAP_MC_STAT.READY 0
    else m

/-- A write of TAP_MC_CMD by a requester of R272. -/
def Mach.mcCmdWrite (m : Mach) (v : W32) : Mach :=
  match TAP_MC_CMD.CMD.of v with
  | 1 => m.loadStart false (m.fld TAP_MC_ADDR.ADDR 0) (m.fld TAP_MC_LEN.LEN 0)
  | 2 => m.swapStart
  | 3 => m.loadStart true (m.fld TAP_MC_ADDR.ADDR 0) (m.fld TAP_MC_LEN.LEN 0)
  | _ => m

/-- A write to a microcode register at offset `o`; `cfg`: by a requester of R272 (R318). -/
def Mach.tapWrite (m : Mach) (cfg : Bool) (o : Nat) (v : W32) : Mach :=
  let a := Blk.base .tap 0 + o
  if o = 4 ∨ o = 8 ∨ o = 0xC then
    if !cfg then m.raise TAP_MC_STAT.RSVW 0 else if o = 4 then m.mcCmdWrite v else m.setRg a v
  else if o = 0 then m.setRg a (m.rg a &&& ~~~(v &&& 0xA000))
  else if o = 0x100 then m.setRg a (v &&& 0x80000FFF)
  else if o = 0x104 then m.setRg a (m.rg a &&& ~~~(v &&& 0xE0000000))
  else m

end Sys2Proof.Machine
end

