-- ==== Sys2Proof/Machine/Boot.lean ====
section
/-! DEFINITION. Boot, images and the life cycle (R476 to R490). -/

namespace Sys2Proof.Machine

/-! ### Headers (R479 to R481) -/

/-- Bytes of a header. -/
abbrev headerLen : Nat := 1280

/-- Section entry `i` of a header. -/
def sectEntry (h : List Byte) (i : Nat) : List Byte := h.drop (128 + 64 * i) |>.take 64

def nSect (h : List Byte) : Nat := num h 6 1
def kslot (h : List Byte) : Nat := num h 7 1
def Mach.lcState (m : Mach) : Nat := m.fld SYS_LC_STAT.STATE 0

/-- The fields of a section entry. -/
def seType (e : List Byte) : Nat := num e 0 1
def seTgt (e : List Byte) : Nat := num e 1 1
def seEnc (e : List Byte) : Bool := bitOf (num e 2 1) 0
def seAuto (e : List Byte) : Bool := bitOf (num e 2 1) 1
def seFofs (e : List Byte) : Nat := num e 4 4
def seLen (e : List Byte) : Nat := num e 8 4
def seLoad (e : List Byte) : Nat := num e 12 4

/-- Whether an entry holds only values R480 lists. -/
def sectValid (field : Bool) (e : List Byte) : Bool :=
  let t := seType e
  let flags := num e 2 1
  1 ≤ t && t ≤ 3 && (if t = 1 then seTgt e < 8 else seTgt e = 0) && flags < 4 && (t = 1 || !seAuto e) && zeros e 3 1
    && seFofs e % 64 = 0 && (if t = 1 then 16 ≤ seLen e && seLen e ≤ 262144 && seLen e % 16 = 0 else 1 ≤ seLen e)
    && seLoad e % 64 = 0 && inRam (seLoad e) (seLen e) && (!seEnc e || zeros e 44 20) && !(t = 2 && seEnc e)
    && !(field && t ≠ 2 && !seEnc e)

/-- Whether two byte ranges overlap. -/
def overlaps (a n b k : Nat) : Bool := a < b + k && b < a + n

/-- Whether two entries may stand in one image. -/
def sectCompat (e f : List Byte) : Bool :=
  !overlaps (seLoad e) (seLen e) (seLoad f) (seLen f) && !(seType e = 2 && seType f = 2)
    && !(seType e = 1 && seType f = 1 && seTgt e = seTgt f)

/-- Whether every entry stands beside every later one. -/
def allCompat : List (List Byte) → Bool
  | [] => true
  | e :: es => es.all (sectCompat e) && allCompat es

def sects (h : List Byte) : List (List Byte) := (List.range (nSect h)).map (sectEntry h)

/-- Whether the header's form is that of R479 and R480; `boot`: of an image used to boot. -/
def Mach.headerForm (m : Mach) (h : List Byte) (boot : Bool) : Bool :=
  let es := sects h
  h.length = headerLen && num h 0 4 = 0x4D49444B && num h 4 2 = 1 && 1 ≤ nSect h && nSect h ≤ 16 && num h 8 4 ≤ 32
    && zeros h 112 16 && zeros h 1248 32 && (List.range 16).all (fun i => i < nSect h || zeros h (128 + 64 * i) 64)
    && es.all (sectValid (m.lcState = 2)) && allCompat es && es.all (fun e => !overlaps (seLoad e) (seLen e) 0x10FF0000 0x10000)
    && (!boot || (es.any (fun e => seType e = 1 && seTgt e = 0) && es.any (fun e => seType e = 2)))

/-- Whether the life-cycle state accepts the key slot and PUBKEY is its key (R481, R484). -/
def Mach.keyOk (m : Mach) (h : List Byte) : Bool :=
  let k := kslot h
  let st := m.lcState
  let hash := Config.sha384 (h.drop 16 |>.take 96)
  if k = 0xFF then (st = 0 || st = 3) && hash = Config.salegHash
  else (st = 1 || st = 2) && k < 4 && bitsOf (m.fld SYS_LC_STAT.SLOTS 0) (2 * k + 1) (2 * k) = 1 && hash = m.fuseKey k

/-- The check of a header: 0, or ST 1 header, 2 key, 3 SVN below floor, 4 signature (R490). -/
def Mach.headerErr (m : Mach) (h : List Byte) (boot : Bool) : Nat :=
  if !m.headerForm h boot then 1
  else if !m.keyOk h then 2
  else if num h 8 4 < m.fld SYS_LC_FLOOR.IMG 0 then 3
  else if !Config.ecdsa (h.drop 16 |>.take 96) (h.take 1152) (h.drop 1152 |>.take 96) then 4
  else 0

/-! ### Sections -/

/-- Where an image lies: in the flash, or in device memory. -/
def Mach.imageRead (m : Mach) (flash : Bool) (a n : Nat) : Option (List Byte) × Mach :=
  if flash then (some (SMap.getRange Memory.unlisted m.flash a n), m)
  else if (m.bufKey a n).isSome then m.load 0 a n else (none, m)

/-- A section is copied to LOAD, decrypted on the way or hashed (R478): whether it passes. -/
def Mach.sectCopy (m : Mach) (flash : Bool) (base : Nat) (e : List Byte) : Bool × Mach :=
  let (bytes, m) := m.imageRead flash (base + seFofs e) (seLen e)
  match (if (m.bufKey (seLoad e) (seLen e)).isSome then bytes else none) with
  | none => (false, m)
  | some bs =>
    if seEnc e then
      match (if m.kimg then Config.gcm (m.fuseKey 4) (e.drop 16 |>.take 12) (e.drop 28 |>.take 16) bs else none) with
      | none => (false, m)
      | some p => (true, (m.store 0 (seLoad e) (p.take (seLen e))).2)
    else (Config.sha384 bs = e.drop 16, (m.store 0 (seLoad e) bs).2)

/-- The sections in turn: the first that fails, if any. -/
def Mach.sectsCopy (m : Mach) (flash : Bool) (base : Nat) : Nat → List (List Byte) → Option Nat × Mach
  | _, [] => (none, m)
  | i, e :: es =>
    let (ok, m) := m.sectCopy flash base e
    if ok then Mach.sectsCopy m flash base (i + 1) es else (some i, m)

/-- The firmware records of the PAIRFW sections, with the hash of each verified copy (R478, R486, R487). -/
def Mach.recordPfw (m : Mach) (h : List Byte) : Mach :=
  (sects h).foldl (fun m e =>
    if seType e ≠ 1 then m
    else
      let d := 8 * seTgt e
      let m := (m.setFld (SYS_PFW.ADDR.sh d) 0 (seLoad e)).raise (SYS_PFW_ST.VALID.sh d) 0
      let m := (m.setFlg (SYS_PFW_ST.AUTO.sh d) 0 (seAuto e)).setFld (SYS_PFW_ST.LEN16.sh d) 0 (seLen e / 16)
      { m with secure := { m.secure with
          hashes := SMap.set (fun _ => []) m.secure.hashes (seTgt e) (Config.sha384 (m.peek (seLoad e) (seLen e))) } }) m

/-! ### The boot ROM (R478, R482, R483) -/

/-- Flash offset of slot A (false) or B (R476). -/
def Mach.slotBase (m : Mach) (b : Bool) : Nat := if b then (if bitOf m.secure.straps 2 then 0x02000000 else 0x00800000) else 0

/-- Whether the straps ask for recovery: not in Field or Scrapped (R476). -/
def Mach.recovery (m : Mach) : Bool := m.secure.straps % 4 = 2 && m.lcState ≠ 2 && m.lcState ≠ 4

/-- Steps 2 and 3 of R478 on one image: 0, or SYS_BOOT_STAT.ERR 2 or 3. The microcode goes into bank 0. -/
def Mach.bootImage (m : Mach) (flash : Bool) (base : Nat) (h : List Byte) : Nat × Mach :=
  let m := { m with secure := { m.secure with pubkey := h.drop 16 |>.take 96 } }
  match m.sectsCopy flash base 0 (sects h) with
  | (some _, m) => (2, m)
  | (none, m) =>
    match (sects h).find? (fun e => seType e = 2) with
    | none => (3, m)
    | some e =>
      let (st, m) := m.loadInto false {} (seLoad e) (seLen e)
      (if st = 0 then 0 else 3, m.setFld TAP_MC_STAT.LDST 0 st)

/-- The image is the one to run, or the ROM gives up with an error. -/
def Mach.bootOutcome (m : Mach) (err slot : Nat) (h : List Byte) : Mach :=
  if err = 0 then { m with secure := { m.secure with boot := 1, err := 0, image := h, slot := slot } }.initStart
  else { m with secure := { m.secure with boot := 2, err := err, pubkey := [] } }

/-- The boot ROM runs once the on-die wipe is over; `flash`: the flash responds. -/
def Mach.bootRom (m : Mach) (flash : Bool) : Mach :=
  if 8 ∈ m.power.wipes || m.secure.boot ≠ 0 || m.recovery then m
  else if m.lcState = 4 then m.bootOutcome 5 0 []
  else if !flash then m.bootOutcome 4 0 []
  else
    let hdr (b : Bool) : List Byte := SMap.getRange Memory.unlisted m.flash (m.slotBase b) headerLen
    let ok (b : Bool) : Bool := m.headerErr (hdr b) true = 0
    let order : List Bool :=
      if ok false && ok true then (if num (hdr false) 12 4 < num (hdr true) 12 4 then [true, false] else [false, true])
      else if ok false then [false] else if ok true then [true] else []
    match order with
    | [] => m.bootOutcome 1 0 []
    | b :: rest =>
      let (e, m1) := m.bootImage true (m.slotBase b) (hdr b)
      if e = 0 then m1.bootOutcome 0 (bit b) (hdr b)
      else
        match rest with
        | [] => m1.bootOutcome e 0 []
        | b2 :: _ =>
          let (e2, m2) := m1.bootImage true (m.slotBase b2) (hdr b2)
          m2.bootOutcome e2 (bit b2) (hdr b2)

/-- An image the debugger wrote into shared SRAM at `a` boots as if it came from a slot (R483): with the recovery straps, or after
a failed boot in Blank, Development or Return. -/
def Mach.recoveryBoot (m : Mach) (a : Nat) : Mach :=
  let st := m.lcState
  let may := st ≠ 2 && st ≠ 4 && !(8 ∈ m.power.wipes) && ((m.secure.boot = 0 && m.recovery) || m.secure.boot = 2)
  if !may || !(0x10000000 ≤ a && a + headerLen ≤ 0x11000000) then m
  else
    let (bytes, m) := m.load 0 a headerLen
    match bytes with
    | none => m.bootOutcome 1 0 []
    | some h =>
      if m.headerErr h true ≠ 0 then m.bootOutcome 1 0 []
      else
        let (e, m) := m.bootImage false a h
        m.bootOutcome e 1 h

/-- The ROM ends (R478, R483): records, scratch wipe, DONE, and the pair loaders; or ERR. -/
def Mach.bootComplete (m : Mach) : Mach :=
  if m.flg SYS_BOOT_STAT.DONE 0 then m
  else
    match m.secure.boot with
    | 1 =>
      let h := m.secure.image
      let m := (m.recordPfw h).wipeRange 0x10FF0000 0x11000000 none
      let m := ((m.raise SYS_BOOT_STAT.DONE 0).setFld SYS_BOOT_STAT.SLOT 0 m.secure.slot).setFld SYS_BOOT_STAT.ERR 0 0
      let m := m.setFld SYS_BOOT_STAT.KSLOT 0 (if kslot h = 0xFF then 7 else kslot h)
      let m := { m with secure := { m.secure with svn := num h 8 4 } }
      (List.range 8).foldl (fun m p =>
        if p = 0 ∨ m.flg (SYS_PFW_ST.AUTO.sh (8 * p)) 0 then m.setPair p { m.pair p with start := true }
        else m.setPState p 5) m
    | 2 => m.setFld SYS_BOOT_STAT.ERR 0 m.secure.err
    | _ => m

/-! ### The image engine (R487 to R489) -/

/-- A write of SYS_IMG_CMD by a requester of R272. -/
def Mach.imgCmdWrite (m : Mach) (v : W32) : Mach :=
  let op := SYS_IMG_CMD.OP.of v
  if SYS_IMG_CMD.GO.of v = 0 then m
  else if m.flg SYS_IMG_RES.BUSY 0 then m.setFld SYS_IMG_RES.ST 0 8
  else if op = 1 ∨ op = 2 then { m with secure := { m.secure with imgOp := some op } }.raise SYS_IMG_RES.BUSY 0
  else m

/-- The bytes of an image in memory, by offset: the header and every section. -/
def Mach.imageParts (m : Mach) (a : Nat) (h : List Byte) : List (Nat × List Byte) :=
  (sects h).map (fun e => (seFofs e, m.peek (a + seFofs e) (seLen e))) ++ [(0, h)]

/-- The image engine finishes: ST, SECT; `flash`: the flash took what it was given. -/
def Mach.imageDone (m : Mach) (flash : Bool) : Mach :=
  match m.secure.imgOp with
  | none => m
  | some op =>
    let m := { m with secure := { m.secure with imgOp := none } }.setFld SYS_IMG_RES.BUSY 0 0
    let ends (m : Mach) (st sect : Nat) : Mach := (m.setFld SYS_IMG_RES.ST 0 st).setFld SYS_IMG_RES.SECT 0 sect
    let a := m.fld SYS_IMG_ADDR.ADDR 0
    if a % 64 ≠ 0 || (m.bufKey a headerLen).isNone then ends m 6 0
    else
      let (bytes, m) := m.load 0 a headerLen
      match bytes with
      | none => ends m 1 0
      | some h =>
        match m.headerErr h false with
        | 0 =>
          (match m.sectsCopy false a 0 (sects h) with
          | (some i, m) => ends m 5 i
          | (none, m) =>
            if op = 1 then ends (m.recordPfw h) 0 0
            else if !flash then ends m 7 0
            else
              let base := m.slotBase (!m.flg SYS_BOOT_STAT.SLOT 0)
              ends { m with flash := (m.imageParts a h).foldl (fun f p => SMap.setRange Memory.unlisted f (base + p.1) p.2) m.flash } 0 0)
        | e => ends m e 0

/-! ### The life cycle (R484, R485) -/

/-- Bits of slot `k` in SLOTS: 0 blank, 1 VALID, 2 revoked, 3 BROKEN. -/
def Mach.slotState (m : Mach) (k : Nat) : Nat := bitsOf (m.fld SYS_LC_STAT.SLOTS 0) (2 * k + 1) (2 * k)

def Mach.setSlotState (m : Mach) (k v : Nat) : Mach :=
  m.setFld SYS_LC_STAT.SLOTS 0 (putBits (m.fld SYS_LC_STAT.SLOTS 0) (2 * k + 1) (2 * k) v)

/-- `n` bytes at SYS_LC_ARG, in shared SRAM or DRAM. -/
def Mach.lcArg (m : Mach) (n : Nat) : Option (List Byte) × Mach :=
  let a := m.fld SYS_LC_ARG.ADDR 0
  if (m.bufKey a n).isSome then m.load 0 a n else (none, m)

/-- An operation ends with a code of CST. -/
def Mach.lcEnds (m : Mach) (cst : Nat) : Mach := m.setFld SYS_LC_STAT.CST 0 cst

/-- The state changes, and the part resets with cause 3. A transition to Scrapped blows every key fuse. -/
def Mach.lcMove (m : Mach) (st : Nat) : Mach :=
  let m := m.setFld SYS_LC_STAT.STATE 0 st
  let m := if st = 4 then
      (List.range 4).foldl (fun m k => if m.slotState k = 0 then m.setSlotState k 3 else m)
        { m with secure := { m.secure with keys := (List.range 5).foldl (fun ks k =>
            SMap.set (fun _ => []) ks k (List.replicate (if k = 4 then 32 else 48) 0xFF)) m.secure.keys } }
    else m
  (m.lcEnds 0).coldReset 3

/-- TRANSITION to state `t`. -/
def Mach.lcTransition (m : Mach) (t : Nat) : Mach :=
  let st := m.lcState
  match t with
  | 1 => if st = 0 ∧ m.slotState 0 = 1 then m.lcMove 1 else m.lcEnds 1
  | 2 => if st = 1 ∧ m.flg SYS_LC_STAT.KIMG 0 then m.lcMove 2 else m.lcEnds 1
  | 3 =>
    if st ≠ 2 then m.lcEnds 1
    else
      let (bytes, m) := m.lcArg 128
      match bytes with
      | none => m.lcEnds 3
      | some bs =>
        let id := bytesOfNat 4 (m.rg (SYS_DEVID.DEVID.addr 0)).toNat ++ bytesOfNat 4 (m.rg (SYS_DEVID.DEVID.addr 0 + 4)).toNat
        if num bs 0 4 = 0x52544B44 && zeros bs 4 4 && (bs.drop 8 |>.take 8) = id && zeros bs 16 16
            && Config.ecdsa Config.salegPub (bs.take 32) (bs.drop 32) then m.lcMove 3 else m.lcEnds 5
  | 4 => if st ≠ 4 then m.lcMove 4 else m.lcEnds 1
  | _ => m.lcEnds 3

/-- KEY: owner slot `k` or KIMG (4). -/
def Mach.lcKey (m : Mach) (k : Nat) : Mach :=
  if m.lcState ≠ 0 ∧ m.lcState ≠ 1 then m.lcEnds 1
  else if 4 < k then m.lcEnds 3
  else if k < 4 ∧ m.slotState k = 3 then m.lcEnds 4
  else if (if k = 4 then m.flg SYS_LC_STAT.KIMG 0 else m.slotState k ≠ 0) then m.lcEnds 3
  else
    let (bytes, m) := m.lcArg (if k = 4 then 32 else 48)
    match bytes with
    | none => m.lcEnds 3
    | some bs =>
      let m := { m with secure := { m.secure with keys := SMap.set (fun _ => []) m.secure.keys k bs } }
      (if k = 4 then m.raise SYS_LC_STAT.KIMG 0 else m.setSlotState k 1).lcEnds 0

/-- REVOKE owner slot `k`. -/
def Mach.lcRevoke (m : Mach) (k : Nat) : Mach :=
  if m.lcState ≠ 1 ∧ m.lcState ≠ 2 then m.lcEnds 1
  else if 3 < k || (m.flg SYS_BOOT_STAT.DONE 0 && m.fld SYS_BOOT_STAT.KSLOT 0 = k) || !(List.range 4).any (fun j => j ≠ k && m.slotState j = 1) then m.lcEnds 3
  else if m.slotState k = 3 then m.lcEnds 4
  else (m.setSlotState k 2).lcEnds 0

/-- FLOOR: bits 7:6 of PARAM name the floor, bits 5:0 its new value. -/
def Mach.lcFloor (m : Mach) (p : Nat) : Mach :=
  let v := p % 64
  let raise (f : Fld) (top : Nat) : Mach := if m.fld f 0 < v ∧ v ≤ top then (m.setFld f 0 v).lcEnds 0 else m.lcEnds 3
  match p / 64 with
  | 0 => raise SYS_LC_FLOOR.IMG (min 32 m.secure.svn)
  | 1 => raise SYS_LC_FLOOR.MCV 31
  | 2 => raise SYS_LC_FLOOR.MCG 31
  | _ => m.lcEnds 3

/-- A write of SYS_LC_CMD by a requester of R272. -/
def Mach.lcCmdWrite (m : Mach) (v : W32) : Mach :=
  let op := SYS_LC_CMD.OP.of v
  let p := SYS_LC_CMD.PARAM.of v
  if SYS_LC_CMD.GO.of v = 0 then m
  else if SYS_LC_CMD.KEY.of v ≠ 0x4C43 ∨ op = 0 ∨ 4 < op then m.lcEnds 3
  else if (List.range 72).any m.en || m.loActive then m.lcEnds 2
  else match op with
    | 1 => m.lcTransition p
    | 2 => m.lcKey p
    | 3 => m.lcRevoke p
    | _ => m.lcFloor p

/-- A write to a boot or life-cycle register at offset `o`; `cfg`: by a requester of R272 (R489, R490). -/
def Mach.bootWrite (m : Mach) (cfg : Bool) (o : Nat) (v : W32) : Mach :=
  if o = 8 then (if cfg then m.lcCmdWrite v else m.raise SYS_RST_STAT.RSVW 0)
  else if o = 0x10 then (if cfg then m.imgCmdWrite v else m.raise SYS_RST_STAT.RSVW 0)
  else if o = 0xC ∨ o = 0x14 then m.setRg (Blk.base .boot 0 + o) v
  else m

end Sys2Proof.Machine
end

