-- ==== Sys2Proof/Machine/Debug.lean ====
section
/-! DEFINITION. The TAP (R492), debug sessions (R496 to R498), halts and releases (R502, R507 to R509) and the debug block's
registers (R510). -/

namespace Sys2Proof.Machine

/-! ### The TAP (R492) -/

/-- What the instruction code `c` acts as: EXTEST (0), IDCODE (1), SAMPLE/PRELOAD (2) or BYPASS (0xFF). -/
def Mach.tapCode (m : Mach) (c : Nat) : Nat :=
  let scan := m.lcState ≠ 4 && (m.lcState ≠ 2 || (m.flg DBG_SESS.ACTIVE 0 && m.flg DBG_SESS.HOUSE 0 && m.flg DBG_SESS.BSCAN 0))
  if c = 1 then 1 else if (c = 0 || c = 2) && scan then c else 0xFF

/-- An instruction is in the TAP's instruction register: EXTEST holds the part in cold reset, any other lets go of it. -/
def Mach.tapInstr (m : Mach) (c : Nat) : Mach :=
  let code := m.tapCode c
  let m := { m with dbg := { m.dbg with ir := code } }
  if code = 0 then m.holdReset 7 else m.releaseReset (fun r => r = 7)

/-! ### Halts of slices and of the Tapster (R507, R508, R509) -/

/-- A slice halt: at the next commit fence, at once where none comes. -/
def Mach.sliceHaltAsk (m : Mach) (x : Nat) : Mach :=
  let s := m.slice x
  if s.halted then m
  else if m.flg TB_PG_STAT.RUN (m.pgOf x) then m.setSlice x { s with haltReq := true }
  else m.sliceHalts x m.now

/-- A halted slice is released: it wakes at the first sample fence at least 16 tk on; `step` for one period. The halt pattern ends
with the first duties committed, or at once where the slice does not run. -/
def Mach.sliceResume (m : Mach) (x : Nat) (step : Bool) : Mach :=
  let s := m.slice x
  if !s.halted then m.setSlice x { s with haltReq := false }
  else
    let m := m.setSlice x { s with halted := false, stepping := step, from_ := max s.from_ ((m.now + 63) / 64 + 16) }
    if m.flg AX_STATE.RUN x && m.flg TB_PG_STAT.RUN (m.pgOf x) then m
    else
      let was := m.ranks x
      (m.setFld AX_GT_STAT.HALT x 0).redriveAll x was m.now

/-! ### Sessions (R496 to R498) -/

/-- A new nonce is drawn. -/
def Mach.drawNonce (m : Mach) : Mach :=
  let (f, m) := m.drawMany 8
  (List.range 8).foldl (fun m i => m.setRg (DBG_NONCE.V.addr 0 + 4 * i) (BitVec.ofNat 32 (f i))) m

/-- A session opens. -/
def Mach.sessBegin (m : Mach) (house bscan : Bool) : Mach :=
  ((m.raise DBG_SESS.ACTIVE 0).setFlg DBG_SESS.HOUSE 0 house).setFlg DBG_SESS.BSCAN 0 bscan

/-- Bytes of registers from an address on. -/
def Mach.regBytes (m : Mach) (a n : Nat) : List Byte := (List.range n).flatMap (fun i => bytesOfNat 4 (m.rg (a + 4 * i)).toNat)

/-- A write of DBG_SESS.OPEN (R497): 1 bad slot, 2 signature, 3 nonzero reserved bytes, or the session opens. -/
def Mach.sessAuth (m : Mach) : Mach :=
  let buf := m.regBytes (DBG_AUTHBUF.V.addr 0) 32
  let k := num buf 96 1
  let scope := num buf 97 1
  let msg := m.regBytes (DBG_NONCE.V.addr 0) 8 ++ m.regBytes (SYS_DEVID.DEVID.addr 0) 2 ++ bytesOfNat 1 scope
  let ast := if 4 ≤ k || m.slotState k ≠ 1 then 1
    else if !zeros buf 98 30 || 4 ≤ scope then 3
    else if !Config.ecdsa (Config.pubOf (m.fuseKey k)) msg (buf.take 96) then 2 else 0
  let m := (m.setFld DBG_SESS.AST 0 ast).drawNonce
  if ast = 0 then m.sessBegin (bitOf scope 0) (bitOf scope 1) else m

/-- The session opens: at a good frame in Blank, Development and Return; under R497 in Field. -/
def Mach.sessOpen (m : Mach) : Mach :=
  match m.lcState with
  | 2 => m.sessAuth
  | 4 => m
  | _ => if m.flg DBG_SESS.ACTIVE 0 then m else m.sessBegin true true

/-- A session closes: halts made through the link are released, slices first, then the cores, then the Tapster. -/
def Mach.sessClose (m : Mach) : Mach :=
  if !m.flg DBG_SESS.ACTIVE 0 then m
  else
    let m := ((m.setFld DBG_SESS.ACTIVE 0 0).setFld DBG_SESS.HOUSE 0 0).setFld DBG_SESS.BSCAN 0 0
    let m := (List.range 72).foldl (fun m x => m.sliceResume x false) m
    let m := (List.range 16).foldl (fun m c => if (m.reed c).link then m.coreResume c else m) m
    m.setFld DBG_STAT.TAPH 0 0

/-- 10 s without a good frame. -/
def Mach.sessTimeout (m : Mach) : Mach :=
  if m.flg DBG_SESS.ACTIVE 0 then (m.until (m.dbg.lastGood + 160000000000)).sessClose else m

/-- Whether DMR_ATTN_N is Low (R491): a target is halted, or a session waits for authentication (R496: in Field, none open). -/
def Mach.attnLow (m : Mach) : Bool :=
  (List.range 16).any m.coreHalted || m.flg DBG_STAT.TAPH 0 || (List.range 72).any (fun x => (m.slice x).halted)
    || (m.lcState = 2 && !m.flg DBG_SESS.ACTIVE 0)

/-! ### DBG_CMD (R502, R506 to R509) -/

/-- Whether a target code names a target within the session's scope. -/
def Mach.dbgTarget (m : Mach) (t : Nat) : Bool :=
  let house := m.flg DBG_SESS.HOUSE 0
  if t < 16 then (if m.safePair (t / 2) then house && t % 2 = 0 else true)
  else house && (t = 16 || (0x40 ≤ t && t < 0x88))

def Mach.dbgHalt (m : Mach) (t : Nat) : Mach :=
  if !m.dbgTarget t then m.raise DBG_STAT.ERR 0
  else if t < 16 then m.haltAsk t 1 true
  else if t = 16 then m.raise DBG_STAT.TAPH 0
  else m.sliceHaltAsk (t - 0x40)

def Mach.dbgResume (m : Mach) (t : Nat) : Mach :=
  if !m.dbgTarget t then m.raise DBG_STAT.ERR 0
  else if t < 16 then m.coreResume t
  else if t = 16 then m.setFld DBG_STAT.TAPH 0 0
  else m.sliceResume (t - 0x40) false

/-- A step of a core is left in `dbg.step`: running its bundle comes at the end of the command. -/
def Mach.dbgStep (m : Mach) (t : Nat) : Mach :=
  if !m.dbgTarget t then m.raise DBG_STAT.ERR 0
  else if t < 16 then
    if m.coreHalted t then { m with dbg := { m.dbg with step := some t } } else m
  else if t = 16 then m
  else if (m.slice (t - 0x40)).halted then m.sliceResume (t - 0x40) true else m

def Mach.dbgCmdWrite (m : Mach) (v : W32) : Mach :=
  let t := DBG_CMD.TARGET.of v
  match DBG_CMD.ACT.of v with
  | 1 => m.dbgHalt t
  | 2 => m.dbgResume t
  | 3 => m.dbgStep t
  | _ => m

/-- DBG_FEED_GO: the fed bundle runs at the end of the command. -/
def Mach.feedGo (m : Mach) : Mach := { m with dbg := { m.dbg with feed := true } }

/-- A write of the debug bus master to the debug block at offset `o`; others are refused (R510). -/
def Mach.dbgWrite (m : Mach) (link : Bool) (o : Nat) (v : W32) : Mach :=
  let a := Blk.base .dbg 0 + o
  if !link then m.raise DBG_STAT.RSVW 0
  else if o = 0 then
    let m := if DBG_SESS.OPEN.of v = 1 then m.sessOpen else m
    if DBG_SESS.CLOSE.of v = 1 then m.sessClose else m
  else if o = 4 then m.setRg a (v &&& 0x800000FF)
  else if o = 8 then m.dbgCmdWrite v
  else if o = 0xC then m.setRg a (m.rg a &&& ~~~(v &&& 3))
  else if (0x80 ≤ o ∧ o < 0x100) ∨ (0x100 ≤ o ∧ o < 0x110) then m.setRg a v
  else if o = 0x110 then m.feedGo
  else if 0x200 ≤ o ∧ o < 0x280 then m.setRg a (v &&& 0xFFFFFFF1)
  else m

/-- DBG_SHALT and DBG_CSTAT_n as they read (R510); where DBG_CSTAT_8 to 15 and DBG_NONCE share an offset, the nonce shows while the
link waits for authentication. -/
def Mach.dbgRead (m : Mach) (o : Nat) : W32 :=
  let bits (n k : Nat) : W32 := BitVec.ofNat 32 ((List.range k).foldl (fun s i => s + 2 ^ i * bit (m.slice (n + i)).halted) 0)
  if o = 0x10 then bits 0 32
  else if o = 0x14 then bits 32 32
  else if 0x20 ≤ o ∧ o < 0x60 ∧ ¬ (0x40 ≤ o ∧ m.lcState = 2 ∧ ¬ m.flg DBG_SESS.ACTIVE 0) then
    let w := m.rg (DBG_CSTAT.HALTED.addr 0 + (o - 0x20))
    if o = 0x20 then w ||| bits 64 8 else w
  else m.rg (Blk.base .dbg 0 + o)

end Sys2Proof.Machine
end

