-- ==== Sys2Proof/Machine/Bus.lean ====
section
/-! DEFINITION. The address map as its requesters reach it (R30 to R33, R375 to R378), and what a read and a write of a register do
(R8 to R13). -/

namespace Sys2Proof.Machine

/-! ### Requesters at their level (R375, R378, R499) -/

/-- A requester with the world and level it acts at. -/
structure Who where
  req : Req
  guest : Bool
  user : Bool
  deriving DecidableEq, Repr

/-- Whether the link acts with HOUSE scope (R496). -/
def Mach.linkHouse (m : Mach) : Bool := if m.lcState = 2 then m.flg DBG_SESS.ACTIVE 0 && m.flg DBG_SESS.HOUSE 0 else m.lcState ≠ 4

/-- A requester as it acts now. -/
def Mach.who (m : Mach) (r : Req) : Who :=
  match r with
  | .reed c =>
    let st := m.inForce (m.coreIdx c.val) 0
    { req := r, guest := ST.WORLD.of st = 1, user := ST.LEVEL.of st = 0 }
  | .tapster g => { req := r, guest := g, user := false }
  | .pcie => { req := r, guest := m.flg OP_PCIE_CTRL.WORLD 0, user := false }
  | .debug _ => { req := r, guest := !m.linkHouse, user := false }

/-- The core whose boundaries and windows bind a requester: its own; core 0 for the requesters that are no core. -/
def Mach.boundCore (m : Mach) (w : Who) : Nat :=
  match w.req with
  | .reed c => m.coreIdx c.val
  | _ => 0

/-- The core whose TCM stands at address 0. -/
def Mach.tcmCore (m : Mach) (w : Who) : Option Nat :=
  match w.req with
  | .reed c => some (m.coreIdx c.val)
  | _ => none

/-- A requester of R272. -/
def Who.cfg (w : Who) : Bool := !w.guest && !w.user

/-- A Reed core at House supervisor level. -/
def Who.houseCore (w : Who) : Bool := w.cfg && (match w.req with
  | .reed _ => true
  | _ => false)

/-- A writer R212 admits. -/
def Who.cmWriter (w : Who) : Bool := w.cfg && (match w.req with
  | .reed _ | .tapster _ => true
  | _ => false)

def Who.isDebug (w : Who) : Bool := match w.req with
  | .debug _ => true
  | _ => false

def Who.isTapster (w : Who) : Bool := match w.req with
  | .tapster _ => true
  | _ => false

/-! ### The map -/

/-- Whether `n` bytes at `a` are an access the device register range takes (R31, R354). -/
def devAt (a n : Nat) : Bool := 0x30000000 ≤ a && a < 0x40000000 && (n = 4 || n = 8) && a % n = 0 && (blkOf a).isSome

/-- A world boundary in bytes from the start of its memory: beyond the memory, or the field's largest value in DRAM, its size. -/
def Mach.worldBound (m : Mach) (c n size : Nat) : Nat :=
  let o := TCM_GB.OFS.of (m.inForce c n)
  if o = 2 ^ 25 - 1 ∨ size < 64 * o then size else 64 * o

/-- Whether the byte of memory key `k` lies in the Guest part as core `c`'s boundaries divide it. -/
def Mach.guestPart (m : Mach) (c k : Nat) : Bool :=
  if 0x200000000 ≤ k then m.worldBound c 0x1A 0x40000 ≤ k % 0x40000
  else if k < 0x20000000 then m.worldBound c 0x1B 0x1000000 ≤ k - 0x10000000
  else 0x80000000 ≤ k && m.worldBound c 0x1C 0x80000000 ≤ k - 0x80000000

/-- Whether one user window of the level's world grants `n` bytes at `a` (R376): `acc` is 0 read, 1 write, 2 fetch. -/
def Mach.inWindows (m : Mach) (c : Nat) (guest : Bool) (a n acc : Nat) : Bool :=
  (List.range 4).any (fun i =>
    let b := (m.inForce c ((if guest then 0x28 else 0x20) + 2 * i)).toNat
    let l := (m.inForce c ((if guest then 0x29 else 0x21) + 2 * i)).toNat
    bitOf b 3 && bitOf b acc && b / 64 * 64 ≤ a && a + n ≤ l / 64 * 64)

/-- The table of R375 for `n` bytes at `a`; `acc` as in `inWindows`. The debug block takes the link itself. -/
def Mach.mayReach (m : Mach) (w : Who) (core : Option Nat) (a n acc : Nat) : Bool :=
  match memKey core a with
  | some k =>
    let c := m.boundCore w
    let world := if 0x20000000 ≤ k ∧ k < 0x30000000 then acc = 0 || (acc = 1 && w.cfg) else !w.guest || m.guestPart (core.getD c) k
    world && (!w.user || m.inWindows c w.guest a n acc)
  | none =>
    acc ≠ 2 && !w.user &&
      (if a < 0x33000000 then !w.guest || acc = 0
      else if a < 0x34000000 then true
      else if a < 0x35000000 then !w.guest || acc = 0
      else if a < 0x38000000 then !w.guest
      else w.isDebug || !w.guest)

/-! ### Words that are worked out when they are read -/

/-- The bits of SYS_MEM_MAPUSE (R430). -/
def Mach.mapUse (m : Mach) : Nat :=
  (List.range 64).foldl (fun u x =>
    let u := if m.en x ∧ m.fld AX_MAP.MODE x ≠ 0 then u ||| 2 ^ m.fld AX_MAP.PAGE x else u
    match (m.slice x).flight with
    | some f => (match f.page with
      | some p => if f.done.isNone then u ||| 2 ^ p else u
      | none => u)
    | none => u) 0

/-- The value of the word at a device address. -/
def Mach.readReg (m : Mach) (a : Nat) : W32 :=
  match blkOf a with
  | none => 0
  | some (b, i) =>
    let o := a - b.base i
    let rd := match findCard (cardsOf b i) o with
      | some c => c.rd
      | none => 0
    let plain := m.rg a &&& rd
    match b with
    | .tb => if o = 8 then BitVec.ofNat 32 (m.now / 64 * 64) else if o = 0xC then BitVec.ofNat 32 (m.now / 2 ^ 32) else plain
    | .sl => if 0xC000 ≤ o ∧ o < 0xFF80 then m.mirrorGet i o
        else if o = 0x400C ∧ i < 64 then plain &&& 0x3F else plain
    | .memb => if o = 0x20 then BitVec.ofNat 32 m.mapUse else if o = 0x24 then BitVec.ofNat 32 (m.mapUse / 2 ^ 32) else plain
    | .sup =>
      if 0x1000 ≤ o ∧ o < 0x3000 then BitVec.ofNat 32 (natOfBytes (m.retGet a 4))
      else if 0x20 ≤ o ∧ o < 0xA0 ∧ o % 16 = 0xC then m.wdStat ((o - 0x20) / 16)
      else if o = 0x10C then m.wdStat 8
      else plain
    | .boot => if 0x40 ≤ o ∧ o < 0x80 ∧ o % 8 = 4 then SYS_PFW_ST.PST.into plain (m.pst ((o - 0x40) / 8)) else plain
    | .sto => if o = 4 then OP_STO_STAT.CONF.into plain (bit m.stoConf) else plain
    | .dbg => if o = 0 ∨ o = 0x110 ∨ (0x80 ≤ o ∧ o < 0x110) ∨ o = 8 then plain else m.dbgRead o &&& (if 0x40 ≤ o ∧ o < 0x60 then 0xFFFFFFFF else rd)
    | _ => plain

/-! ### Reads (R9, R11, R13) -/

/-- No low-half read made yet. -/
def noShadow (_ : Nat) : Option W32 := none

/-- RC fields of the word at `a` go back to their reset values. -/
def Mach.clearRc (m : Mach) (a : Nat) : Mach :=
  match cardAt a with
  | some c => if c.rc = 0 then m else m.setRg a ((m.rg a &&& ~~~c.rc) ||| (resetWord a &&& c.rc))
  | none => m

/-- The RL part of the word at `a`. -/
def rlPart (a : Nat) : RlPart :=
  match cardAt a with
  | some c => c.rl
  | none => .none

/-- Loads a requester's shadow with the high half at `a` (R11). -/
def Mach.latchHigh (m : Mach) (r : Req) (a : Nat) : Mach :=
  { m with shadow := SMap.set noShadow m.shadow (Req.idx r) (some (m.readReg a)) }

/-- A read of one word: `observe` has no side effect (R13); a Guest read clears nothing (R377). -/
def Mach.readWord (m : Mach) (w : Who) (observe : Bool) (a : Nat) : W32 × Mach :=
  if observe then (m.readReg a, m)
  else
    match rlPart a with
    | .low => (m.readReg a, m.latchHigh w.req (a + 4))
    | .high => ((SMap.get noShadow m.shadow (Req.idx w.req)).getD 0, m)
    | .none => (m.readReg a, if w.guest then m else m.clearRc a)

/-- A register read of 4 or 8 bytes. -/
def Mach.readDev (m : Mach) (w : Who) (observe : Bool) (a n : Nat) : W64 × Mach :=
  let (lo, m1) := m.readWord w observe a
  if n = 4 then (lo.setWidth 64, m1)
  else
    let (hi, m2) := if rlPart a = .low then (m.readReg (a + 4), m1) else m1.readWord w observe (a + 4)
    (lo.setWidth 64 ||| hi.setWidth 64 <<< 32, m2)

/-! ### Writes -/

/-- A write by access codes alone: RW bits take the value, W1C bits written 1 clear, W1S bits written 1 set (R9). -/
def Mach.writePlain (m : Mach) (a : Nat) (v : W32) : Mach :=
  match cardAt a with
  | none => m
  | some c => m.setRg a ((((m.rg a &&& ~~~c.rw) ||| (v &&& c.rw)) &&& ~~~(v &&& c.w1c)) ||| (v &&& c.w1s))

/-- Whether a slice configuration word carries a reserved value (R137, R230, R235, R236, and the cards of those words). -/
def sliceReserved (x o : Nat) (v : W32) : Bool :=
  if x < 64 && o = 0x10 then AX_POLE.POLES.of v = 0 || 64 < AX_POLE.POLES.of v
  else if x < 64 && o = 0x2C then 8 ≤ AX_BUS.BUSCH.of v && AX_BUS.BUSCH.of v < 15
  else if o = 0x4000 then AX_GT_CTRL.HALTPAT.of v = 3 || (64 ≤ x && AX_GT_CTRL.SHPAT.of v = 1) || (x < 64 && AX_GT_CTRL.INTLV.of v = 1)
    || (8 ≤ AX_GT_CTRL.STOSEL.of v && AX_GT_CTRL.STOSEL.of v < 15)
  else if o = 0x4004 then AX_GT_TC.TC.of v < 40000 || 8000000 < AX_GT_TC.TC.of v
  else if 0x4010 ≤ o && o < 0x4020 then AX_GT_LEG.CHOPST.of v = 3
  else if o = 0x4040 || o = 0x4044 then AX_GT_FLT.ACT.of v = 3
  else false

/-- What follows from a new value of a timer's configuration word: another carrier (R218) and with another period another filter
window (R68), an input no longer sensed, another STO input or shutter pattern. -/
def Mach.timerFollow (m : Mach) (x o : Nat) (was : List Nat) : Mach :=
  if o = 0x4004 then (m.carrierMoved x).restartSlots x
  else if o = 0x4008 then m.carrierMoved x
  else if o = 0x4000 then ((m.carrierMoved x).setFlg AX_GT_STAT.STO x (m.stoOn x)).redriveAll x was m.now
  else if o = 0x4040 ∨ o = 0x4044 then
    let i := (o - 0x4040) / 4
    if m.flg (AX_GT_FLT.EN.sh (4 * i)) x then m else m.faultDeassert x i
  else m

/-- A write of a word locked while the slice is enabled or runs (R150, R241). -/
def Mach.lockedWrite (m : Mach) (x o : Nat) (v : W32) : Mach :=
  if m.liveSlice x then m.setFld AX_STATE.CFG_ERR x 4
  else
    let a := Blk.base .sl x + o
    let v := if o = 0x400C && x < 64 then v &&& 0x3F else v
    let was := m.ranks x
    let m := (m.writePlain a v).setFld AX_STATE.CFG_ERR x 0
    let badCpr := x < 64 && (o = 8 || o = 0xC) && m.fld AX_CPR.CPR x = 0
    let badCph := o = 0x4008 && m.tc x ≤ AX_GT_CPH.CPH.of v
    (m.raiseIf (sliceReserved x o v || badCpr || badCph) AX_STATE.RSVW x).timerFollow x o was

/-- A write of a coefficient bank word (R151). -/
def Mach.bankWordWrite (m : Mach) (x o : Nat) (v : W32) : Mach :=
  if m.liveSlice x && m.activeBank x = (0x3000 ≤ o : Bool) then m.setFld AX_STATE.CFG_ERR x 4
  else (m.writePlain (Blk.base .sl x + o) v).setFld AX_STATE.CFG_ERR x 0

/-- A write of a commissioning word or the gain-set store (R197, R212). -/
def Mach.cmWrite (m : Mach) (w : Who) (x o : Nat) (v : W32) : Mach :=
  let a := Blk.base .sl x + o
  if !w.cmWriter then
    if o = 0x6400 && AX_CM_CTRL.GO.of v = 1 then (m.raise AX_CM_STAT.POL_DENY x).cmGo x false (AX_CM_CTRL.SEQ.of v) 0 0 none
    else m.raise AX_CM_STAT.POL_DENY x
  else if o = 0x6400 then
    let m := if AX_CM_CTRL.ABORT.of v = 1 then m.cmUserAbort x else m
    if AX_CM_CTRL.GO.of v = 1 then m.cmGo x true (AX_CM_CTRL.SEQ.of v) (AX_CM_CTRL.GSET.of v) (AX_CM_CTRL.SEED.of v) none else m
  else if o = 0x6540 then m.adaptWrite x v
  else
    let m := m.writePlain a v
    let m := m.raiseIf (o = 0x6500 && AX_CM_POL.APPROVE.of v = 3) AX_STATE.RSVW x
    if 0x6800 ≤ o ∧ (o - 0x6800) / 0x100 = m.fld AX_CM_POL.PSET x then m.setFld AX_CM_STAT.PROP_OK x 0 else m

/-- A write to AX_STAGE_GEN (R44). -/
def Mach.genWrite (m : Mach) (x : Nat) (v : W32) : Mach :=
  if AX_STAGE_GEN.CLOSE.of v = 1 then m.closeStage x (AX_STAGE_GEN.TAG.of v) else m

/-- A write of one word at a mirror, past the interlock. -/
def Mach.mirrorWord (m : Mach) (x o : Nat) (v : W32) : Mach :=
  if o = 0xFF80 then m.genWrite x v else if o < 0xFF80 then m.mirrorPut x o v else m

/-- A write at a mirror, past the interlock: with 8 bytes both words at once. -/
def Mach.mirrorLand (m : Mach) (x : Nat) (p : WaitWrite) : Mach :=
  let m := if p.wide then m.mirrorWord x (p.off + 4) (p.val >>> 32 |>.setWidth 32) else m
  m.mirrorWord x p.off (p.val.setWidth 32)

/-- Whether a write of requester `r` waits at some mirror behind the Tapster's interlock (R25). -/
def Mach.reqWaits (m : Mach) (r : Req) : Bool := m.stages.any (fun e => e.2.waiting.any (fun p => Req.idx p.req = Req.idx r))

/-- Whether a requester's write at mirror `x` waits behind the Tapster's interlock, or behind a write of its own that does (R25). -/
def Mach.mirrorWaits (m : Mach) (w : Who) (x : Nat) : Bool :=
  !w.isTapster && ((m.stage x).tapLock || m.reqWaits w.req)

/-- A write to mirror `x`. -/
def Mach.mirrorWrite (m : Mach) (w : Who) (x o : Nat) (wide : Bool) (v : W64) : Mach :=
  let p : WaitWrite := { req := w.req, off := o, wide := wide, val := v }
  if m.mirrorWaits w x then m.setStage x { m.stage x with waiting := (m.stage x).waiting ++ [p] } else m.mirrorLand x p


/-- A write of a word of slice block `x` below the mirror. -/
def Mach.sliceWrite (m : Mach) (w : Who) (x o : Nat) (v : W32) : Mach :=
  let a := Blk.base .sl x + o
  match findCard (cardsOf .sl x) o with
  | none => m
  | some c =>
    if c.staged || c.readOnly then m
    else if o = 0 then m.sliceCtrlWrite x v
    else if o < 0x2000 then m.lockedWrite x o v
    else if o < 0x4000 then m.bankWordWrite x o v
    else if o = 0x4030 then
      m.writePlain a v
    else if o = 0x4038 then m.gtCmdWrite x v
    else if o = 0x403C then m.writePlain a v
    else if o < 0x6000 then m.lockedWrite x o v
    else if 64 ≤ x && (o = 0x6018 || o = 0x603C) then
      if m.en x then m.setFld AX_STATE.CFG_ERR x 4 else (m.writePlain a v).setFld AX_STATE.CFG_ERR x 0
    else if x < 64 && o = 0x6140 then m.limCmdWrite x v
    else if x < 64 && 0x6400 ≤ o && o < 0x8000 then m.cmWrite w x o v
    else if o = 0x8080 then (m.writePlain a v).raiseIf (AX_DL_CFG.CONSEC.of v = 0) AX_STATE.RSVW x
    else if o = 0xA000 then m.trcCtrlWrite x v
    else if o = 0xA004 then m.trcSelWrite x v
    else if o = 0xA010 then m.trcBaseWrite x v
    else m.writePlain a v

/-- A write of a port register (R126): every one is locked while PP_CTRL.EN reads 1, but for PP_FAIL, PP_BISS_CMD and the W1C bits of
PP_STAT. -/
def Mach.portWrite (m : Mach) (p o : Nat) (v : W32) : Mach :=
  let a := Blk.base .port p + o
  if o = 0 then m.portCtrlWrite p v
  else if o = 8 then m.writePlain a v
  else if o = 0x60 then m.bissCmdWrite p v
  else if o = 0x1C then (m.writePlain a v).raiseIf (portReserved o v) PP_STAT.RSVW p
  else match findCard (cardsOf .port p) o with
    | none => m
    | some c =>
      if m.flg PP_CTRL.EN p then m.setFld PP_STAT.CFG_ERR p 3
      else if c.readOnly then m
      else
        let m := ((m.writePlain a v).setFld PP_STAT.CFG_ERR p 0).raiseIf (portReserved o v) PP_STAT.RSVW p
        if o = 0x50 ∨ o = 0x54 then m.presetLoad p else m

/-- A write of a supervision register (R438 to R456). -/
def Mach.supWrite (m : Mach) (w : Who) (o : Nat) (v : W32) : Mach :=
  let a := Blk.base .sup 0 + o
  let ofPair (p : Nat) : Bool := match w.req with
    | .reed c => c.val / 2 = p
    | _ => false
  if o = 0 then m.fstatWrite v
  else if o = 4 then (m.writePlain a v).refreshFault
  else if 0x20 ≤ o ∧ o < 0xA0 then
    let p := (o - 0x20) / 16
    match o % 16 with
    | 0 => m.wdCtrlWrite p v
    | 4 => m.wdWinWrite p v
    | 8 => m.wdKick p (w.houseCore && ofPair p) v
    | _ => m.writePlain a v
  else if o = 0x100 then m.wdCtrlWrite 8 v
  else if o = 0x104 then m.wdWinWrite 8 v
  else if o = 0x108 then m.wdKick 8 w.houseCore v
  else if o = 0x200 then m.loCfgWrite v
  else if o = 0x208 then m.loCmdWrite v
  else m.writePlain a v

/-- A write of one register word. -/
def Mach.writeReg (m : Mach) (w : Who) (a : Nat) (v : W32) : Mach :=
  match blkOf a with
  | none => m
  | some (b, i) =>
    let o := a - b.base i
    match b with
    | .pg => if o < 0x14 then m.groupTimeWrite i (o / 4) v
        else if o = 0x14 then (m.groupWrite i v).holdWritten i
        else m.writePlain a v
    | .tw => if o = 0 then m.windowCtrlWrite i v else m.writePlain a v
    | .sl | .ax | .cv => if 0xC000 ≤ o then m.mirrorWord i o v else m.sliceWrite w i o v
    | .bank =>
      if o = 0 then m.bankCtrlWrite i v
      else if o = 8 then m.calCtrlWrite i v
      else if o = 0xC then m.calCmdWrite i (CB_CAL_CMD.CMD.of v)
      else if o = 0x18 then m.injReqWrite i v
      else m.writePlain a v
    | .slot => if o = 0 then m.slotFcfgWrite i v else m.writePlain a v
    | .cmp =>
      if o = 0 then m.cmpCtrlWrite i v
      else if o = 4 then m.thrWrite i (CMP_THR.THR.of v)
      else if o = 8 then m.cmpChatWrite i v
      else if o = 0xC then m.cmpActWrite i v
      else if o = 0x20 then m.cmpChkWrite i v
      else if o = 0x28 then m.cmpChkCfgWrite i v
      else m.writePlain a v
    | .cmpw => if o = 0x80 then m.cmpWinWrite i v else m.writePlain a v
    | .port => m.portWrite i o v
    | .tap => m.tapWrite w.cfg o v
    | .queue => m.qmWrite w.cfg (w.cfg || (!w.user && w.guest = m.flg QM_CFG.OWNER i)) i o v
    | .pcie => if o = 0 then (if w.houseCore then m.pcieCtrlWrite v else m) else m.writePlain a v
    | .eth => m.ethWrite i o v
    | .fld => m.fldWrite i o v
    | .sto => if o = 0 then (if w.houseCore then m.stoCfgWrite v else m.raise OP_STO_STAT.RSVW 0) else m.writePlain a v
    | .pair => m.pairWrite w.cfg i o v
    | .memb => m.membWrite o v
    | .sup => m.supWrite w o v
    | .pwr => m.pwrWrite w.cfg o v
    | .boot => m.bootWrite w.cfg o v
    | .dbg => m.dbgWrite w.isDebug o v
    | .ctl | .dbgc => m
    | _ => m.writePlain a v

/-- The high word of an 8-byte write, taken first. Whether AX_CPR is 0 is judged with its low word (R150). -/
def Mach.writeHigh (m : Mach) (w : Who) (a : Nat) (v : W32) : Mach :=
  match blkOf a with
  | some (.sl, x) =>
    if x < 64 && a = Blk.base .sl x + 0xC && !m.liveSlice x then m.writePlain a v else m.writeReg w a v
  | _ => m.writeReg w a v

/-- A register write of 4 or 8 bytes; of an 8-byte one the high word is taken first. -/
def Mach.writeDev (m : Mach) (w : Who) (a n : Nat) (v : W64) : Mach :=
  match blkOf a with
  | some (.sl, x) =>
    if 0xC000 ≤ a - Blk.base .sl x then m.mirrorWrite w x (a - Blk.base .sl x) (n = 8) v
    else
      let m := if n = 8 then m.writeHigh w (a + 4) ((v >>> 32).setWidth 32) else m
      m.writeReg w a (v.setWidth 32)
  | _ =>
    let m := if n = 8 then m.writeReg w (a + 4) ((v >>> 32).setWidth 32) else m
    m.writeReg w a (v.setWidth 32)

/-! ### Accesses (R31, R33, R425, R496) -/

/-- Whether the link's session lets it touch `n` bytes at `a` at all (R496): in Scrapped RD32 alone reaches anything. -/
def Mach.sessionMay (m : Mach) (core : Option Nat) (a n : Nat) (write : Bool) : Bool :=
  match m.lcState with
  | 2 => m.flg DBG_SESS.ACTIVE 0 || (core.isNone && ((a = 0x38000000 && n = 4) || (0x38000040 ≤ a && a + n ≤ 0x38000060) || (0x38000080 ≤ a && a + n ≤ 0x38000100)))
  | 4 => core.isNone && !write && n = 4 && (a = Blk.base .sys 0 || a = SYS_LC_STAT.STATE.addr 0)
  | _ => true

/-- What keeps `n` bytes at `a` from a requester, if anything; `acc` as in `inWindows`. PCIe reaches the register range only (R33). -/
def Mach.accessErr (m : Mach) (w : Who) (core : Option Nat) (a n acc : Nat) : Option Resp :=
  if w.isDebug && !m.sessionMay core a n (acc = 1) then some .denied
  else if !(devAt a n || ((m.memAt core a n).isSome && w.req ≠ .pcie)) then some .unmapped
  else if !m.mayReach w core a n acc then some .denied
  else none

/-- A read of `n` bytes. -/
def Mach.busRead (m : Mach) (w : Who) (core : Option Nat) (a n : Nat) : Resp × Mach :=
  let observe := w.req = .debug false
  match m.accessErr w core a n 0 with
  | some e => (e, m)
  | none =>
    match m.memAt core a n with
    | some k =>
      if observe then
        let (ws, c) := wordsOf k n
        let bad := (List.range c).any (fun i => match SMap.get eccGood m.ecc (ws + i) with
          | .bad _ => true
          | _ => false)
        (if bad then .poisoned else .data (BitVec.ofNat 64 (m.peekNat k n)), m)
      else
        match m.load (Req.src w.req) k n with
        | (some bs, m) => (.data (BitVec.ofNat 64 (natOfBytes bs)), m)
        | (none, m) => (.poisoned, m)
    | none =>
      let (v, m) := m.readDev w observe a n
      (.data v, m)

/-- A write of `n` bytes. -/
def Mach.busWrite (m : Mach) (w : Who) (core : Option Nat) (a n : Nat) (v : W64) : Resp × Mach :=
  match m.accessErr w core a n 1 with
  | some e => (e, m)
  | none =>
    match m.memAt core a n with
    | some k =>
      let (bad, m) := m.store (Req.src w.req) k (bytesOfNat n v.toNat)
      (if bad then .poisoned else .written, m)
    | none => (.written, m.writeDev w a n v)

/-- Whether an access is one of the link: while the link's write waits at a mirror the link idles (R25, R493). -/
def Req.isLink : Req → Bool
  | .debug _ => true
  | _ => false

/-- A load of a core from a memory goes past its waiting stores (R360). -/
def Behind.passes (b : Behind) : Bool :=
  match b.req, b.write with
  | .reed _, none => b.addr < 0x30000000 || 0x40000000 ≤ b.addr
  | _, _ => false

/-- An access of `n` bytes at `a`, a write with its value or a read, with its answer recorded. An access of a requester whose write
waits at a mirror waits behind it (R25). -/
def Mach.access (m : Mach) (b : Behind) : Mach :=
  if m.reqWaits b.req && !b.passes then (if Req.isLink b.req then m else { m with behind := m.behind ++ [b], resp := .none })
  else
    let w := m.who b.req
    let (e, m) := match b.write with
      | some v => m.busWrite w (m.tcmCore w) b.addr b.n v
      | none => m.busRead w (m.tcmCore w) b.addr b.n
    { m with resp := e }

/-- A read and a write a command of the table makes. -/
def Mach.readBy (m : Mach) (r : Req) (a n : Nat) : Mach := m.access { req := r, write := none, addr := a, n := n }
def Mach.writeBy (m : Mach) (r : Req) (a n : Nat) (v : W64) : Mach := m.access { req := r, write := some v, addr := a, n := n }

/-- The writes that waited at mirror `x` land once the interlock is released, the link's with its answer, and what waited behind them
goes on in its requester's order (R25). -/
def Mach.waitingLand (m : Mach) (x : Nat) : Mach :=
  if (m.stage x).tapLock then m
  else
    let ws := (m.stage x).waiting
    let m := if ws = [] then m else ws.foldl (fun m p => m.mirrorLand x p) (m.setStage x { m.stage x with waiting := [] })
    let m := if ws.any (fun p => Req.isLink p.req) then { m with resp := .link 0 0 } else m
    m.behind.foldl (fun m b => m.access b) { m with behind := [] }

/-- A write of the register at `a` with a 32-bit value. -/
def Mach.writeReg32 (m : Mach) (r : Req) (a : Nat) (v : W32) : Mach := m.writeBy r a 4 (v.setWidth 64)

end Sys2Proof.Machine
end

