-- ==== Sys2Proof/Machine/Tapster.lean ====
section
/-! DEFINITION. The Tapster takes packets (R243 to R246, R250, R251, R278, R308) and runs the commands of the opcode families
(R252, R257 to R268). -/

namespace Sys2Proof.Machine

/-! ### Opcodes (R246, R259 to R267, R308) -/

/-- An opcode's target classes (bit 0 axes, 1 converters, 2 groups, 3 the device), whether it is marked H, and the shortest PLEN. -/
def vendorEntry (op : Nat) : Option (Nat × Bool × Nat) :=
  match op with
  | 0x000 => some (8, false, 0) | 0x001 => some (8, false, 5) | 0x002 => some (8, true, 12) | 0x003 => some (8, false, 0)
  | 0x00F => some (8, true, 32) | 0x010 => some (8, true, 12)
  | 0x100 => some (3, true, 4) | 0x101 => some (3, true, 0) | 0x102 => some (1, true, 16) | 0x103 => some (3, true, 20)
  | 0x104 => some (1, true, 4) | 0x105 => some (1, true, 32) | 0x106 => some (3, true, 32) | 0x107 => some (4, true, 21)
  | 0x200 => some (1, true, 8) | 0x201 => some (1, true, 16) | 0x202 => some (1, true, 36) | 0x203 => some (1, true, 20)
  | 0x204 => some (1, true, 4) | 0x208 => some (1, true, 0) | 0x209 => some (1, true, 0) | 0x20A => some (3, true, 0)
  | 0x20B => some (3, true, 0) | 0x20C => some (1, false, 0)
  | 0x300 => some (3, true, 12) | 0x301 => some (3, false, 4) | 0x302 => some (1, true, 1) | 0x303 => some (1, true, 8)
  | 0x400 => some (3, true, 16) | 0x401 => some (3, true, 1) | 0x402 => some (3, false, 0)
  | 0x500 => some (2, true, 16) | 0x501 => some (2, true, 8) | 0x502 => some (2, true, 8) | 0x503 => some (2, false, 0)
  | 0x600 => some (1, true, 32) | 0x601 => some (1, true, 0) | 0x602 => some (1, true, 52) | 0x603 => some (1, true, 12)
  | 0x604 => some (1, false, 1)
  | 0x700 => some (8, true, 2) | 0x701 => some (8, true, 5) | 0x702 => some (8, true, 4) | 0x703 => some (3, true, 0)
  | 0x704 => some (3, true, 0)
  | 0x800 => some (8, false, 18) | 0x801 => some (8, false, 24) | 0x802 => some (4, true, 0)
  | _ => none

/-- Whether a TARGET is of one of an opcode's classes. -/
def targetOk (tclass t : Nat) : Bool :=
  if t < 64 then bitOf tclass 0 else if t < 72 then bitOf tclass 1 else if 96 ≤ t && t < 112 then bitOf tclass 2
  else t = 1023 && bitOf tclass 3

/-- The entry of an opcode: of the families for 0x000 to 0x8FF, of the active bank's dispatch table from 0xC00 on (R308). -/
def Mach.entryOf (m : Mach) (op : Nat) : Option (Nat × Bool × Nat) :=
  if op < 0x900 then vendorEntry op
  else
    let e := SMap.get noWord (m.mbank m.mcActive).disp op
    if bitOf e 14 then some (bitsOf e 23 16, bitOf e 15, bitsOf e 29 24) else none

/-- Checks 1 to 4 of R246: none, or the status that ends the command. -/
def Mach.packetErr (m : Mach) (c : Ctx) (worldOk : Bool) : Option Nat :=
  if 0x900 ≤ c.op ∧ c.op < 0xC00 then none
  else
    match m.entryOf c.op with
    | none => some 0x10
    | some (cls, house, _) =>
      if !worldOk || (house && c.guest) then some 0x13
      else if !targetOk cls c.target then some 0x11 else none

/-! ### Taking a packet (R243 to R245, R250, R278) -/

/-- The 64 bytes of the entry at HEAD of queue `q`: of a host queue, what the PCIe host answers the read with; none: aborted. -/
def Mach.packetBytes (m : Mach) (q : Nat) (host : Option (List Byte)) : Option (List Byte) × Mach :=
  let a := m.qEntry q (m.qHead q)
  if m.flg QM_CFG.SPACE q then (host, m)
  else
    match m.memAt none a 64 with
    | none => (none, m)
    | some k => m.load srcQm k 64

/-- The words of a packet, parameter bytes from PLEN on zero (R244); of one for emulation as it came (R257). -/
def packetWords (bs : List Byte) : List Nat :=
  let h := natOfBytes (bs.take 8)
  let plen := if 0x900 ≤ bitsOf h 11 0 ∧ bitsOf h 11 0 < 0xC00 then 56 else min (bitsOf h 27 22) 56
  let bs := bs.take (8 + plen) ++ List.replicate (56 - plen) 0
  (List.range 16).map (fun i => natOfBytes (bs.drop (4 * i) |>.take 4))

/-- Whether a header carries a value R243 ignores. -/
def headReserved (h : Nat) : Bool :=
  bitsOf h 63 52 ≠ 0 || bitsOf h 51 50 ≠ 0 || bitsOf h 31 30 = 3 || 56 < bitsOf h 27 22

/-- Whether the Tapster may take a packet of queue `q`. -/
def Mach.mayTake (m : Mach) (q : Nat) : Bool :=
  m.flg TAP_MC_STAT.READY 0 && !m.flg TAP_MC_STAT.SWAP 0 && !m.flg DBG_STAT.TAPH 0 && m.fld TAP_CSTAT.INFLIGHT 0 < 256
    && m.flg QM_CFG.EN q && m.fld QM_CFG.KIND q = 0 && m.qFill q ≠ 0 && (!m.flg QM_CFG.SPACE q || m.flg OP_PCIE_STAT.UP 0)

/-- The Tapster takes the packet at HEAD of queue `q`, checks it, and puts it in a context of its own. -/
def Mach.packetTake (m : Mach) (q : Nat) (host : Option (List Byte)) : Mach :=
  match (List.range 256).find? (fun i => (m.ctx i).isNone) with
  | none => m
  | some i =>
    if !m.mayTake q then m
    else
      let (bytes, m) := m.packetBytes q host
      let m := m.setIdx q (m.qHead q + 1) (m.qTail q)
      match bytes with
      | none => (m.raise QM_STAT.MEM_ERR q).replyTo q (({} : Ctx).reply 0x3F 0 true [])
      | some bs =>
        let h := natOfBytes (bs.take 8)
        let ownerGuest := m.flg QM_CFG.OWNER q
        let c : Ctx := { q := q, guest := ownerGuest || bitOf h 48, taken := m.tap.taken, pkt := packetWords bs, bank := m.mcActive,
                         rsvw := headReserved h }
        let m := { m with tap := { m.tap with taken := m.tap.taken + 1 } }.setCtx i (some c)
        match m.packetErr c (!ownerGuest || bitOf h 48) with
        | some st => m.finish i st 0 []
        | none => m

/-! ### Starting a command (R251, R308) -/

/-- Whether an earlier command of its queue keeps a BARRIER command from starting. -/
def Mach.barred (m : Mach) (c : Ctx) : Bool :=
  c.barrier && m.tap.ctxs.any (fun e => match e.2 with
    | some d => e.1 < 256 && d.q = c.q && d.taken < c.taken && !d.final
    | none => false)

/-- The command of context `i` with opcode `op` starts and runs `f`, unless its PLEN is too short. -/
def Mach.starts (m : Mach) (i op : Nat) (f : Ctx → Mach → Mach) : Mach :=
  match m.ctx i with
  | none => m
  | some c =>
    if c.started || c.op ≠ op || m.flg DBG_STAT.TAPH 0 || m.barred c then m
    else
      match m.entryOf op with
      | none => m
      | some (_, _, minlen) =>
        if c.plen < minlen then m.badParam i 56
        else f { c with started := true } (m.setCtx i (some { c with started := true }))

/-- As `starts`, for a command that stages: it begins once the set of its target is free (R250). -/
def Mach.startsStage (m : Mach) (i op : Nat) (f : Ctx → Mach → Mach) : Mach :=
  match m.ctx i with
  | none => m
  | some c => if m.targetBusy i c then m else m.starts i op f

/-! ### Accesses and staging of the routines -/

/-- A Tapster access in a world. -/
def tapWho (guest : Bool) : Who := { req := .tapster guest, guest := guest, user := false }

/-- A register write by a House command. -/
def Mach.tapPut (m : Mach) (a : Nat) (v : Nat) : Mach := m.writeReg (tapWho false) a (BitVec.ofNat 32 v)

/-- Register writes in turn; after each `err` tells whether the block refused it. The first refusal's code, or 0. -/
def Mach.tapPuts (m : Mach) (err : Mach → Nat) : List (Nat × Nat) → Nat × Mach
  | [] => (0, m)
  | (a, v) :: ws =>
    let m := m.tapPut a v
    if err m ≠ 0 then (err m, m) else Mach.tapPuts m err ws

/-- Writes of words of block `x`, answered DONE with `res`, or refused with the slice's CFG_ERR (R248). Where no register stands nothing is
written and nothing refused. -/
def Mach.putsDone (m : Mach) (i x : Nat) (ws : List (Nat × Nat)) (res : List Byte) : Mach :=
  let (e, m) := m.tapPuts (fun m => m.fld AX_STATE.CFG_ERR x) (ws.filter (fun e => (cardAt e.1).isSome))
  if e ≠ 0 then m.refusedBy i e else m.done i res

/-- Words of the command's target are staged and its group closed, with the fence handling of R252. -/
def Mach.stageWords (m : Mach) (i : Nat) (ws : List (Nat × Nat)) : Mach :=
  match m.ctx i with
  | none => m
  | some c =>
    let x := c.target
    let g := m.pgOf x
    let m := (if c.fence = 1 then m.holdTake g else m).lockTake i x
    let m := ws.foldl (fun m e => m.mirrorPut x e.1 (BitVec.ofNat 32 e.2)) m
    let gen := m.closeGen x
    let m := (m.closeStage x c.tag).lockFree x
    let c := { c with closed := true, gen := gen, hold := if (m.tapHold g).isSome then some g else none }
    let m := m.setCtx i (some c)
    if c.fence = 2 then (m.holdFree g).2 else m

/-- Parameter words from offset `o` on, for mirror or register offsets. -/
def Ctx.words (c : Ctx) (o : Nat) : List Nat → List (Nat × Nat)
  | [] => []
  | a :: rest => (a, c.param o 4) :: c.words (o + 4) rest

/-- The word of a field's register as 4 bytes. -/
def Mach.w4 (m : Mach) (f : Fld) (x : Nat) : List Byte := bytesOfNat 4 (m.rg (f.addr x)).toNat

/-- RESULT from byte 24 on. -/
def res24 (bs : List Byte) : List Byte := bytesOfNat 8 0 ++ bs

/-! ### Housekeeping (R259) -/

def Mach.tapNop (m : Mach) (i : Nat) : Mach := m.starts i 0x000 (fun _ m =>
  m.done i (m.w4 SYS_IDENT.PART 0 ++ bytesOfNat 2 (m.mbank m.mcActive).version ++ bytesOfNat 1 (bit m.mcActive)))

/-- Reads of `n` words from `a` on, in a world: the bytes, or the status that ends the command. -/
def Mach.tapReads (m : Mach) (guest : Bool) (a : Nat) : Nat → Except Nat (List Byte) × Mach
  | 0 => (.ok [], m)
  | n + 1 =>
    match m.busRead (tapWho guest) none a 4 with
    | (.data v, m) =>
      (match Mach.tapReads m guest (a + 4) n with
      | (.ok bs, m) => (.ok (bytesOfNat 4 v.toNat ++ bs), m)
      | e => e)
    | (.denied, m) => (.error 0x13, m)
    | (_, m) => (.error 0x3F, m)

/-- Writes of the packet's words `ws` from `a` on: the status that ends the command, or 0. -/
def Mach.tapStores (m : Mach) (guest : Bool) (a : Nat) : List Nat → Nat × Mach
  | [] => (0, m)
  | v :: vs =>
    match m.busWrite (tapWho guest) none a 4 (BitVec.ofNat 64 v) with
    | (.written, m) => Mach.tapStores m guest (a + 4) vs
    | (.denied, m) => (0x13, m)
    | (_, m) => (0x3F, m)

/-- READ and WRITE: the offset of the first offending byte, or none. -/
def rwBad (a n : Nat) : Option Nat :=
  if a % 4 ≠ 0 ∨ a < 0x40000 then some 0 else if n = 0 ∨ 4 < n then some 4 else none

/-- Whether one of the words named lies outside what the world may reach. -/
def Mach.tapDenied (m : Mach) (guest : Bool) (a n acc : Nat) : Bool :=
  (List.range (min n 4)).any (fun k => m.accessErr (tapWho guest) none (a + 4 * k) 4 acc = some .denied)

def Mach.tapRead (m : Mach) (i : Nat) : Mach := m.starts i 0x001 (fun c m =>
  let a := c.param 0 4
  let n := c.param 4 1
  if m.tapDenied c.guest a n 0 then m.finish i 0x13 0 []
  else match rwBad a n with
    | some d => m.badParam i d
    | none =>
      match m.tapReads c.guest a n with
      | (.ok bs, m) => m.done i bs
      | (.error st, m) => m.finish i st 0 [])

def Mach.tapWriteOp (m : Mach) (i : Nat) : Mach := m.starts i 0x002 (fun c m =>
  let a := c.param 0 4
  let n := c.param 4 1
  match rwBad a n with
  | some d => m.badParam i d
  | none =>
    if c.plen < 8 + 4 * n then m.badParam i 56
    else
      match m.tapStores c.guest a ((List.range n).map (fun k => c.param (8 + 4 * k) 4)) with
      | (0, m) => m.done i []
      | (st, m) => m.finish i st 0 [])

def Mach.tapTime (m : Mach) (i : Nat) : Mach := m.starts i 0x003 (fun _ m => m.done i (bytesOfNat 8 (m.now / 64 * 64)))

/-- Whether an EMU_DONE names the emulated command `d`, which awaits its answer (R257). -/
def Ctx.names (c d : Ctx) : Bool :=
  d.started && !d.final && d.q = c.param 0 2 && d.tag = c.param 2 2 && d.op = c.param 4 2 && d.target = c.param 6 2
    && 0x900 ≤ d.op && d.op < 0xC00

/-- EMU_DONE completes the emulated command it names (R257). -/
def Mach.tapEmuDone (m : Mach) (i : Nat) : Mach := m.starts i 0x00F (fun c m =>
  let found := m.tap.ctxs.find? (fun e => match e.2 with
    | some d => e.1 < 256 && c.names d
    | none => false)
  match found with
  | none => m.badParam i 0
  | some (j, _) =>
    let s := c.param 8 1
    let s := if (0x10 ≤ s ∧ s ≤ 0x21) ∨ s = 0x3F then s else 0x30
    (m.finish j s 0 (bytesOfNat 16 (c.param 16 16))).done i [])

/-- MC_SWAP (R317). -/
def Mach.tapMcSwap (m : Mach) (i : Nat) : Mach := m.starts i 0x010 (fun c m =>
  if m.mcBusy then m.badParam i 62
  else
    let m := { m with tap := { m.tap with mc := some i } }
    if c.param 0 1 % 2 = 1 then
      let m := m.loadStart true (c.param 4 4) (c.param 8 4)
      if m.flg TAP_MC_STAT.LOAD 0 then m else m.mcAnswer 0x12 63
    else m.swapStart)

/-! ### Axis configuration (R260) -/

/-- ENABLE. A slice that stands enabled as the image says has nothing to wait for. -/
def Mach.tapEnable (m : Mach) (i : Nat) : Mach := m.starts i 0x100 (fun c m =>
  let x := c.target
  let a := Blk.base .sl x
  let w := c.param 0 4 ||| 2 ^ 31
  if m.en x ∧ (m.rg a).toNat = w then m.done i []
  else
    let m := m.tapPut a w
    let e := m.fld AX_STATE.CFG_ERR x
    if e ≠ 0 then m.refusedBy i e else m.accept i)

def Mach.tapDisable (m : Mach) (i : Nat) : Mach := m.starts i 0x101 (fun c m =>
  let x := c.target
  if !m.liveSlice x then m.done i []
  else
    let a := Blk.base .sl x
    let m := m.tapPut a ((m.rg a).toNat % 2 ^ 31)
    let e := m.fld AX_STATE.CFG_ERR x
    if m.en x ∧ e ≠ 0 then m.refusedBy i e else m.accept i)

def Mach.tapGeometry (m : Mach) (i : Nat) : Mach := m.starts i 0x102 (fun c m =>
  let b := Blk.base .sl c.target
  m.putsDone i c.target [(b + 0xC, c.param 4 4), (b + 8, c.param 0 4), (b + 0x10, c.param 8 1), (b + 0x14, c.param 12 4)] [])

def Mach.tapScales (m : Mach) (i : Nat) : Mach := m.starts i 0x103 (fun c m =>
  let b := Blk.base .sl c.target
  let two := [(b + 0x18, c.param 0 4), (b + 0x1C, c.param 4 4)]
  m.putsDone i c.target (if c.target < 64 then two ++ [(b + 0x20, c.param 8 4), (b + 0x24, c.param 12 4), (b + 0x2C, c.param 16 4)] else two) [])

def Mach.tapChain (m : Mach) (i : Nat) : Mach := m.startsStage i 0x104 (fun c m => m.stageWords i (c.words 0 [0xC004]))

def Mach.tapMap (m : Mach) (i : Nat) : Mach := m.startsStage i 0x105 (fun c m =>
  m.stageWords i (c.words 0 [0xC034, 0xC038, 0xC03C, 0xC040, 0xC044, 0xC048, 0xC04C, 0xC058]))

/-- TIMER writes GT_CTRL last. -/
def Mach.tapTimer (m : Mach) (i : Nat) : Mach := m.starts i 0x106 (fun c m =>
  let b := Blk.base .sl c.target + 0x4000
  m.putsDone i c.target ([(b + 4, c.param 4 4), (b + 8, c.param 8 4), (b + 0xC, c.param 12 4)]
    ++ (List.range (legsOf c.target)).map (fun l => (b + 0x10 + 4 * l, c.param (16 + 4 * l) 4)) ++ [(b, c.param 0 4)]) [])

def Mach.tapGroup (m : Mach) (i : Nat) : Mach := m.starts i 0x107 (fun c m =>
  let g := c.target - 96
  let b := Blk.base .pg g
  let hold := bit (m.flg TB_PG_CTRL.APPLY_HOLD g)
  let ctrl (on : Nat) : Nat := TB_PG_CTRL.EN.into (TB_PG_CTRL.APPLY_HOLD.into 0 hold) on |>.toNat
  let on := c.param 20 1 % 2
  let ws := (if on = 0 then [(b + 0x14, ctrl 0)] else []) ++ c.words 0 [b, b + 4, b + 8, b + 0xC, b + 0x10]
    ++ (if on = 1 then [(b + 0x14, ctrl 1)] else [])
  let (e, m) := m.tapPuts (fun m => m.fld TB_PG_STAT.CFG_ERR g) ws
  if e ≠ 0 then m.refusedBy i e else m.done i (res24 (bytesOfNat 1 (m.fld TB_PG_STAT.CFG_ERR g))))

/-! ### Motion (R254, R261) -/

/-- RESULT of a motion command: EVSTAMP, a tag, and byte 26. -/
def moveRes (stamp tag off : Nat) : List Byte := evBytes stamp (bytesOfNat 2 tag ++ bytesOfNat 1 off)

def Mach.tapMove (m : Mach) (i : Nat) : Mach := m.startsStage i 0x200 (fun c m =>
  let x := c.target
  let ph := m.fld AX_LIM_STAT.PHASE x
  if !m.en x then m.badParam i 62
  else if m.flg AX_GT_STAT.SHUT x then m.finish i 0x20 0 []
  else if ph = 3 ∨ ph = 4 then m.finish i 0x02 0 (res24 (bytesOfNat 1 ph))
  else m.stageWords i (c.words 0 [0xE040, 0xE044] ++ [(0xE058, c.tag)]))

def Mach.tapStream (m : Mach) (i : Nat) : Mach := m.startsStage i 0x201 (fun c m =>
  if !m.en c.target then m.badParam i 62 else m.stageWords i (c.words 0 [0xE040, 0xE044, 0xE048, 0xE04C]))

def Mach.tapLimits (m : Mach) (i : Nat) : Mach := m.startsStage i 0x202 (fun c m =>
  m.stageWords i (c.words 0 [0xE008, 0xE00C, 0xE010, 0xE014, 0xE018, 0xE01C, 0xE020, 0xE024, 0xE028]))

def Mach.tapStopCfg (m : Mach) (i : Nat) : Mach := m.startsStage i 0x203 (fun c m =>
  m.stageWords i (c.words 0 [0xE030, 0xE034, 0xE038, 0xE03C, 0xE060]))

def Mach.tapLimmode (m : Mach) (i : Nat) : Mach := m.startsStage i 0x204 (fun c m => m.stageWords i (c.words 0 [0xE000]))

def Mach.tapStop (m : Mach) (i : Nat) : Mach := m.starts i 0x208 (fun c m =>
  (m.stopAxis c.target false).accept i)

def Mach.tapRelease (m : Mach) (i : Nat) : Mach := m.starts i 0x209 (fun c m =>
  let ph := m.fld AX_LIM_STAT.PHASE c.target
  (m.limCmdWrite c.target 2).done i (res24 (bytesOfNat 1 ph)))

def Mach.tapShut (m : Mach) (i : Nat) : Mach := m.starts i 0x20A (fun c m =>
  let m := m.gtCmdWrite c.target 1
  m.done i (bytesOfNat 8 (m.fld AX_GT_SHSTAMP.STAMP c.target)))

def Mach.tapUnshut (m : Mach) (i : Nat) : Mach := m.starts i 0x20B (fun c m =>
  let x := c.target
  if !m.flg AX_GT_STAT.SHUT x then m.done i []
  else
    let blocked := m.releaseBlocked x
    let m := m.gtCmdWrite x 2
    if blocked then m.finish i 0x20 0 (res24 (bytesOfNat 2 (m.fld AX_GT_CAUSE.CAUSE x))) else m.accept i)

def Mach.tapStatus (m : Mach) (i : Nat) : Mach := m.starts i 0x20C (fun c m =>
  let x := c.target
  let top (f : Fld) : List Byte := bytesOfNat 1 ((m.readReg (f.addr x)).toNat / 2 ^ 24)
  m.done i (bytesOfNat 8 (m.fld AX_LIM_OUT_P.POS x) ++ bytesOfNat 2 (m.fld AX_LIM_TAG_A.ACTIVE x) ++ bytesOfNat 2 (m.fld AX_LIM_TAG_A.DONE x)
    ++ top AX_LIM_STAT.PHASE ++ top AX_GT_STAT.SHUT ++ top AX_STATE.RUN ++ top AX_OUT_FLAGS.V))

/-! ### Tuning (R262) -/

/-- Whether commissioning or adaptation keeps bank commands off axis `x` (R211). -/
def Mach.tuneBusy (m : Mach) (x : Nat) : Bool :=
  x < 64 && ((m.comm x).part ≠ 0 || m.flg AX_CM_ADAPT.NT_EN x || m.flg AX_CM_ADAPT.MI_EN x)

/-- Address of a bank's word. -/
def bankAddr (x : Nat) (b : Bool) (o : Nat) : Nat := Blk.base .sl x + (if b then 0x3000 else 0x2000) + o

def Mach.tapBankWr (m : Mach) (i : Nat) : Mach := m.starts i 0x300 (fun c m =>
  let x := c.target
  let o := c.param 0 2
  let n := c.param 2 1
  if o % 4 ≠ 0 ∨ 0xFC < o then m.badParam i 0
  else if n = 0 ∨ 12 < n ∨ 0x100 < o + 4 * n then m.badParam i 2
  else if c.plen < 8 + 4 * n then m.badParam i 56
  else if m.tuneBusy x then m.badParam i 62
  else
    let b := !m.activeBank x
    m.putsDone i x ((List.range n).map (fun k => (bankAddr x b (o + 4 * k), c.param (8 + 4 * k) 4))) [])

def Mach.tapBankRd (m : Mach) (i : Nat) : Mach := m.starts i 0x301 (fun c m =>
  let x := c.target
  let o := c.param 0 2
  let n := c.param 3 1
  if o % 4 ≠ 0 ∨ 0xFC < o then m.badParam i 0
  else if 1 < c.param 2 1 ∨ 0x100 < o + 4 * n then m.badParam i 2
  else if n = 0 ∨ 4 < n then m.badParam i 3
  else
    let b := (m.activeBank x).xor (c.param 2 1 = 1)
    m.done i ((List.range n).flatMap (fun k => bytesOfNat 4 (m.readReg (bankAddr x b (o + 4 * k))).toNat)))

def Mach.tapSwap (m : Mach) (i : Nat) : Mach := m.startsStage i 0x302 (fun c m =>
  if m.tuneBusy c.target then m.badParam i 62
  else m.stageWords i [(0xE080, 2 ^ 31 + c.param 0 1 % 4)])

def Mach.tapIref (m : Mach) (i : Nat) : Mach := m.startsStage i 0x303 (fun c m => m.stageWords i (c.words 0 [0xC050, 0xC054]))

/-! ### Trace (R263) -/

def Mach.tapTrcCfg (m : Mach) (i : Nat) : Mach := m.starts i 0x400 (fun c m =>
  let b := Blk.base .sl c.target + 0xA000
  let m := ((m.tapPut (b + 4) (c.param 4 4)).tapPut (b + 8) (c.param 8 4)).tapPut (b + 0x10) (c.param 12 4)
  (m.tapPut b (c.param 0 4)).done i [])

def Mach.tapTrcTrig (m : Mach) (i : Nat) : Mach := m.starts i 0x401 (fun c m =>
  let x := c.target
  let a := Blk.base .sl x + 0xA000
  let m := m.tapPut a (AX_TRC_CTRL.SWTRIG.into (m.rg a) 1).toNat
  if c.param 0 1 % 2 = 0 then m.done i (res24 (m.w4 AX_TRC_WPTR.WPTR x)) else m.accept i)

def Mach.tapTrcStat (m : Mach) (i : Nat) : Mach := m.starts i 0x402 (fun c m =>
  m.done i (res24 (m.w4 AX_TRC_STAT.DONE c.target ++ m.w4 AX_TRC_WPTR.WPTR c.target)))

/-! ### Energy and bus (R264) -/

def Mach.tapBusSet (m : Mach) (i : Nat) : Mach := m.startsStage i 0x500 (fun c m => m.stageWords i (c.words 0 [0xE000, 0xE008, 0xE010, 0xE014]))

def Mach.tapBroker (m : Mach) (i : Nat) : Mach := m.starts i 0x501 (fun c m =>
  let b := Blk.base .sl c.target
  ((m.tapPut (b + 0x6080) (c.param 0 4)).tapPut (b + 0x6084) (c.param 4 4)).done i [])

def Mach.tapStore (m : Mach) (i : Nat) : Mach := m.startsStage i 0x502 (fun c m => m.stageWords i (c.words 0 [0xE01C, 0xE020]))

def Mach.tapBusStat (m : Mach) (i : Nat) : Mach := m.starts i 0x503 (fun c m =>
  let x := c.target
  m.done i (m.w4 CV_BRK_STAT.RUN x ++ m.w4 CV_PRED.MANT x ++ m.w4 AX_OUT_IQ.MANT x ++ m.w4 AX_OUT_ID.MANT x))

/-! ### Commissioning (R265) -/

def Mach.tapCmStart (m : Mach) (i : Nat) : Mach := m.starts i 0x600 (fun c m =>
  let x := c.target
  let b := Blk.base .sl x + 0x6400
  let seq := c.param 0 1
  if seq = 0 ∨ 6 < seq then m.badParam i 0
  else if 7 < c.param 1 1 then m.badParam i 1
  else if 3 < c.param 2 1 then m.badParam i 2
  else
    let m := (c.words 4 [b + 8, b + 0xC, b + 0x10, b + 0x14, b + 0x18, b + 0x20, b + 0x24]).foldl (fun m e => m.tapPut e.1 e.2) m
    let m := m.cmGo x true seq (c.param 1 1) (c.param 2 1) (some c.tag)
    if m.fld AX_CM_STAT.ST x = 6 then m.refusedBy i (m.fld AX_CM_STAT.CAUSE x) else m.accept i)

def Mach.tapCmAbort (m : Mach) (i : Nat) : Mach := m.starts i 0x601 (fun c m =>
  let m := m.cmUserAbort c.target
  m.done i (res24 (bytesOfNat 1 (m.fld AX_CM_STAT.ST c.target))))

def Mach.tapCmPolicy (m : Mach) (i : Nat) : Mach := m.starts i 0x602 (fun c m =>
  let b := Blk.base .sl c.target + 0x6500
  ((c.words 0 [b, b + 4, b + 8, b + 0xC, b + 0x10, b + 0x14, b + 0x18, b + 0x1C, b + 0x20, b + 0x24, b + 0x28, b + 0x2C, b + 0x30]).foldl
    (fun m e => m.tapPut e.1 e.2) m).done i [])

def Mach.tapCmAdapt (m : Mach) (i : Nat) : Mach := m.starts i 0x603 (fun c m =>
  let x := c.target
  let b := Blk.base .sl x
  let m := ((m.tapPut (b + 0x6544) (c.param 4 4)).tapPut (b + 0x6550) (c.param 8 4)).tapPut (b + 0x6540) (c.param 0 4)
  if bitOf (c.param 0 4) 31 && !m.flg AX_CM_ADAPT.NT_EN x then m.refusedBy i (m.fld AX_CM_STAT.CAUSE x) else m.done i [])

def Mach.tapCmResult (m : Mach) (i : Nat) : Mach := m.starts i 0x604 (fun c m =>
  let x := c.target
  let k := c.param 0 1
  if 5 < k then m.badParam i 0
  else if k = 0 then m.done i (m.w4 AX_CM_J.MANT x ++ m.w4 AX_CM_B.MANT x ++ m.w4 AX_CM_C.MANT x ++ m.w4 AX_CM_G.MANT x)
  else if k = 5 then m.done i (m.w4 AX_CM_FV.V x ++ m.w4 AX_CM_PM.MANT x ++ m.w4 AX_CM_GM.MANT x)
  else
    let d := 16 * (k - 1)
    m.done i (m.w4 (AX_CM_RES_F.V.sh d) x ++ m.w4 (AX_CM_RES_ZETA.MANT.sh d) x ++ m.w4 (AX_CM_RES_PEAK.MANT.sh d) x))

/-! ### Calibration and diagnostics (R266) -/

/-- RESULT of CAL: CB_CAL_STAT and STEPS. -/
def Mach.calRes (m : Mach) (b : Nat) : List Byte := res24 (m.w4 CB_CAL_STAT.SLOT b ++ bytesOfNat 2 (m.fld CB_CAL_CNT.STEPS b))

def Mach.tapCal (m : Mach) (i : Nat) : Mach := m.starts i 0x700 (fun c m =>
  let b := c.param 0 1
  let cmd := c.param 1 1
  if 15 < b then m.badParam i 0
  else if cmd = 0 ∨ 3 < cmd then m.badParam i 1
  else if !m.spareReady b then m.badParam i 62
  else
    let m := m.calCmdWrite b cmd
    if cmd = 3 then m.done i (m.calRes b) else m.accept i)

/-- INJECT; the TAG of the request is a free value. -/
def Mach.tapInject (m : Mach) (i : Nat) : Mach := m.starts i 0x701 (fun c m =>
  let b := c.param 0 1
  if 15 < b then m.badParam i 0
  else if 15 < c.param 1 1 then m.badParam i 1
  else if 15 < c.param 4 1 then m.badParam i 4
  else
    let (tag, m) := m.draw
    (m.accept i).injAsk b (c.param 3 1 % 2 = 1) (c.param 4 1) { src := c.param 1 1, cmp := c.param 2 1, tag := tag % 256, use := 16 + i })

def Mach.tapCmpChk (m : Mach) (i : Nat) : Mach := m.starts i 0x702 (fun c m =>
  let k := c.param 0 1
  if c.param 1 1 = 0 ∨ 3 < c.param 1 1 then m.badParam i 1
  else if 1 < c.param 2 1 then m.badParam i 2
  else if 15 < c.param 3 1 then m.badParam i 3
  else (m.checkAsk k (c.param 1 1) (if c.param 2 1 = 1 then some (c.param 3 1) else none)).accept i)

def Mach.tapSliceReset (m : Mach) (i : Nat) : Mach := m.starts i 0x703 (fun c m => (m.sliceReset c.target).accept i)

/-- STICKY reads and clears AX_STICKY and the counts of AX_DL_STAT (R152). -/
def Mach.tapSticky (m : Mach) (i : Nat) : Mach := m.starts i 0x704 (fun c m =>
  let b := Blk.base .sl c.target
  let (s, m) := m.readWord (tapWho false) false (b + 0x8000)
  let (d, m) := m.readWord (tapWho false) false (b + 0x8084)
  m.done i (res24 (bytesOfNat 4 s.toNat ++ bytesOfNat 4 d.toNat)))

/-! ### Coordination and vision triggers (R267) -/

/-- TRIG_AT: 1 ns is 16 vn. -/
def Mach.tapTrigAt (m : Mach) (i : Nat) : Mach := m.starts i 0x800 (fun c m =>
  let o := c.param 0 1
  let t := c.param 8 8
  let w := c.param 16 2
  if 15 < o then m.badParam i 0
  else if t < m.now + 16000 then m.badParam i 8
  else if w < 8 then m.badParam i 16
  else
    match m.visSchedule o t (16 * w) with
    | (false, m) => m.badParam i 62
    | (true, m) => m.accept i)

/-- WINDOW writes the bounds, then the control image with EN = 1. -/
def Mach.tapWindow (m : Mach) (i : Nat) : Mach := m.starts i 0x801 (fun c m =>
  let w := c.param 0 1
  let v : W32 := BitVec.ofNat 32 (c.param 4 4 ||| 2 ^ 31)
  if c.guest && TB_TW_CTRL.ACT.of v = 2 then m.finish i 0x13 0 []
  else if 63 < w then m.badParam i 0
  else
    let b := Blk.base .tw w
    let m := (c.words 8 [b + 8, b + 0xC, b + 0x10, b + 0x14]).foldl (fun m e => m.tapPut e.1 e.2) (m.accept i)
    m.windowCtrlWrite w v)

def Mach.tapBatchRel (m : Mach) (i : Nat) : Mach := m.starts i 0x802 (fun c m =>
  let g := c.target - 96
  match m.holdFree g with
  | (false, m) => m.done i []
  | (true, m) => (m.setCtx i (some { c with note := (m.group g).kA })).accept i)

/-! ### Emulated and customer opcodes (R257, R258, R308) -/

/-- The packet of an emulated command is posted whole, with SRCQ, as two entries of the emulation queue. -/
def Mach.emulated (m : Mach) (i : Nat) : Mach :=
  match m.ctx i with
  | none => m
  | some c =>
    if c.started || !(0x900 ≤ c.op && c.op < 0xC00) || m.flg DBG_STAT.TAPH 0 || m.barred c then m
    else if !m.flg TAP_EMUQ.EN 0 then m.finish i 0x10 0 []
    else
      let q := m.fld TAP_EMUQ.QUEUE 0
      if !m.outReady q 2 then (m.raise TAP_CSTAT.EDROP 0).finish i 0x10 62 []
      else
        let ws := c.pkt.set 1 (putBits (c.pkt.getD 1 0) 31 20 c.q)
        let bs := ws.flatMap (bytesOfNat 4)
        ((m.append q (bs.take 32)).append q (bs.drop 32)).setCtx i (some { c with started := true })

/-- A customer opcode's routine starts at its dispatch entry (R300, R308). -/
def Mach.guestOpcode (m : Mach) (i : Nat) : Mach :=
  match m.ctx i with
  | none => m
  | some c =>
    if c.started || c.op < 0xC00 || m.flg DBG_STAT.TAPH 0 || m.barred c then m
    else
      let e := SMap.get noWord (m.mbank c.bank).disp c.op
      if c.plen < bitsOf e 29 24 then m.badParam i 56
      else m.setCtx i (some { c with started := true, micro := true, pc := bitsOf e 13 0 })

end Sys2Proof.Machine
end

