-- ==== Sys2Proof/Machine/Sequencer.lean ====
section
/-! DEFINITION. The micro sequencer (R300 to R310), and what the Tapster's contexts wait for (R250, R254 to R256, R306). -/

namespace Sys2Proof.Machine

/-! ### Micro-words and nano-words (R302, R303) -/

/-- A micro-word with its nano-word. -/
structure Micro where
  seq : Nat
  arg : Nat
  nano : Nat
  deriving DecidableEq, Repr

def Micro.f (u : Micro) (hi lo : Nat) : Nat := bitsOf u.nano hi lo
def Micro.xop (u : Micro) : Nat := u.f 62 59

/-- The step context `c` is about to make. -/
def Mach.microOf (m : Mach) (c : Ctx) : Micro :=
  let b := m.mbank c.bank
  let w := SMap.get noWord b.micro c.pc
  { seq := bitsOf w 23 21, arg := bitsOf w 9 0, nano := SMap.get noWord b.nano (bitsOf w 20 10) }

/-- A work register. -/
def Ctx.tr (c : Ctx) (r : Nat) : W32 := SMap.get (fun _ => 0) c.t (r % 32)
def Ctx.setT (c : Ctx) (r : Nat) (v : W32) : Ctx := { c with t := SMap.set (fun _ => 0) c.t (r % 32) v }
def Ctx.pw (c : Ctx) (k : Nat) : W32 := BitVec.ofNat 32 (c.pkt.getD k 0)

/-- Operands A and B. -/
def Ctx.opA (c : Ctx) (u : Micro) : W32 := if u.f 79 79 = 1 then c.pw (u.f 76 73) else c.tr (u.f 95 91)
def Ctx.opB (c : Ctx) (u : Micro) : W32 :=
  match u.f 78 77 with
  | 0 => c.tr (u.f 90 86)
  | 1 => BitVec.ofNat 32 (u.f 159 128)
  | 2 => if u.seq = 1 ∨ u.seq = 2 then 0 else BitVec.ofNat 32 u.arg
  | _ => c.pw (u.f 76 73)

/-- Whether a condition holds (R304). -/
def Ctx.cond (c : Ctx) (k : Nat) : Bool :=
  match k with
  | 0 => true
  | 1 => c.z
  | 2 => !c.z
  | 3 => c.c
  | 4 => !c.c
  | 5 => c.n
  | 6 => !c.n
  | 7 => c.v
  | 8 => c.xerr
  | 9 => !c.xerr
  | _ => c.guest

/-- The ALU (R304); `k` tells whether COND holds. -/
def microAlu (op : Nat) (a b mask : W32) (k : Bool) : W32 :=
  match op with
  | 0 => a
  | 1 => b
  | 2 => a + b
  | 3 => a - b
  | 4 => a &&& b
  | 5 => a ||| b
  | 6 => a ^^^ b
  | 7 => a <<< (b.toNat % 32)
  | 8 => a >>> (b.toNat % 32)
  | 9 => a.sshiftRight (b.toNat % 32)
  | 10 => (a &&& ~~~mask) ||| (b &&& mask)
  | 11 => (a >>> (b.toNat % 32)) &&& mask
  | 12 => a * b
  | 13 => 0
  | _ => if k then a else b

/-- The flags after operation `op` with result `r`; C and V of an operation R304 does not name are bits of a free value. -/
def Ctx.flags (c : Ctx) (op : Nat) (a b r : W32) (free : Nat) : Ctx :=
  let r := if op = 13 then a - b else r
  let carry : Bool := if op = 2 then 2 ^ 32 ≤ a.toNat + b.toNat else if op = 3 ∨ op = 13 then b.toNat ≤ a.toNat else bitOf free 0
  let ovf : Bool := if op = 2 then a.msb = b.msb && r.msb ≠ a.msb
    else if op = 3 ∨ op = 13 then a.msb ≠ b.msb && r.msb ≠ a.msb else bitOf free 1
  { c with z := r = 0, n := r.msb, c := carry, v := ovf }

/-! ### Faults seen before a step (R303, R304, R305, R309) -/

/-- The cause of a micro fault the words themselves make, or 0. -/
def wordFault (c : Ctx) (u : Micro) : Nat :=
  if u.f 35 0 ≠ 0 || u.f 72 69 = 15 || 11 ≤ u.f 67 64 || 11 ≤ u.xop || 14 ≤ u.f 54 50 || ((u.xop = 9 || u.xop = 10) && 0x3000 ≤ c.pc) then 1
  else if u.f 58 58 = 1 && u.f 57 55 < 4 then 2 else 0

/-- The next address, a return stack, and 0, or the cause of a fault (R302, R309). -/
def Ctx.next (c : Ctx) (u : Micro) : Nat × List Nat × Nat :=
  let guestPc : Bool := 0x3000 ≤ c.pc
  let inGuest (a : Nat) : Bool := 0x3000 ≤ a
  let seqN := (c.pc + 1) % 0x4000
  let disp := ((c.pc + u.arg + (if u.arg < 512 then 0 else 0x4000 - 1024)) % 0x4000)
  let tgt := u.f 49 36
  let k := c.cond (u.f 67 64)
  let go (a : Nat) : Nat × List Nat × Nat := (a, c.stack, if guestPc && !inGuest a then 4 else 0)
  match u.seq with
  | 0 => (seqN, c.stack, 0)
  | 1 => go disp
  | 2 => go (if k then disp else seqN)
  | 3 =>
    if guestPc && !(inGuest tgt || tgt < 0x100) then (tgt, c.stack, 4)
    else if 4 ≤ c.stack.length then (tgt, c.stack, 3) else (tgt, seqN :: c.stack, 0)
  | 4 =>
    (match c.stack with
    | [] => (seqN, [], 3)
    | a :: st => (a, st, if guestPc && !inGuest a then 4 else 0))
  | 5 => go (if k then tgt else seqN)
  | _ => (seqN, c.stack, 0)

/-! ### External operations (R305, R307) -/

/-- RESULT of a context's reply buffer. -/
def Ctx.result (c : Ctx) : List Byte := [4, 5, 6, 7].flatMap (fun k => bytesOfNat 4 (SMap.get (fun _ => 0) c.y k).toNat)

/-- A refused or unmapped access ends the command (R305); an interlock it holds is released as after a fault. -/
def Mach.microEnds (m : Mach) (i st : Nat) : Mach :=
  match m.ctx i with
  | none => m
  | some c => ((m.lockAbort c).finish i st 0 []).setCtx i none

/-- Status bytes a reply may carry (R248). -/
def statusKnown (s : Nat) : Bool := s ≤ 3 || (0x10 ≤ s && s ≤ 0x13) || s = 0x20 || s = 0x21 || s = 0x30 || s = 0x3F

/-- The outcome of a step's external operation. -/
inductive XDone where
  | ok
  | fault (cause : Nat)
  | ended
  deriving DecidableEq, Repr

/-- A read into D (and D + 1) of `n` bytes at `r`. -/
def Mach.xopLoad (m : Mach) (i : Nat) (c : Ctx) (d r n : Nat) : XDone × Mach :=
  match m.busRead (tapWho c.guest) none r n with
  | (.data v, m) =>
    let c := c.setT d (v.setWidth 32)
    (.ok, m.setCtx i (some (if n = 8 then c.setT (d + 1) ((v >>> 32).setWidth 32) else c)))
  | (.denied, m) => (.ended, m.microEnds i 0x13)
  | (_, m) => (.ended, m.microEnds i 0x3F)

/-- A write of `n` bytes at `r`; the address is kept for events that name no unit. -/
def Mach.xopStore (m : Mach) (i : Nat) (c : Ctx) (r n : Nat) (v : W64) : XDone × Mach :=
  match m.busWrite (tapWho c.guest) none r n v with
  | (.written, m) => (.ok, m.setCtx i (some { c with note := r }))
  | (.denied, m) => (.ended, m.microEnds i 0x13)
  | (_, m) => (.ended, m.microEnds i 0x3F)

/-- The external operation `x` of context `i` with ALU result `r` and data registers from `d`. -/
def Mach.xopDo (m : Mach) (i : Nat) (c : Ctx) (x d r : Nat) : XDone × Mach :=
  let t := c.target
  let base := Blk.base .sl t
  let pair : W64 := (c.tr d).setWidth 64 ||| (c.tr (d + 1)).setWidth 64 <<< 32
  match x with
  | 1 => m.xopLoad i c d r 4
  | 2 => m.xopStore i c r 4 ((c.tr d).setWidth 64)
  | 3 => m.xopLoad i c d r 8
  | 4 => m.xopStore i c r 8 pair
  | 5 =>
    if 256 ≤ i || 72 ≤ t || r < base + 0xC000 || base + 0xFF80 ≤ r then (.fault 9, m)
    else if c.guest then (.ended, m.microEnds i 0x13)
    else if r % 4 ≠ 0 then (.ended, m.microEnds i 0x3F)
    else
      let first := c.lock.isNone
      let m := if first && c.fence = 1 then m.holdTake (m.pgOf t) else m
      let m := if first then m.lockTake i t else m
      let m := m.mirrorPut t (r - base) (c.tr d)
      (.ok, m.setCtx i (some { c with lock := some t, wrote := (r - base) :: c.wrote }))
  | 6 =>
    if 256 ≤ i || 72 ≤ t then (.fault 9, m)
    else if c.guest then (.ended, m.microEnds i 0x13)
    else
      let gen := m.closeGen t
      let m := (m.closeStage t c.tag).lockFree t
      let c : Ctx := { c with
        lock := none, wrote := [], closed := true, gen := gen, need := none
        hold := if (m.tapHold (m.pgOf t)).isSome then some (m.pgOf t) else none }
      let m := m.setCtx i (some c)
      (.ok, if c.fence = 2 then (m.holdFree (m.pgOf t)).2 else m)
  | 7 =>
    let st := r % 256
    let det := bitsOf r 13 8
    if c.final then (.fault 7, m)
    else if !statusKnown st then (.fault 10, m.finish i 0x3F 0 c.result)
    else
      let m := m.setCtx i (some { c with status := st, detail := det })
      if st = 1 then (.ok, m.acceptWith i det c.result) else (.ok, m.finish i st det c.result)
  | 8 =>
    if c.guest then (.fault 9, m)
    else
      let q := r % 4096
      let m' := m.setCtx i (some { c with xerr := !m.outReady q 1 })
      (.ok, if m.fld QM_CFG.KIND q = 1 then m'.deliver { queue := q, bytes := c.reply c.status c.detail c.final c.result } else m')
  | _ => (.ok, m)

/-! ### A step (R301, R307) -/

/-- Whether a context makes steps: it runs micro-words, waits for nothing, and no halt freezes it (R507). -/
def Mach.stepping (m : Mach) (c : Ctx) : Bool :=
  c.micro && c.wev.isNone && (!m.flg DBG_STAT.TAPH 0 || c.lock.isSome)

/-- Whether a STAGE or CLOSE has to wait for the set of its target (R25, R250). -/
def Mach.stageWaits (m : Mach) (i : Nat) (c : Ctx) (x : Nat) : Bool :=
  (x = 5 || x = 6) && i < 256 && c.target < 72 && c.lock.isNone && m.targetBusy i c

/-- The end of a context (R307): without a final reply it is a fault; INIT's end is the swap's (R315, R316). -/
def Mach.microEnd (m : Mach) (i u : Nat) : Mach :=
  if 256 ≤ i then m.initEnd true
  else
    match m.ctx i with
    | none => m
    | some c => if !c.final then m.microFault i 6 u else (m.lockAbort c).setCtx i none

/-- A fault of context `i`; one in INIT ends the swap too. -/
def Mach.stepFault (m : Mach) (i cause u : Nat) : Mach :=
  let m := m.microFault i cause u
  if 256 ≤ i then (m.setCtx i (some {})).initEnd false else m

/-- Whether GUARD lets a step act (R303). -/
def Ctx.acts (c : Ctx) (u : Micro) : Bool := u.f 63 63 = 0 || c.cond (u.f 67 64)

/-- The external operation a step starts: none where GUARD holds it back. -/
def Ctx.starting (c : Ctx) (u : Micro) : Nat := if c.acts u then u.xop else 0

/-- Whether context `i` is ready for a step (R301): it makes steps, no STAGE or CLOSE of it has to wait, and its next step is none
the spec leaves to the vendor. -/
def Mach.ctxReady (m : Mach) (i : Nat) (c : Ctx) : Bool :=
  let u := m.microOf c
  let x := c.starting u
  m.stepping c && (wordFault c u ≠ 0 || (!m.stageWaits i c x && x ≠ 9 && x ≠ 10))

/-- Whether the rotation gives context `i` the next step (R301): the one that has it, up to 16 steps, or the next ready one after
it. -/
def Mach.hasTurn (m : Mach) (i : Nat) : Bool :=
  let ready := m.tap.ctxs.filterMap (fun e => match e.2 with
    | some c => if m.ctxReady e.1 c then some e.1 else none
    | none => none)
  let next := (ready.find? (fun j => m.tap.last < j)).or ready.head?
  ready.contains i && ((i = m.tap.last && m.tap.run < 16) || next = some i)

/-- Context `i` has made a step (R301). -/
def Mach.turnTaken (m : Mach) (i : Nat) : Mach :=
  let run := if i = m.tap.last && m.tap.run < 16 then m.tap.run + 1 else 1
  { m with tap := { m.tap with last := i, run := run } }

/-- One micro-step of context `i`, if it is its turn and its external operation is one of `xs`. -/
def Mach.microStep (m : Mach) (i : Nat) (xs : List Nat) : Mach :=
  match m.ctx i with
  | none => m
  | some c =>
    let u := m.microOf c
    let w := wordFault c u
    if !m.hasTurn i || !(xs.contains (c.starting u) || (w ≠ 0 && xs.contains 0)) then m
    else if w ≠ 0 then (m.turnTaken i).stepFault i w c.pc
    else
      let m := m.turnTaken i
      let a := c.opA u
      let b := c.opB u
      let k := c.cond (u.f 67 64)
      let acts := c.acts u
      let r := microAlu (u.f 72 69) a b (BitVec.ofNat 32 (u.f 127 96)) k
      let (free, m) := m.draw
      let c1 := if acts && u.f 80 80 = 1 then c.setT (u.f 85 81) r else c
      let c1 := if acts && u.f 68 68 = 1 then c1.flags (u.f 72 69) a b r free else c1
      let c1 := if acts && u.f 58 58 = 1 then { c1 with y := SMap.set (fun _ => 0) c1.y (u.f 57 55) r } else c1
      let c1 := { c1 with steps := c1.steps + 1 }
      let m := m.setCtx i (some c1)
      let (x, m) := if acts then m.xopDo i c1 u.xop (u.f 85 81) r.toNat else (.ok, m)
      match x with
      | .ended => m
      | .fault e => m.stepFault i e c.pc
      | .ok =>
        match m.ctx i with
        | none => m
        | some c2 =>
          let (pc, stack, e) := c2.next u
          if e ≠ 0 then m.stepFault i e c.pc
          else if u.seq = 7 then m.microEnd i c.pc
          else if u.seq ≠ 6 && i < 256 && 0xC00 ≤ c2.op && 65536 ≤ c2.steps then m.stepFault i 5 c.pc
          else if 256 ≤ i && 100000 < c2.steps then m.initEnd false
          else if u.seq = 6 then m.setCtx i (some { c2 with pc := pc, stack := stack, steps := 0, wev := some (u.f 54 50), ready := none })
          else m.setCtx i (some { c2 with pc := pc, stack := stack })

/-- Whether the next step of context `i` is a vendor operation, 9 or 10, whose action the spec leaves to the vendor (R305). -/
def Mach.vendorXop (m : Mach) (i : Nat) : Bool :=
  match m.ctx i with
  | none => false
  | some c =>
    let u := m.microOf c
    m.stepping c && wordFault c u = 0 && (c.starting u = 9 || c.starting u = 10)

/-- A waiting context goes on once its event has occurred (R306); event 3 is the time itself. -/
def Mach.contextResume (m : Mach) (i : Nat) : Mach :=
  match m.ctx i with
  | none => m
  | some c =>
    if m.flg DBG_STAT.TAPH 0 then m
    else
      let go (m : Mach) (x : Bool) (v : W32) (s : Stamp) : Mach :=
        m.setCtx i (some { ((c.setT 29 v).setT 30 (BitVec.ofNat 32 s)).setT 31 (BitVec.ofNat 32 (s / 2 ^ 32)) with
          wev := none, ready := none, xerr := x })
      match c.wev, c.ready with
      | some 3, none =>
        let s := (c.tr 30).toNat + 2 ^ 32 * (c.tr 31).toNat
        go (m.until s) false 0 s
      | some _, some (x, v, s) => go m x v s
      | _, _ => m

/-! ### What happened to waiting commands (R254 to R256) -/

/-- RESULT with byte 26 of a command whose slice was disabled. -/
def Mach.offEnds (m : Mach) (i : Nat) (stamp : Stamp) : Mach := m.finish i 0x02 0 (moveRes stamp 0 1)

/-- The MOVE a limiter record of axis `x` with tag `tag` belongs to (R256): the oldest in flight that has had none. -/
def Mach.moveFor (m : Mach) (x tag : Nat) : Option Nat :=
  (m.tap.ctxs.foldl (fun (o : Option (Nat × Nat)) e => match e.2 with
    | some d =>
      if d.op = 0x200 && !d.micro && d.started && !d.final && d.target = x && d.tag = tag && d.note % 4 = 0
          && o.all (fun p => d.taken < p.1) then some (d.taken, e.1) else o
    | none => o) none).map (·.2)

/-- Whether a commit fence just made is of a period that uses the group context `c` applied. -/
def Mach.usesGroup (m : Mach) (c : Ctx) : Bool :=
  match c.need with
  | some k => k + 1 ≤ (m.group (m.pgOf c.target)).kC
  | none => false

/-- Notes what a limiter record (R256) or, once its group is applied, an escalation means for the MOVE of context `i`: bit 0 arrived,
bit 1 given up (the tag in force above), bit 2 escalated; and whether the limiter acted. -/
def Mach.moveNote (m : Mach) (c : Ctx) (kind v : Nat) : Ctx :=
  if kind = 5 ∧ c.need.isSome then { c with note := c.note ||| 4 }
  else if kind = 12 ∧ m.usesGroup c then { c with limited := true }
  else if kind = 2 ∧ v / 2 ^ 32 = c.tag then
    match v % 2 ^ 16 with
    | 0 => { c with note := c.note ||| 1 }
    | 1 => { c with note := c.note % 2 ^ 16 ||| 2 ||| 2 ^ 16 * (v / 2 ^ 16 % 2 ^ 16) }
    | _ => c
  else c

/-- A commit fence of the group of context `i`'s target decides its MOVE (R254, R256): a record of its tag at any time; what happens to
the axis once its group is applied; the mode once a period has used the group, or where it changed since. -/
def Mach.moveCommit (m : Mach) (i : Nat) (c : Ctx) (stamp : Stamp) : Mach :=
  let x := c.target
  let ph := m.fld AX_LIM_STAT.PHASE x
  let seg := (m.slice x).dyn.lim.mode = 1
  if c.need.isSome && !m.liveSlice x then m.offEnds i stamp
  else if bitOf c.note 2 then m.finish i 0x21 0 (moveRes stamp 0 0)
  else if c.need.isSome && m.flg AX_GT_STAT.SHUT x then m.finish i 0x20 0 (moveRes stamp 0 0)
  else if bitOf c.note 0 then m.finish i (if c.limited then 3 else 0) 0 (moveRes stamp 0 0)
  else if bitOf c.note 1 then m.finish i 2 0 (moveRes stamp (c.note / 2 ^ 16) 0)
  else if c.need.isSome && (ph = 3 || ph = 4 || (!seg && (bitOf c.note 3 || m.usesGroup c))) then m.finish i 2 0 (moveRes stamp 0 0)
  else m

/-- A commit fence decides the STREAM of context `i`: the first period that used its sample (R261); an axis without a limiter has
none that could be unlocked. -/
def Mach.streamCommit (m : Mach) (i : Nat) (c : Ctx) : Mach :=
  let x := c.target
  if !m.liveSlice x then m.offEnds i c.afstamp
  else if !m.servo x then m.finish i 0 0 (evBytes c.afstamp [])
  else if (m.slice x).newPos then m
  else if m.fld AX_LIM_CTRL.MODE x = 2 ∧ !m.flg AX_LIM_STAT.LOCK x then m.finish i 3 0 (evBytes c.afstamp [])
  else m.finish i 0 0 (evBytes c.afstamp [])

/-- A vendor command meets an event of `tell`. -/
def Mach.routineEvent (m : Mach) (i : Nat) (c : Ctx) (kind inst v : Nat) (stamp : Stamp) : Mach :=
  let x := c.target
  match c.op with
  | 0x200 =>
    if kind = 1 then (if inst = m.pgOf x then m.moveCommit i c stamp else m)
    else if inst = x ∧ (kind = 2 ∨ kind = 5 ∨ kind = 12) then m.setCtx i (some (m.moveNote c kind v)) else m
  | 0x201 => if kind = 1 && inst = m.pgOf x && m.usesGroup c then m.streamCommit i c else m
  | 0x701 =>
    if kind = 9 ∧ v / 2 ^ 32 % 2 ^ 16 = 16 + i then
      m.finish i 0 0 (bytesOfNat 8 stamp ++ bytesOfNat 2 (v % 2 ^ 16) ++ bytesOfNat 1 (bitsOf v 30 28) ++ bytesOfNat 1 (v / 2 ^ 48))
    else m
  | 0x800 => if kind = 11 ∧ inst = c.param 0 1 ∧ stamp = c.param 8 8 then m.finish i 0 0 (bytesOfNat 8 stamp) else m
  | 0x801 =>
    if kind = 10 ∧ inst = c.param 0 1 then
      m.finish i 0 0 (bytesOfNat 8 (m.fld TB_TW_STAMP.STAMP inst) ++ bytesOfNat 1 (bitsOf v 31 29))
    else m
  | _ => m

/-! ### Events of micro routines (R306) -/

/-- The event of a context has occurred, or can no longer occur. -/
def Mach.readyCtx (m : Mach) (i : Nat) (c : Ctx) (x : Bool) (v : Nat) (s : Stamp) : Mach :=
  m.setCtx i (some { c with ready := some (x, BitVec.ofNat 32 v, s) })

/-- The period group of a context's target. -/
def Mach.ctxGroup (m : Mach) (c : Ctx) : Option Nat :=
  if c.target < 72 then some (m.pgOf c.target) else if 96 ≤ c.target ∧ c.target < 112 then some (c.target - 96) else none

/-- A micro routine that waits meets an event of `tell`. The KIND of a stop or a shutter is a free value. -/
def Mach.microEvent (m : Mach) (i : Nat) (c : Ctx) (kind inst v : Nat) (stamp : Stamp) : Mach :=
  match c.wev with
  | some 1 => if kind = 1 ∧ m.ctxGroup c = some inst then m.readyCtx i c false 0 stamp else m
  | some 2 =>
    if inst ≠ c.target then m
    else
      let now := 2 ^ 16 * m.fld AX_LIM_TAG_A.ACTIVE inst
      if kind = 2 ∧ v / 2 ^ 32 = c.tag then m.readyCtx i c false (v % 256 + now) stamp
      else if kind = 5 then m.readyCtx i c false (2 + now) stamp
      else if kind = 3 ∨ kind = 4 then
        let (f, m) := m.draw
        m.readyCtx i c false (f % 256 + now) stamp
      else m
  | some 9 => if kind = 9 ∧ blkOf c.note = some (.bank, inst) then m.readyCtx i c false (v % 2 ^ 32) stamp else m
  | some 10 => if kind = 10 ∧ blkOf c.note = some (.tw, inst) then m.readyCtx i c false v stamp else m
  | some 11 => if kind = 11 then m.readyCtx i c false inst stamp else m
  | _ => m

/-- Whether a commit fence of slice `x` has come since it was enabled (R149): that of a period it sampled in. -/
def Mach.firstFence (m : Mach) (x : Nat) : Bool :=
  let g := m.pgOf x
  m.pgOn g && (m.group g).k0 < (m.group g).kC && (m.slice x).from_ ≤ m.sampleTick g ((m.group g).kC - 1)

/-- A micro routine that waits for a state looks at it. -/
def Mach.microPoll (m : Mach) (i : Nat) (c : Ctx) : Mach :=
  let x := c.target
  let rdy (v : Nat) : Mach := m.readyCtx i c false v m.now
  let never : Mach := m.readyCtx i c true 0 m.now
  let word (f : Fld) (j : Nat) : Nat := (m.rg (f.addr j)).toNat
  match c.wev with
  | some 0 =>
    if !c.closed then never
    else if (m.stage x).gen < c.gen then m
    else
      let af := m.fld AX_STAGE_AFSTAMP.STAMP x
      m.readyCtx i { c with afstamp := af } false (m.fld AX_STAGE_STAT.APPLIED_TAG x) af
  | some 1 =>
    (match m.ctxGroup c with
    | some g => if m.pgOn g then m else never
    | none => never)
  | some 2 => if 64 ≤ x || !m.liveSlice x then never else m
  | some 4 => never
  | some 5 => if 64 ≤ x then never else if m.fld AX_CM_STAT.ST x ≠ 1 then rdy (word AX_CM_STAT.ST x) else m
  | some 6 => if 72 ≤ x then never else if m.flg AX_TRC_STAT.DONE x then rdy (word AX_TRC_WPTR.WPTR x) else m
  | some 7 =>
    (match blkOf c.note with
    | some (.cmp, k) => if m.flg CMP_CHK_RES.BUSY k then m else rdy (word CMP_CHK_RES.ST k)
    | _ => never)
  | some 8 =>
    (match blkOf c.note with
    | some (.bank, b) => if (m.bank b).left = 0 && m.fld CB_CAL_STAT.PHASE b = 0 then rdy (word CB_CAL_STAT.SLOT b) else m
    | _ => never)
  | some 9 =>
    (match blkOf c.note with
    | some (.bank, _) => m
    | _ => never)
  | some 10 =>
    (match blkOf c.note with
    | some (.tw, _) => m
    | _ => never)
  | some 12 =>
    if 72 ≤ x then never
    else if (if m.en x then m.firstFence x else !m.flg AX_STATE.RUN x) then rdy (word AX_STATE.RUN x) else m
  | some 13 => if 72 ≤ x then never else if m.flg AX_GT_STAT.SHUT x then m else rdy (m.fld AX_GT_CAUSE.CAUSE x)
  | _ => m

/-! ### What waiting commands see in the state (R250, R252, R255, R259 to R267) -/

/-- The tag of the last MOVE or STREAM that closed after context `i` into the same group (R255). -/
def Mach.merged (m : Mach) (c : Ctx) : Option Nat :=
  (m.tap.ctxs.foldl (fun (o : Option (Nat × Nat)) e => match e.2 with
    | some d =>
      if (d.op = 0x200 || d.op = 0x201) && d.closed && !d.micro && d.target = c.target && d.gen = c.gen && c.taken < d.taken
          && (o.all (fun p => p.1 < d.taken)) then some (d.taken, d.tag) else o
    | none => o) none).map (·.2)

/-- The group of context `i` has been applied. -/
def Mach.routineApplied (m : Mach) (i : Nat) (c : Ctx) : Mach :=
  let x := c.target
  let af := m.fld AX_STAGE_AFSTAMP.STAMP x
  let k := (m.group (m.pgOf x)).kS
  let c : Ctx := { c with afstamp := af, hold := none }
  let m := m.setCtx i (some c)
  let sl := m.slice x
  let uses : Mach := (m.setCtx i (some { c with need := some k, note := c.note ||| 8 * bit (sl.dyn.lim.mode = 1) })).accept i
  let later := (m.merged c).or (if c.op = 0x200 && m.fld AX_SP_TAG.TAG x ≠ c.tag then some (m.fld AX_SP_TAG.TAG x) else none)
  match c.op with
  | 0x200 | 0x201 =>
    match later with
    | some tag => m.finish i 2 0 (moveRes af tag 0)
    | none => if m.liveSlice x then uses else m.offEnds i af
  | 0x302 =>
    if m.liveSlice x then
      let ends := (m.fld AX_OSC_STAT.COUNT x + (if sl.swapNext.isSome || sl.dyn.opened then 2 else 1)) % 65536
      (m.setCtx i (some { c with need := some k, note := ends })).accept i
    else m.offEnds i af
  | _ => m.done i (evBytes af [])

/-- A started vendor command looks at the state it waits for. -/
def Mach.routinePoll (m : Mach) (i : Nat) (c : Ctx) : Mach :=
  let x := c.target
  let off : Bool := !m.liveSlice x
  if c.closed && c.need.isNone then (if c.gen ≤ (m.stage x).gen then m.routineApplied i c else m)
  else
    match c.op with
    | 0x100 => if m.en x && m.firstFence x then m.finish i 0 0 [] else if off then m.offEnds i 0 else m
    | 0x101 => if off then m.finish i 0 0 [] else m
    | 0x200 | 0x201 => if c.need.isSome && off then m.offEnds i (if c.op = 0x200 then m.now else c.afstamp) else m
    | 0x208 =>
      if m.fld AX_LIM_STAT.PHASE x = 4 then m.finish i 0 0 []
      else if m.flg AX_GT_STAT.SHUT x then m.finish i 0x20 0 []
      else if off then m.offEnds i 0 else m
    | 0x20B =>
      if !m.flg AX_GT_STAT.SHUT x then m.finish i 0 0 []
      else if !m.flg AX_GT_STAT.RELPEND x then m.finish i 0x20 0 (res24 (bytesOfNat 2 (m.fld AX_GT_CAUSE.CAUSE x)))
      else m
    | 0x302 =>
      if m.fld AX_OSC_STAT.COUNT x = c.note then
        m.finish i 0 0 (evBytes (m.slice x).lastCommit (bytesOfNat 2 (m.fld AX_OSC_STAT.COUNT x)))
      else if off then m.offEnds i m.now else m
    | 0x401 => if m.flg AX_TRC_STAT.DONE x then m.finish i 0 0 (res24 (m.w4 AX_TRC_WPTR.WPTR x)) else m
    | 0x600 =>
      if m.fld AX_CM_STAT.ST x ≠ 1 then
        m.finish i 0 0 (res24 (bytesOfNat 1 (m.fld AX_CM_STAT.ST x) ++ bytesOfNat 1 (m.fld AX_CM_STAT.CAUSE x)))
      else m
    | 0x700 =>
      let b := c.param 0 1
      if ((m.bank b).left = 0 && m.fld CB_CAL_STAT.PHASE b = 0) || !m.spareReady b && m.fld CB_CAL_STAT.PHASE b = 0
        then m.finish i 0 0 (m.calRes b) else m
    | 0x702 =>
      let k := c.param 0 1
      if m.flg CMP_CHK_RES.BUSY k then m else m.finish i 0 0 (res24 (m.w4 CMP_CHK_RES.ST k))
    | 0x703 => if off then m.finish i 0 0 [] else m
    | 0x802 =>
      let g := x - 96
      if (m.group g).kA ≠ c.note || !m.pgOn g then m.finish i 0 0 [] else m
    | _ => m

/-! ### After each command -/

/-- Puts a context number in its place by the order commands were taken. -/
def insertTaken (e : Nat × Nat) : List (Nat × Nat) → List (Nat × Nat)
  | [] => [e]
  | d :: ds => if e.1 ≤ d.1 then e :: d :: ds else d :: insertTaken e ds

/-- Every context, in the order its command was taken, through `f`. -/
def Mach.eachCtx (m : Mach) (f : Mach → Nat → Ctx → Mach) : Mach :=
  let order := (m.tap.ctxs.filterMap (fun e => e.2.map (fun c => (c.taken, e.1)))).foldr insertTaken []
  order.foldl (fun m e => match m.ctx e.2 with
    | some c => if c.started && !c.final then f m e.2 c else if c.micro then f m e.2 c else m
    | none => m) m

/-- What happened since the last command reaches the contexts that wait for it, unless a halt holds it (R507). -/
def Mach.tapSettle (m : Mach) : Mach :=
  if m.flg DBG_STAT.TAPH 0 then m
  else
    let m := m.swapTry
    let m := m.tap.events.foldl (fun m (e : Nat × Nat × Nat × Stamp) =>
      let whose := if e.1 = 2 then m.moveFor e.2.1 (e.2.2.1 / 2 ^ 32) else none
      m.eachCtx (fun m i c =>
      if c.ready.isSome || (e.1 = 2 && c.op = 0x200 && !c.micro && whose ≠ some i) then m
      else if c.micro then m.microEvent i c e.1 e.2.1 e.2.2.1 e.2.2.2
      else m.routineEvent i c e.1 e.2.1 e.2.2.1 e.2.2.2)) { m with tap := { m.tap with events := [] } }
    m.eachCtx (fun m i c => if c.micro then (if c.ready.isSome then m else m.microPoll i c) else m.routinePoll i c)

end Sys2Proof.Machine
end

