-- ==== Sys2Proof/Machine/Float.lean ====
section
/-! DEFINITION. IEEE 754-2019 binary64 as the FPU of a Reed core computes it (R333): subnormals, round to nearest with ties to even,
default results, and the flags raised: NV (bit 4), DZ (3), OF (2), UF (1), NX (0). -/

namespace Sys2Proof.Machine

/-- What 64 bits stand for: a NaN (quiet or signalling), an infinity, or a sign and magnitude `m` × 2^`e`. -/
inductive F64 where
  | nan (quiet : Bool)
  | inf (neg : Bool)
  | num (neg : Bool) (m : Nat) (e : Int)
  deriving DecidableEq, Repr

/-- Flags of AXF (R336) an operation raises. -/
abbrev fNV : Nat := 16
abbrev fDZ : Nat := 8
abbrev fOF : Nat := 4
abbrev fUF : Nat := 2
abbrev fNX : Nat := 1

/-- A result and the flags raised. -/
abbrev FRes := W64 × Nat

/-- Reads a binary64. -/
def F64.of (b : W64) : F64 :=
  let s := bitOf b.toNat 63
  let e := bitsOf b.toNat 62 52
  let f := bitsOf b.toNat 51 0
  if e = 2047 then (if f = 0 then .inf s else .nan (bitOf f 51))
  else if e = 0 then .num s f (-1074)
  else .num s (2 ^ 52 + f) ((e : Int) - 1075)

/-- Sign, exponent and fraction put together. -/
def fPack (neg : Bool) (e f : Nat) : W64 := BitVec.ofNat 64 (bit neg * 2 ^ 63 + e * 2 ^ 52 + f)

def fInf (neg : Bool) : W64 := fPack neg 2047 0
def fZero (neg : Bool) : W64 := fPack neg 0 0

/-- A quiet NaN; its sign and the rest of its fraction are open (log entry 2). -/
def fNan (op : Nat) (t o : W64) : W64 := Config.nan op t o &&& 0x800FFFFFFFFFFFFF ||| 0x7FF8000000000000

/-- Bits of a number. -/
def fLen (m : Nat) : Nat := if m = 0 then 0 else Nat.log2 m + 1

/-- `m` / 2^`k` to the nearest integer, ties to even; `more`: a further part below the last bit of `m`. -/
def fNearest (m k : Nat) (more : Bool) : Nat :=
  let q := m >>> k
  let r := 2 * (m - q <<< k) + bit more
  if 2 ^ k < r ∨ (r = 2 ^ k ∧ q % 2 = 1) then q + 1 else q

/-- The result for the exact value (`m` + `more`) × 2^`e`, rounded; where `more` holds, `m` has at least 55 bits. -/
def fRound (neg : Bool) (m : Nat) (e : Int) (more : Bool) : FRes :=
  if m = 0 then (fZero neg, 0)
  else
    let q := max (e + fLen m - 53) (-1074)
    let up := (e - q).toNat
    let down := (q - e).toNat
    let r := fNearest (m <<< up) down more
    let inexact := more || ((m <<< up) >>> down) <<< down ≠ m <<< up
    let (r, q) := if r = 2 ^ 53 then (2 ^ 52, q + 1) else (r, q)
    let free := fNearest (m <<< (53 - fLen m)) (fLen m - 53) more
    let tiny := if Config.tinyAfterRounding then e + fLen m - 53 < -1074 && ¬ (e + fLen m = -1022 ∧ free = 2 ^ 53)
      else e + fLen m < -1021
    if r < 2 ^ 52 then (fPack neg 0 r, if inexact then fUF + fNX else 0)
    else if 971 < q then (fInf neg, fOF + fNX)
    else (fPack neg (q + 1075).toNat (r - 2 ^ 52), (if inexact then fNX else 0) + (if inexact && tiny then fUF else 0))

/-- The result where an operand is a NaN: quiet, NV for a signalling one. -/
def fNanOp (op : Nat) (t o : W64) (a b : F64) : FRes :=
  (fNan op t o, if a = .nan false ∨ b = .nan false then fNV else 0)

/-- An exact integer times 2^`e`, rounded; an exact zero takes the sign given. -/
def fOfInt (i : Int) (e : Int) (zneg : Bool) : FRes :=
  if i = 0 then (fZero zneg, 0) else fRound (i < 0) i.natAbs e false

/-- T + O. -/
def fAdd (op : Nat) (t o : W64) (a b : F64) : FRes :=
  match a, b with
  | .inf s, .inf s' => if s = s' then (fInf s, 0) else (fNan op t o, fNV)
  | .inf s, .num .. => (fInf s, 0)
  | .num .., .inf s => (fInf s, 0)
  | .num s m e, .num s' m' e' =>
    let k := min e e'
    let i (s : Bool) (m : Nat) (e : Int) : Int := (if s then -1 else 1) * ((m <<< (e - k).toNat : Nat) : Int)
    fOfInt (i s m e + i s' m' e') k (s && s')
  | _, _ => fNanOp op t o a b

/-- A value with its sign changed; a NaN stays. -/
def F64.neg : F64 → F64
  | .nan q => .nan q
  | .inf s => .inf (!s)
  | .num s m e => .num (!s) m e

/-- T × O. -/
def fMul (op : Nat) (t o : W64) (a b : F64) : FRes :=
  match a, b with
  | .inf s, .inf s' => (fInf (s != s'), 0)
  | .inf s, .num s' m _ => if m = 0 then (fNan op t o, fNV) else (fInf (s != s'), 0)
  | .num s m _, .inf s' => if m = 0 then (fNan op t o, fNV) else (fInf (s != s'), 0)
  | .num s m e, .num s' m' e' => fRound (s != s') (m * m') (e + e') false
  | _, _ => fNanOp op t o a b

/-- T ÷ O. -/
def fDiv (op : Nat) (t o : W64) (a b : F64) : FRes :=
  match a, b with
  | .inf _, .inf _ => (fNan op t o, fNV)
  | .inf s, .num s' _ _ => (fInf (s != s'), 0)
  | .num s _ _, .inf s' => (fZero (s != s'), 0)
  | .num s m e, .num s' m' e' =>
    if m' = 0 then (if m = 0 then (fNan op t o, fNV) else (fInf (s != s'), fDZ))
    else fRound (s != s') ((m <<< 110) / m') (e - e' - 110) ((m <<< 110) % m' ≠ 0)
  | _, _ => fNanOp op t o a b

/-- The integer square root of `n`, below 2^`k`: one bit at a time. -/
def bitRoot (n : Nat) : Nat → Nat → Nat
  | 0, r => r
  | k + 1, r => bitRoot n k (if (r + 2 ^ k) * (r + 2 ^ k) ≤ n then r + 2 ^ k else r)

/-- √T. -/
def fSqrt (op : Nat) (t o : W64) (a : F64) : FRes :=
  match a with
  | .nan q => (fNan op t o, if q then 0 else fNV)
  | .inf s => if s then (fNan op t o, fNV) else (fInf false, 0)
  | .num s m e =>
    if m = 0 then (fZero s, 0)
    else if s then (fNan op t o, fNV)
    else
      let odd := (e % 2).toNat
      let n := m <<< (120 + odd)
      let r := bitRoot n 88 0
      fRound false r ((e - odd) / 2 - 60) (r * r ≠ n)

/-- The order of two values that are no NaN: T < O. Zeros are equal. -/
def fLess (a b : F64) : Bool :=
  match a, b with
  | .inf s, .inf s' => s && !s'
  | .inf s, _ => s
  | _, .inf s => !s
  | .num s m e, .num s' m' e' =>
    let k := min e e'
    let i (s : Bool) (m : Nat) (e : Int) : Int := (if s then -1 else 1) * ((m <<< (e - k).toNat : Nat) : Int)
    i s m e < i s' m' e'
  | _, _ => false

def F64.isNan : F64 → Bool
  | .nan _ => true
  | _ => false

def F64.isNeg : F64 → Bool
  | .nan _ => false
  | .inf s => s
  | .num s _ _ => s

/-- minimumNumber and maximumNumber: −0 is below +0, a number wins over a NaN. -/
def fMinMax (hi : Bool) (op : Nat) (t o : W64) (a b : F64) : FRes :=
  let f := if a = .nan false ∨ b = .nan false then fNV else 0
  if a.isNan && b.isNan then (fNan op t o, f)
  else if a.isNan then (o, f)
  else if b.isNan then (t, f)
  else
    let tLow := fLess a b || (!fLess b a && a.isNeg)
    (if tLow != hi then t else o, f)

/-- T as a signed integer, toward zero; NX where it is not exact and the part reports that (log entry 2). -/
def fToInt (a : F64) : FRes :=
  match a with
  | .nan _ => (0, fNV)
  | .inf s => (if s then 0x8000000000000000 else 0x7FFFFFFFFFFFFFFF, fNV)
  | .num s m e =>
    let n := (m <<< e.toNat) >>> (-e).toNat
    if s && 2 ^ 63 < n then (0x8000000000000000, fNV)
    else if !s && 2 ^ 63 ≤ n then (0x7FFFFFFFFFFFFFFF, fNV)
    else
      let exact := n <<< (-e).toNat = m <<< e.toNat
      (BitVec.ofInt 64 (if s then -(n : Int) else n), if exact ∨ ¬ Config.cvtReportsInexact then 0 else fNX)

/-- A comparison: 0 FEQ, 1 FLT, 2 FLE. -/
def fCompare (k : Nat) (a b : F64) : FRes :=
  if a.isNan || b.isNan then
    (0, if a = .nan false ∨ b = .nan false ∨ (k ≠ 0 ∧ Config.orderSignalsQuiet) then fNV else 0)
  else
    let r := match k with
      | 0 => !fLess a b && !fLess b a
      | 1 => fLess a b
      | _ => !fLess b a
    (BitVec.ofNat 64 (bit r), 0)

/-- FPU operation `n`: 1 FADD to 12 FLE in the order of R333. -/
def fpuOp (n : Nat) (t o : W64) : FRes :=
  let a := F64.of t
  let b := F64.of o
  match n with
  | 1 => fAdd n t o a b
  | 2 => fAdd n t o a b.neg
  | 3 => fMul n t o a b
  | 4 => fDiv n t o a b
  | 5 => fSqrt n t o a
  | 6 => fMinMax false n t o a b
  | 7 => fMinMax true n t o a b
  | 8 => fOfInt t.toInt 0 false
  | 9 => fToInt a
  | 10 => fCompare 0 a b
  | 11 => fCompare 1 a b
  | _ => fCompare 2 a b

end Sys2Proof.Machine
end

