-- ==== Sys2Proof/Machine/Units.lean ====
section
/-! DEFINITION. What the integer and floating-point units of a Reed core compute (R330, R333), and how the 128 bits of a bundle are
read (R321 to R324, R329, R345). -/

namespace Sys2Proof.Machine

/-! ### Units. Result sockets in the order of R386: ALU0 0, ALU1 1, MUL 2, CMP 3, LSU 4, FPU 5, CTL 6, QP 7; branches are unit 8. -/

/-- OVF and DIVZ as bits of AXF (R336). -/
abbrev fOVF : Nat := 0x200
abbrev fDIVZ : Nat := 0x100

/-- The integer result and OVF where it does not fit 64 bits signed. -/
def wrapped (i : Int) : W64 × Nat :=
  (BitVec.ofInt 64 i, if -(2 ^ 63) ≤ i ∧ i < 2 ^ 63 then 0 else fOVF)

/-- ALU operation `n`, 1 ADD to 15 SUBV. -/
def aluOp (n : Nat) (t o : W64) : W64 × Nat :=
  let sh := o.toNat % 64
  match n with
  | 1 => (t + o, 0)
  | 2 => (t - o, 0)
  | 3 => (t &&& o, 0)
  | 4 => (t ||| o, 0)
  | 5 => (t ^^^ o, 0)
  | 6 => (t &&& ~~~o, 0)
  | 7 => (t <<< sh, 0)
  | 8 => (t >>> sh, 0)
  | 9 => (t.sshiftRight sh, 0)
  | 10 => (if t.toInt ≤ o.toInt then t else o, 0)
  | 11 => (if t.toInt ≤ o.toInt then o else t, 0)
  | 12 => (if t.toNat ≤ o.toNat then t else o, 0)
  | 13 => (if t.toNat ≤ o.toNat then o else t, 0)
  | 14 => wrapped (t.toInt + o.toInt)
  | _ => wrapped (t.toInt - o.toInt)

/-- MUL operation `n`, 1 MUL to 7 REMU. −2^63 by −1 gives −2^63 and remainder 0 as the wrapped quotient does. -/
def mulOp (n : Nat) (t o : W64) : W64 × Nat :=
  match n with
  | 1 => (t * o, 0)
  | 2 => (BitVec.ofInt 64 ((t.toInt * o.toInt) / 2 ^ 64), 0)
  | 3 => (BitVec.ofNat 64 (t.toNat * o.toNat / 2 ^ 64), 0)
  | 4 => if o = 0 then (0, fDIVZ) else (BitVec.ofInt 64 (t.toInt.tdiv o.toInt), 0)
  | 5 => if o = 0 then (0, fDIVZ) else (BitVec.ofNat 64 (t.toNat / o.toNat), 0)
  | 6 => if o = 0 then (t, fDIVZ) else (BitVec.ofInt 64 (t.toInt.tmod o.toInt), 0)
  | _ => if o = 0 then (t, fDIVZ) else (BitVec.ofNat 64 (t.toNat % o.toNat), 0)

/-- CMP operation `n`, 1 EQ to 6 GEU. -/
def cmpOp (n : Nat) (t o : W64) : W64 × Nat :=
  let r : Bool := match n with
    | 1 => t = o
    | 2 => t ≠ o
    | 3 => t.toInt < o.toInt
    | 4 => o.toInt ≤ t.toInt
    | 5 => t.toNat < o.toNat
    | _ => o.toNat ≤ t.toNat
  (BitVec.ofNat 64 (bit r), 0)

/-! ### Sockets (R329) -/

/-- The unit a socket triggers, and its operation. -/
def trigOf (d : Nat) : Option (Nat × Nat) :=
  if 0x51 ≤ d ∧ d ≤ 0x5F then some (0, d - 0x50)
  else if 0x61 ≤ d ∧ d ≤ 0x6F then some (1, d - 0x60)
  else if 0x71 ≤ d ∧ d ≤ 0x77 then some (2, d - 0x70)
  else if 0x81 ≤ d ∧ d ≤ 0x86 then some (3, d - 0x80)
  else if 0x92 ≤ d ∧ d ≤ 0x9F then some (4, d - 0x90)
  else if 0xB1 ≤ d ∧ d ≤ 0xBC then some (5, d - 0xB0)
  else if 0xC1 ≤ d ∧ d ≤ 0xC8 then some (6, d - 0xC0)
  else if 0xD1 ≤ d ∧ d ≤ 0xD2 then some (7, d - 0xD0)
  else if 0xA1 ≤ d ∧ d ≤ 0xA4 then some (8, d - 0xA0)
  else none

/-- The operand latch a socket writes, in the order of R386: ALU0, ALU1, MUL, CMP, FPU, SDATA, OFS, CSEL, QSEL. -/
def latchOf (d : Nat) : Option Nat :=
  match d with
  | 0x50 => some 0
  | 0x60 => some 1
  | 0x70 => some 2
  | 0x80 => some 3
  | 0xB0 => some 4
  | 0x90 => some 5
  | 0x91 => some 6
  | 0xC0 => some 7
  | 0xD0 => some 8
  | _ => none

/-- The result socket a source names. -/
def resultOf (s : Nat) : Option Nat :=
  match s with
  | 0x50 => some 0
  | 0x60 => some 1
  | 0x70 => some 2
  | 0x80 => some 3
  | 0x90 => some 4
  | 0xB0 => some 5
  | 0xC0 => some 6
  | 0xD0 => some 7
  | _ => none

/-- Destinations that are not reserved. -/
def dstOk (d : Nat) : Bool := d ≤ 0x40 || (0x44 ≤ d && d ≤ 0x46) || (latchOf d).isSome || (trigOf d).isSome

/-- Sources that are not reserved. -/
def srcOk (s : Nat) : Bool := s ≤ 0x42 || (0x44 ≤ s && s ≤ 0x46) || (resultOf s).isSome

/-! ### Bundles -/

/-- The number of slots of a format, or none for an undefined one. -/
def fmtSlots (fmt : Nat) : Option Nat :=
  match fmt with
  | 0 => some 6
  | 1 => some 4
  | 2 => some 5
  | 3 => some 3
  | _ => none

def bunFmt (b : Nat) : Nat := bitsOf b 127 124
def bunSlot (b i : Nat) : Nat := bitsOf b (20 * i + 19) (20 * i)

/-- The slots of a bundle. -/
def bunSlots (b : Nat) : List Nat := (List.range ((fmtSlots (bunFmt b)).getD 0)).map (bunSlot b)

/-- The repeat field of a REPEAT bundle (R341). -/
def bunRep (b : Nat) : Nat := bitsOf b 119 100

/-- The long immediate (R324). -/
def bunLimm (b : Nat) : W64 :=
  if bunFmt b = 1 then (BitVec.ofNat 32 (bitsOf b 111 80)).signExtend 64 else BitVec.ofNat 64 (bitsOf b 123 60)

def slotGuard (s : Nat) : Nat := bitsOf s 19 17
def slotImm (s : Nat) : Bool := bitOf s 16
def slotSrc (s : Nat) : Nat := bitsOf s 15 8
def slotDst (s : Nat) : Nat := bitsOf s 7 0

/-- Whether a zero field of the format or of the repeat field is not zero. -/
def bunRsv (b : Nat) : Bool :=
  match bunFmt b with
  | 0 => bitsOf b 123 120 ≠ 0
  | 1 => bitsOf b 123 112 ≠ 0
  | 2 => bitsOf b 123 120 ≠ 0 || bitsOf (bunRep b) 14 12 ≠ 0
  | _ => false

/-- Causes 1 to 6 of R345, which the encoding alone decides; `inBody`: the bundle is one of a repeat's body. -/
def encCause (b : Nat) (inBody : Bool) : Option Nat :=
  let slots := bunSlots b
  let socket (s : Nat) : Bool := !slotImm s
  if (fmtSlots (bunFmt b)).isNone then some 1
  else if bunRsv b then some 2
  else if slots.any (fun s => !dstOk (slotDst s)) then some 3
  else if slots.any (fun s => socket s && !srcOk (slotSrc s)) then some 4
  else if (bunFmt b = 0 || bunFmt b = 2) && slots.any (fun s => socket s && slotSrc s = 0x41) then some 5
  else if bunFmt b = 2 && inBody then some 6
  else none

/-- Whether the guard of a slot holds for booleans `bs` (b1 to b3 in bits 1 to 3). -/
def guardHolds (bs s : Nat) : Bool :=
  let g := slotGuard s
  (g % 4 = 0 || bitOf bs (g % 4)) != bitOf g 2

/-- Whether a list names something twice. -/
def hasTwice : List Nat → Bool
  | [] => false
  | x :: xs => xs.contains x || hasTwice xs

/-- The bundle of one move of `t` into socket `d` (format LIMM64). -/
def limmBundle (d : Nat) (t : W64) : Nat := 3 * 2 ^ 124 + t.toNat * 2 ^ 60 + 0x80000 * 2 ^ 40 + 0x80000 * 2 ^ 20 + 0x4100 + d

/-- A REPEAT bundle with five empty slots. -/
def repBundle (f : BitVec 20) : Nat :=
  2 * 2 ^ 124 + f.toNat * 2 ^ 100 + (List.range 5).foldl (fun b i => b + 0x80000 * 2 ^ (20 * i)) 0

end Sys2Proof.Machine
end

