-- ==== Sys2Proof/Machine/Cores.lean ====
section
/-! DEFINITION. What a Reed core does around its bundles: its loads and stores (R354 to R363), its control registers (R336, R380, R416),
exception entry and return (R381 to R394), and the events it takes (R382, R383). A safe pair is its core A (R396). -/

namespace Sys2Proof.Machine

/-! ### Loads and stores (R354, R357 to R359) -/

/-- Core `c` as a requester. -/
def coreReq (c : Nat) : Req := .reed (Fin.ofNat 16 c)

/-- Core `c` at a world and level. -/
def coreWho (c : Nat) (guest user : Bool) : Who := { req := coreReq c, guest := guest, user := user }

/-- The world and the level core `c` runs at. -/
def Mach.inGuest (m : Mach) (c : Nat) : Bool := ST.WORLD.of (m.inForce c 0) = 1
def Mach.atUser (m : Mach) (c : Nat) : Bool := ST.LEVEL.of (m.inForce c 0) = 0

/-- Core `c` as it runs. -/
def Mach.whoCore (m : Mach) (c : Nat) : Who := coreWho c (m.inGuest c) (m.atUser c)

/-- The parts of an access in their 64-byte lines: one, or the two halves of a split access (R354). -/
def halves (a n : Nat) : List (Nat × Nat) :=
  if a / 64 = (a + n - 1) / 64 then [(a, n)] else [(a, 64 - a % 64), (a + (64 - a % 64), n - (64 - a % 64))]

/-- What one half of an access of `n` bytes at `a` meets: a vector of R381 and FADDR. -/
def Mach.halfFault (m : Mach) (c : Nat) (w : Who) (a n acc : Nat) (h : Nat × Nat) : Option (Nat × Nat) :=
  if 0x30000000 ≤ h.1 && h.1 < 0x40000000 && !((n = 4 || n = 8) && a % n = 0) then some (3, h.1)
  else if 2 ^ 32 ≤ h.1 then some (2, h.1 % 2 ^ 32)
  else match m.accessErr w (some c) h.1 h.2 acc with
    | none => none
    | some .unmapped => some (2, h.1)
    | some _ => some (6, h.1)

/-- The precise fault an access of `n` bytes at `a` meets, first half first (R357); at user level one window holds all its bytes
(R376). -/
def Mach.accessFault (m : Mach) (c : Nat) (w : Who) (a n acc : Nat) : Option (Nat × Nat) :=
  let hs := halves a n
  match hs.findSome? (m.halfFault c w a n acc) with
  | some f => some f
  | none =>
    match w.user, hs with
    | true, [_, h] => if m.inWindows c w.guest a n acc then none else some (6, h.1)
    | _, _ => none

/-- Whether a store-buffer entry shares a byte with `n` bytes at `a`, and whether it holds them all. -/
def SbEntry.meets (e : SbEntry) (a n : Nat) : Bool := e.addr < a + n && a < e.addr + e.bytes.length
def SbEntry.covers (e : SbEntry) (a n : Nat) : Bool := e.addr ≤ a && a + n ≤ e.addr + e.bytes.length

/-- The youngest entry that overlaps (R359). -/
def youngest (sb : List SbEntry) (a n : Nat) : Option SbEntry := sb.reverse.find? (fun e => e.meets a n)

/-- Bytes of memory at address `a` with the core's own buffered stores over them. -/
def sbOver (sb : List SbEntry) (a : Nat) (bs : List Byte) : List Byte :=
  bs.zipIdx.map (fun (b, i) => match youngest sb (a + i) 1 with
    | some e => e.bytes.getD (a + i - e.addr) b
    | none => b)

/-- What became of a load: it waits, a fault, or a value. -/
inductive Got where
  | wait
  | fault (vec faddr : Nat)
  | val (v : Nat)
  deriving DecidableEq, Repr

/-- Reads parts of memory one after the other, up to an uncorrectable one. -/
def Mach.readParts (m : Mach) (c : Nat) : List (Nat × Nat) → Got × Mach
  | [] => (.val 0, m)
  | (a, n) :: hs =>
    match m.memAt (some c) a n with
    | none => (.fault 2 a, m)
    | some k =>
      match m.load c k n with
      | (none, m) => (.fault 7 a, m)
      | (some bs, m) =>
        match Mach.readParts m c hs with
        | (.val v, m) => (.val (natOfBytes bs + 2 ^ (8 * n) * v), m)
        | r => r

/-- A load of `n` bytes at `a`, its checks passed (R357, R359, R364). A load outside TCM is logged (R403). -/
def Mach.coreLoad (m : Mach) (c : Nat) (w : Who) (a n : Nat) : Got × Mach :=
  let r := m.reed c
  if r.ldFence ≠ 0 then (.wait, m)
  else if 0x30000000 ≤ a && a < 0x40000000 then
    if r.sb.isEmpty then
      let (v, m) := m.readDev w false a n
      (.val v.toNat, m.logItem (c / 2) 0 a v.toNat)
    else (.wait, m)
  else
    let logged (v : Nat) (m : Mach) : Got × Mach := (.val v, if a < 0x40000 then m else m.logItem (c / 2) 0 a v)
    match youngest r.sb a n with
    | some e =>
      if e.covers a n && (halves a n).length = 1 then logged (natOfBytes ((e.bytes.drop (a - e.addr)).take n)) m
      else (.wait, m)
    | none =>
      match m.readParts c (halves a n) with
      | (.val v, m) => logged v m
      | r => r

/-- Whether the store buffer has room for a store (R358). -/
def Mach.sbRoom (m : Mach) (c a n : Nat) : Bool := (m.reed c).sb.length + (halves a n).length ≤ 8

/-- A store enters the store buffer; outside TCM it is logged. -/
def Mach.storeIn (m : Mach) (c : Nat) (w : Who) (frame : Bool) (a n v : Nat) : Mach :=
  let bs := bytesOfNat n v
  let es := (halves a n).map (fun h => SbEntry.mk h.1 ((bs.drop (h.1 - a)).take h.2) w.guest w.user frame)
  let m := m.setReed c { m.reed c with sb := (m.reed c).sb ++ es }
  if a < 0x40000 then m else m.logItem (c / 2) 2 a v

/-- Whether a buffered store stalls behind the Tapster's interlock (R360). -/
def Mach.sbStalled (m : Mach) (c : Nat) (e : SbEntry) : Bool :=
  match blkOf e.addr with
  | some (.sl, x) => 0xC000 ≤ e.addr - Blk.base .sl x && m.mirrorWaits (coreWho c e.guest e.user) x
  | _ => false

/-- The store buffer of core `c` may have drained: what waited for that goes on. -/
def Mach.sbDrained (m : Mach) (c : Nat) : Mach :=
  if !(m.reed c).sb.isEmpty then m
  else if m.safePair (c / 2) && m.pState (c / 2) = 1 then m.rollback (c / 2)
  else (m.msTry (c / 2)).haltTry c

/-- The oldest buffered store is performed (R358, R361, R366). -/
def Mach.storePerformed (m : Mach) (c0 : Nat) : Mach :=
  let c := m.coreIdx c0
  let r := m.reed c
  match r.sb with
  | [] => m
  | e :: rest =>
    let n := e.bytes.length
    if m.sbStalled c e then m
    else
      let m := m.setReed c { r with sb := rest, lastStore := m.now / 64 * 64, ldFence := r.ldFence - 1 }
      let m := match m.memAt (some c) e.addr n with
        | some k =>
          let m := if e.addr < 0x40000 then m.undoItem (c / 2) e.addr n else m
          let (bad, m) := m.store c k e.bytes
          if !bad then m
          else if e.guest then m.setReed c { m.reed c with sterrG := true }
          else m.setReed c { m.reed c with sterrH := true }
        | none =>
          if devAt e.addr n then m.writeDev (coreWho c e.guest e.user) e.addr n (BitVec.ofNat 64 (natOfBytes e.bytes)) else m
      m.sbDrained c

/-! ### Control registers (R336, R337, R379, R380, R416) -/

/-- Control registers that exist. -/
def crKnown (n : Nat) : Bool :=
  n ≤ 7 || (0x10 ≤ n && n ≤ 0x18) || (0x1A ≤ n && n ≤ 0x1C) || (0x20 ≤ n && n ≤ 0x2F) || (0x40 ≤ n && n ≤ 0x43)

/-- Control registers marked Sync. -/
def crSync (n : Nat) : Bool :=
  n = 0 || n = 6 || (0x10 ≤ n && n ≤ 0x17) || (0x1A ≤ n && n ≤ 0x1C) || (0x20 ≤ n && n ≤ 0x2F) || n = 0x40

/-- Control registers of Guest supervisors: 0x11, 0x15 to 0x18, 0x28 to 0x2F. -/
def crGuest (n : Nat) : Bool := n = 0x11 || (0x15 ≤ n && n ≤ 0x18) || (0x28 ≤ n && n ≤ 0x2F)

/-- Whether the level core `c` runs at may read and write control register `n`. -/
def Mach.crMay (m : Mach) (c n : Nat) : Bool :=
  n < 8 || (!m.atUser c && (!m.inGuest c || crGuest n))

/-- Queue events pending for core `c` in a world. -/
def Mach.qevs (m : Mach) (c : Nat) (guest : Bool) : List Nat × Bool := SMap.get (fun _ => ([], false)) m.qevents (2 * c + bit guest)

/-- SHSTAT as it reads (R380). -/
def Mach.shstat (m : Mach) (c : Nat) : Nat :=
  let sh := (m.reed c).core.shadow
  let top := match sh with
    | (w, l, d) :: _ => bit d * 2 ^ 10 + bit w * 2 ^ 9 + bit l * 2 ^ 8
    | [] => 0
  (m.rg (ctlAddr c 0x18) &&& 0xE0000000).toNat + sh.length * 2 ^ 16 + top + (m.qevs c (m.inGuest c)).1.length

/-- A CRD of control register `n`; those of TNOW, MSSTAT, MSCNT and MMINFO are logged (R403). -/
def Mach.crRead (m : Mach) (c n : Nat) : Nat × Mach :=
  let k := (m.reed c).core
  let word := (m.rg (ctlAddr c n)).toNat
  let v := match n with
    | 1 => (match k.rep with
      | some r => (r.held.map BitVec.toNat).getD word
      | none => word)
    | 2 => (match k.rep with
      | some r => r.left
      | none => 0)
    | 4 => m.now / 64 * 64
    | 0x18 => m.shstat c
    | 0x41 => (m.rg (ctlAddr c n) &&& 0xC0000000).toNat + (m.pair (c / 2)).log.length * 2 ^ 16 + (m.pair (c / 2)).undo.length
    | _ => word
  (v, if n = 4 ∨ 0x41 ≤ n then m.logItem (c / 2) 4 n v else m)

/-- The size of a bounded memory in units of 64 bytes (R380). -/
def boundUnits (n : Nat) : Nat := if n = 0x1A then 0x1000 else if n = 0x1B then 0x40000 else 0x2000000

/-- A CWR of `v` to control register `n` (R336, R337, R343). -/
def Mach.crWrite (m : Mach) (c n : Nat) (v : W64) : Mach :=
  let a := ctlAddr c n
  let w : W32 := v.setWidth 32
  let r := m.reed c
  if n = 1 then
    match r.core.rep with
    | some p => m.setCore c { r.core with rep := some { p with held := some w } }
    | none => m.setRg a w
  else
    let was := m.rg a
    let m := if crSync n && (SMap.get (fun _ => none) r.core.old n).isNone
      then m.setCore c { r.core with old := SMap.set (fun _ => none) r.core.old n (some was) } else m
    if n = 0 && m.atUser c then m.setFld ST.PA c (ST.PA.of w)
    else
      let m := m.writePlain a w
      if 0x1A ≤ n && n ≤ 0x1C then m.setFlg SHSTAT.RSVW c (boundUnits n < TCM_GB.OFS.of w)
      else if n = 0x40 then m.setFlg MSSTAT.RSVW c (MSCFG.MINT.of w = 0 || 96 < MSCFG.MINT.of w)
      else m

/-- SYNC: what was written comes into force, every unit has its result (R337, R369). -/
def Mach.coreSync (m : Mach) (c : Nat) : Mach := m.setCore c { (m.reed c).core.sync with busy := 0 }

/-! ### Exception entry (R384 to R388, R392 to R394) -/

/-- An exception on its way: vector, DETAIL, CODE, FADDR, BUNDLE, EPC. -/
structure Exc where
  vec : Nat
  detail : Nat := 0
  code : Nat := 0
  faddr : Nat := 0
  bundle : Nat := 0
  epc : Nat
  deriving DecidableEq, Repr

/-- A general register of a core. -/
def Core.gReg (k : Core) (i : Nat) : W64 := SMap.get (fun _ => 0) k.g i
def Core.setG (k : Core) (i : Nat) (v : W64) : Core := { k with g := SMap.set (fun _ => 0) k.g i v }
def Core.latchReg (k : Core) (i : Nat) : W64 := SMap.get (fun _ => 0) k.latch i
def Core.setLatch (k : Core) (i : Nat) (v : W64) : Core := { k with latch := SMap.set (fun _ => 0) k.latch i v }
def Core.resOf (k : Core) (i : Nat) : W64 := SMap.get (fun _ => 0) k.res i
def Core.setRes (k : Core) (i : Nat) (v : W64) : Core := { k with res := SMap.set (fun _ => 0) k.res i v }

/-- The 32 doublewords of a frame (R386); `cause` is the CAUSE word. -/
def Mach.frame (m : Mach) (c cause : Nat) (e : Exc) : List Nat :=
  let k := (m.reed c).core
  let cr (n : Nat) : Nat := (m.rg (ctlAddr c n)).toNat
  let rl : Option W32 := SMap.get (fun _ => none) m.shadow c
  let rep := k.rep.getD { count := 0, left := 0, first := 0, body := 0 }
  [e.epc, (ST.AXP.into (m.rg (ctlAddr c 0)) 0).toNat, cause, e.faddr, e.bundle % 2 ^ 64, e.bundle / 2 ^ 64, (k.gReg 62).toNat,
    k.lk.toNat, k.b / 2 + cr 5 * 2 ^ 16 + cr 6 * 2 ^ 32 + bit rl.isSome * 2 ^ 63, cr 1 + (rl.getD 0).toNat * 2 ^ 32,
    rep.count + rep.left * 2 ^ 32, rep.first + rep.body * 2 ^ 32 + rep.pos * 2 ^ 36 + bit k.rep.isSome * 2 ^ 63,
    (rep.held.getD 0).toNat + bit rep.held.isSome * 2 ^ 63]
  ++ (List.range 9).map (fun i => (k.latchReg i).toNat) ++ (List.range 8).map (fun i => (k.resOf i).toNat) ++ [0, 0]

/-- CAUSE (R387). -/
def Exc.cause (e : Exc) : Nat := e.vec + e.detail * 2 ^ 8 + e.code * 2 ^ 16

/-- Whether the 256 bytes at `sp` are memory writable at the supervisor level of a world. -/
def Mach.frameFits (m : Mach) (c : Nat) (guest : Bool) (sp : Nat) : Bool :=
  (m.memAt (some c) sp 256).isSome && m.mayReach (coreWho c guest false) (some c) sp 256 1

/-- The last steps of an entry: the frame is stored, the shadow entry pushed with mark `df`, the core runs the handler. -/
def Mach.arrive (m : Mach) (c : Nat) (guest : Bool) (words : List Nat) (sp handler : Nat) (pa df : Bool) : Mach :=
  let m := words.zipIdx.foldl (fun m (v, i) => m.storeIn c (coreWho c guest false) true (sp + 8 * i) 8 v) m
  let st := m.rg (ctlAddr c 0)
  let r := m.reed c
  let k := { (r.core.sync.setG 62 (BitVec.ofNat 64 sp)) with
    busy := 0, rep := none, axn := none, pc := handler,
    shadow := (ST.WORLD.of st = 1, ST.LEVEL.of st = 1, df) :: r.core.shadow }
  let m := m.setReed c { r with core := k, resv := none, wfe := false, fenced := false, first := true, past := false }
  let m := (((m.setFlg ST.WORLD c guest).setFld ST.LEVEL c 1).setFld ST.EM c 1).setFlg ST.PA c pa
  ((m.setFld ST.AXP c 0).setRg (ctlAddr c 5) 0).setRg (ctlAddr c 6) 0

/-- A triple fault (R394): a House one resets the pair, a Guest one locks the core. -/
def Mach.triple (m : Mach) (c : Nat) (guest : Bool) : Mach :=
  if guest then m.setReed c { m.reed c with locked := true } else m.tripleHouse (c / 2)

/-- A double fault (R392): 1 BADDESC, 2 BADSTACK, 3 NEST. -/
def Mach.doubleFault (m : Mach) (c : Nat) (guest : Bool) (e : Exc) (reason : Nat) : Mach :=
  let dfa := if guest then SHSTAT.GDFA else SHSTAT.HDFA
  let cr (n : Nat) : Nat := (m.inForce c (if guest then n + 3 else n)).toNat
  let sp := (cr 0x13 / 16 * 16 + 2 ^ 64 - 256) % 2 ^ 64
  if m.flg dfa c || sp < cr 0x14 || !m.frameFits c guest sp || (m.reed c).core.shadow.length = 16 then m.triple c guest
  else
    let words := m.frame c (32 + e.vec * 2 ^ 8 + reason * 2 ^ 32) e
    (m.arrive c guest words sp (cr 0x12 / 16 * 16) false true).raise dfa c

/-- A descriptor of a table (R384) as HANDLER, PA, STACK, LIMIT; none where it is invalid. -/
def Mach.descriptor (m : Mach) (c : Nat) (guest : Bool) (vec : Nat) : Option (Nat × Bool × Nat × Nat) × Mach :=
  let vbr := (m.inForce c (if guest then 0x11 else 0x10)).toNat
  let a := vbr / 512 * 512 + 16 * vec
  if !bitOf vbr 0 then (none, m)
  else match m.memAt (some c) a 16 with
    | none => (none, m)
    | some k =>
      if !m.mayReach (coreWho c guest false) (some c) a 16 0 then (none, m)
      else match m.load c k 16 with
        | (none, m) => (none, m)
        | (some bs, m) =>
          let d := natOfBytes (sbOver (m.reed c).sb a bs)
          let h := bitsOf d 31 0
          let stack := bitsOf d 63 32
          if !bitOf h 0 || bitsOf h 3 2 ≠ 0 || stack % 16 ≠ 0 || bitsOf d 127 96 ≠ (if guest then 3 else 1) then (none, m)
          else (some (h / 16 * 16, bitOf h 1, stack, bitsOf d 95 64), m)

/-- Exception entry (R385), or the triple fault of R393. -/
def Mach.enter (m : Mach) (c : Nat) (guest : Bool) (e : Exc) : Mach :=
  if m.flg (if guest then SHSTAT.GDFA else SHSTAT.HDFA) c && (e.vec ≤ 7 || e.vec = 10 || e.vec = 11) then m.triple c guest
  else
    match m.descriptor c guest e.vec with
    | (none, m) => m.doubleFault c guest e 1
    | (some (handler, pa, stack, limit), m) =>
      let base := if m.inGuest c = guest && !m.atUser c then ((m.reed c).core.gReg 62).toNat else stack
      let sp := (base + 2 ^ 64 - 256) % 2 ^ 64
      if sp % 16 ≠ 0 || sp < limit || !m.frameFits c guest sp then m.doubleFault c guest e 2
      else if 14 ≤ (m.reed c).core.shadow.length then m.doubleFault c guest e 3
      else m.arrive c guest (m.frame c e.cause e) sp handler pa false

/-- A pending imprecise arithmetic exception is delivered before the bundle at the core's address (R340). -/
def Mach.deliverArith (m : Mach) (c : Nat) : Mach :=
  m.enter c (m.inGuest c) { vec := 10, detail := 2, faddr := (m.rg (ctlAddr c 7)).toNat, epc := (m.reed c).core.pc }

/-- Whether an imprecise arithmetic exception is pending. -/
def Mach.axPending (m : Mach) (c : Nat) : Bool := (m.reed c).core.axn.isSome

/-- A precise fault of the bundle `bits` at the core's address: after an arithmetic exception that is pending (R340). -/
def Mach.precise (m : Mach) (c bits vec detail faddr : Nat) : Mach :=
  if m.axPending c then m.deliverArith c
  else m.enter c (m.inGuest c) { vec := vec, detail := detail, faddr := faddr, bundle := bits, epc := (m.reed c).core.pc }

/-! ### ERET (R389, R390) -/

/-- Reads the doublewords of a frame at `a`, as the core sees them. -/
def Mach.frameWords (m : Mach) (c : Nat) (w : Who) (a : Nat) : Nat → Except (Nat × Nat) (List Nat) × Mach
  | 0 => (.ok [], m)
  | n + 1 =>
    match m.accessFault c w a 8 0 with
    | some f => (.error f, m)
    | none =>
      match m.memAt (some c) a 8 with
      | none => (.error (2, a), m)
      | some k =>
        match m.load c k 8 with
        | (none, m) => (.error (7, a), m)
        | (some bs, m) =>
          match Mach.frameWords m c w (a + 8) n with
          | (.ok ws, m) => (.ok (natOfBytes (sbOver (m.reed c).sb a bs) :: ws), m)
          | r => r

/-- Whether R390 lets the level that runs return to a world and level. -/
def eretMay (fromGuest : Bool) (top : Option (Bool × Bool)) (world sup : Bool) : Bool :=
  if !fromGuest then true
  else match top with
    | none => world
    | some (w, l) => w && world && (l || !sup)

/-- The fields of a frame marked restored (R386). -/
def Mach.restore (m : Mach) (c : Nat) (ws : List Nat) : Mach :=
  let at_ (i : Nat) : Nat := ws.getD i 0
  let flags := at_ 8
  let epc := at_ 0 % 2 ^ 32 / 16 * 16
  let held : Option W32 := if bitOf (at_ 12) 63 then some (BitVec.ofNat 32 (at_ 12)) else none
  let first := at_ 11 % 2 ^ 32
  let body := bitsOf (at_ 11) 35 32
  let active := bitOf (at_ 11) 63
  let inside := active && first ≤ epc && epc < first + 16 * (body + 1)
  let rep : Option Rep := if inside then some {
    count := at_ 10 % 2 ^ 32, left := at_ 10 / 2 ^ 32, first := first, body := body, pos := (epc - first) / 16, held := held } else none
  let rcnt : W32 := if active && !inside then held.getD (BitVec.ofNat 32 (at_ 9)) else BitVec.ofNat 32 (at_ 9)
  let r := m.reed c
  let k : Core := { (r.core.sync.setG 62 (BitVec.ofNat 64 (at_ 6))) with
    lk := BitVec.ofNat 64 (at_ 7), b := flags % 8 * 2, busy := 0, pc := epc, rep := rep, axn := none, shadow := r.core.shadow.drop 1 }
  let k := (List.range 9).foldl (fun k i => k.setLatch i (BitVec.ofNat 64 (at_ (13 + i)))) k
  let k := (List.range 8).foldl (fun k i => k.setRes i (BitVec.ofNat 64 (at_ (22 + i)))) k
  let m := m.setReed c { r with core := k, resv := none, wfe := false, fenced := false }
  let m := match r.core.shadow with
    | (w, _, true) :: _ => m.setFld (if w then SHSTAT.GDFA else SHSTAT.HDFA) c 0
    | _ => m
  let m := ((m.setRg (ctlAddr c 1) rcnt).setRg (ctlAddr c 5) (BitVec.ofNat 32 (bitsOf flags 25 16) &&& 0x31F)).setRg
    (ctlAddr c 6) (BitVec.ofNat 32 (bitsOf flags 41 32) &&& 0x31F)
  let m := { m with shadow := SMap.set noShadow m.shadow c (if bitOf flags 63 then some (BitVec.ofNat 32 (at_ 9 / 2 ^ 32)) else none) }
  m.setRg (ctlAddr c 0) (BitVec.ofNat 32 (at_ 1) &&& 0xC0000030)

/-- The frame at `sp` that an ERET at supervisor level restores, or the fault it meets (vector and FADDR). -/
def Mach.eretFrame (m : Mach) (c sp : Nat) : Except (Nat × Nat) (List Nat) × Mach :=
  if sp % 16 ≠ 0 then (.error (3, sp), m)
  else match m.frameWords c (m.whoCore c) sp 32 with
    | (.error f, m) => (.error f, m)
    | (.ok ws, m) =>
      let sst := ws.getD 1 0
      let top := (m.reed c).core.shadow.head?.map (fun t => (t.1, t.2.1))
      if eretMay (m.inGuest c) top (bitOf sst 5) (bitOf sst 4) then (.ok ws, m) else (.error (11, 0), m)

/-- The core is to go on at address `a` (R504, R505): a repeat whose body does not hold it ends, and RCNT takes the value held. -/
def Mach.resumeAt (m : Mach) (c a : Nat) : Mach :=
  let k := (m.reed c).core
  match k.rep with
  | none => m.setCore c { k with pc := a }
  | some p =>
    if p.first ≤ a && a < p.first + 16 * (p.body + 1) then
      m.setCore c { k with pc := a, rep := some { p with pos := (a - p.first) / 16 } }
    else
      let m := m.setCore c { k with pc := a, rep := none }
      match p.held with
      | some v => m.setRg (ctlAddr c 1) v
      | none => m

/-! ### Asynchronous events (R382, R383) -/

/-- The events pending for core `c`, in the order they are taken: vector and world. -/
def Mach.events (m : Mach) (c : Nat) : List (Nat × Bool) :=
  let r := m.reed c
  let has (b : Bool) (v : Nat) (g : Bool) : List (Nat × Bool) := if b then [(v, g)] else []
  has r.lorders 19 false ++ has r.wdwarn 18 false ++ has r.sterrH 17 false ++ has (!(m.qevs c false).1.isEmpty) 16 false
    ++ has r.sterrG 17 true ++ has (!(m.qevs c true).1.isEmpty) 16 true

/-- Whether an event of a world is masked (R382). -/
def Mach.masked (m : Mach) (c : Nat) (guest : Bool) : Bool :=
  let em := ST.EM.of (m.inForce c 0) = 1
  if m.inGuest c then guest && em else guest || em

/-- The event that is to be taken next, if any is not masked. -/
def Mach.nextEvent (m : Mach) (c : Nat) : Option (Nat × Bool) := (m.events c).find? (fun e => !m.masked c e.2)

/-- Event `v` of a world is taken (R383, R387). -/
def Mach.takeEvent (m : Mach) (c v : Nat) (guest : Bool) : Mach :=
  let r := m.reed c
  let (code, m) := match v with
    | 19 => (0, m.setReed c { r with lorders := false })
    | 18 => (0, m.setReed c { r with wdwarn := false })
    | 17 => (0, m.setReed c (if guest then { r with sterrG := false } else { r with sterrH := false }))
    | _ =>
      let (l, lost) := m.qevs c guest
      (l.headD 0 + bit lost * 2 ^ 15, { m with qevents := SMap.set (fun _ => ([], false)) m.qevents (2 * c + bit guest) (l.drop 1, false) })
  let m := m.logItem (c / 2) 5 v code
  m.enter c guest { vec := v, code := code, epc := r.core.pc }

/-! ### When a core issues (R349) -/

/-- Whether core `c` issues bundles at all: its pair runs, it is neither halted nor about to, nor locked; no milestone holds it. -/
def Mach.issues (m : Mach) (c : Nat) : Bool :=
  let r := m.reed c
  m.pState (c / 2) = 0 && !m.coreHalted c && r.haltReq.isNone && !r.locked && !(m.safePair (c / 2) && m.msHolds (c / 2))

/-- Whether an event is taken before the next bundle: one is not masked, no arithmetic exception goes before it, and the next
bundle is not the first of a handler. -/
def Mach.eventDue (m : Mach) (c : Nat) : Option (Nat × Bool) :=
  if m.axPending c || (m.reed c).first then none else m.nextEvent c

/-- A pending event is taken at the boundary the core stands at, or out of a wait (R362, R382). -/
def Mach.eventTaken (m : Mach) (c0 : Nat) : Mach :=
  let c := m.coreIdx c0
  if !m.issues c then m
  else match m.eventDue c with
    | some (v, g) => m.takeEvent c v g
    | none => m

end Sys2Proof.Machine
end

