-- ==== Sys2Proof/Machine/Bundles.lean ====
section
/-! DEFINITION. Bundles of a Reed core (R325 to R345): what one takes effect as, and when it waits, faults or hands over to an event. -/

namespace Sys2Proof.Machine

/-! ### Reading a bundle (R322 to R326) -/

/-- The value a slot moves. -/
def slotVal (k : Core) (bits s : Nat) : W64 :=
  let n := slotSrc s
  if slotImm s then (BitVec.ofNat 8 n).signExtend 64
  else if n < 0x40 then k.gReg n
  else if n = 0x40 then k.lk
  else if n = 0x41 then bunLimm bits
  else if n = 0x42 then BitVec.ofNat 64 k.pc
  else if 0x44 ≤ n ∧ n ≤ 0x46 then BitVec.ofNat 64 (bit (bitOf k.b (n - 0x43)))
  else match resultOf n with
    | some i => k.resOf i
    | none => 0

/-- The moves a bundle executes: destination and value, as its guards and sources stand at its start. -/
def movesOf (k : Core) (bits : Nat) : List (Nat × W64) :=
  ((bunSlots bits).filter (guardHolds k.b)).map (fun s => (slotDst s, slotVal k bits s))

/-- Units whose results the executed moves of a bundle wait for (R327): every result socket it reads is ready then. -/
def readUnits (k : Core) (bits : Nat) : List Nat :=
  ((bunSlots bits).filter (fun s => guardHolds k.b s && !slotImm s)).filterMap (fun s => resultOf (slotSrc s))

/-- A write of a register, boolean or operand latch; a trigger writes none. -/
def Core.put (k : Core) (d : Nat) (v : W64) : Core :=
  if d < 0x40 then k.setG d v
  else if d = 0x40 then { k with lk := v }
  else if 0x44 ≤ d ∧ d ≤ 0x46 then { k with b := putBits k.b (d - 0x43) (d - 0x43) (bit (v ≠ 0)) }
  else match latchOf d with
    | some i => k.setLatch i v
    | none => k

/-- Unit `u` has its result. -/
def Core.ready (k : Core) (u : Nat) : Core := { k with busy := putBits k.busy u u 0 }
/-- Unit `u` is at work on a result. -/
def Core.work (k : Core) (u : Nat) : Core := { k with busy := putBits k.busy u u 1 }

/-- The core once a bundle's registers, booleans and latches are written (R325, steps 1 and 2). -/
def Core.written (k : Core) (bits : Nat) (ms : List (Nat × W64)) : Core :=
  ms.foldl (fun k mv => k.put mv.1 mv.2) ((readUnits k bits).foldl Core.ready k)

/-- The executed trigger of unit `u`: its operation and T. -/
def trigger (ms : List (Nat × W64)) (u : Nat) : Option (Nat × W64) :=
  ms.findSome? (fun mv => match trigOf mv.1 with
    | some (v, op) => if v = u then some (op, mv.2) else none
    | none => none)

/-! ### Triggers that compute -/

/-- The latch of a computing unit: ALU0, ALU1, MUL, CMP, and FPU (5) under number 4. -/
def unitLatch (u : Nat) : Nat := if u = 5 then 4 else u

/-- What unit `u` (0 to 3, 5) gives for operation `op`. -/
def unitOp (u op : Nat) (t o : W64) : W64 × Nat :=
  match u with
  | 0 | 1 => aluOp op t o
  | 2 => mulOp op t o
  | 3 => cmpOp op t o
  | _ => fpuOp op t o

/-- Runs the computing units a bundle triggers: the core with their results, and the conditions raised. -/
def runUnits (k : Core) (ms : List (Nat × W64)) : Core × Nat :=
  [0, 1, 2, 3, 5].foldl (fun (k, f) u => match trigger ms u with
    | none => (k, f)
    | some (op, t) =>
      let r := unitOp u op t (k.latchReg (unitLatch u))
      ((k.setRes u r.1).work u, f ||| r.2)) (k, 0)

/-! ### LSU, CTL, QP: what stops a bundle before it takes effect -/

/-- The size of LSU operation `op` (2 LD8S to 14 SC64). -/
def lsuSize (op : Nat) : Nat :=
  if op = 2 ∨ op = 3 ∨ op = 9 then 1 else if op = 4 ∨ op = 5 ∨ op = 10 then 2 else if op = 6 ∨ op = 7 ∨ op = 11 then 4 else 8

/-- Whether an LSU operation stores. -/
def lsuStores (op : Nat) : Bool := (9 ≤ op && op ≤ 12) || op = 14

/-- The address of an LSU trigger (R331). -/
def lsuAddr (k : Core) (t : W64) : Nat := (t + k.latchReg 6).toNat % 2 ^ 32

/-- Whether LR64 and SC64 are allowed at an address (R371). -/
def lockable (a : Nat) : Bool := a < 0x40000 || (0x10000000 ≤ a && a < 0x11000000) || 0x80000000 ≤ a

/-- The control register a CTL trigger names, if it names one: of CRD by T, of CWR by CSEL. -/
def ctlNumber (k : Core) (op : Nat) (t : W64) : Option Nat :=
  if op = 1 then some t.toNat else if op = 2 then some (k.latchReg 7).toNat else none

/-- Whether BRK halts core `c` (R502). -/
def Mach.brkHalts (m : Mach) (c : Nat) : Bool :=
  bitOf (m.fld DBG_CTRL.BRKEN 0) (c / 2) && m.flg DBG_SESS.ACTIVE 0 && m.dbgTarget c

/-- The target of an executed branch trigger (R332). -/
def branchTarget (k : Core) (ms : List (Nat × W64)) : Option Nat :=
  match trigger ms 8 with
  | none => none
  | some (op, t) => some (if op % 2 = 1 then t.toNat % 2 ^ 32 else (k.pc + 16 * t.toNat) % 2 ^ 32)

/-- The precise faults a bundle's triggers meet: vector, DETAIL, FADDR. `k` holds the latches as just written, `flags` the arithmetic
conditions raised. -/
def Mach.trigFaults (m : Mach) (c : Nat) (k : Core) (ms : List (Nat × W64)) (flags : Nat) : List (Nat × Nat × Nat) :=
  let lsu := match trigger ms 4 with
    | some (op, t) =>
      let a := lsuAddr k t
      if op = 15 then []
      else if 13 ≤ op ∧ a % 8 ≠ 0 then [(3, 0, a)]
      else if 13 ≤ op ∧ ¬ lockable a then [(2, 0, a)]
      else match m.accessFault c (m.whoCore c) a (lsuSize op) (bit (lsuStores op)) with
        | some (v, fa) => [(v, 0, fa)]
        | none => []
    | none => []
  let br := match branchTarget k ms with
    | some a => if a % 16 = 0 then [] else [(4, 0, a)]
    | none => []
  let ctl := match trigger ms 6 with
    | some (op, t) =>
      if (match ctlNumber k op t with
        | some n => !m.crMay c n
        | none => op = 6 && m.atUser c) then [(5, 0, 0)]
      else if op = 8 ∧ ¬ m.brkHalts c then [(9, 0, 0)] else []
    | none => []
  let arith :=
    if flags &&& (m.inForce c 6).toNat ≠ 0 && ST.PA.of (m.inForce c 0) = 1 && !m.axPending c then [(10, 1, k.pc)] else []
  lsu ++ br ++ ctl ++ arith

/-- Whether a bundle executes FENCE. -/
def isFence (ms : List (Nat × W64)) : Bool :=
  match trigger ms 4 with
  | some (op, _) => op = 15
  | none => false

/-- Whether a bundle waits where R362 lets an event abandon it: store-buffer space, earlier stores in FENCE, QP, SC64, or WFE. -/
def Mach.waits (m : Mach) (c : Nat) (k : Core) (ms : List (Nat × W64)) : Bool :=
  let sb := !(m.reed c).sb.isEmpty
  let lsu := match trigger ms 4 with
    | some (op, t) =>
      if op = 15 then t.toNat % 4 ≠ 0 && sb
      else if op = 14 then sb
      else lsuStores op && !m.sbRoom c (lsuAddr k t) (lsuSize op)
    | none => false
  let wfe := match trigger ms 6 with
    | some (7, _) => (m.events c).isEmpty
    | _ => false
  lsu || ((trigger ms 7).isSome && sb) || wfe

/-- Whether a bundle is one before which a pending imprecise arithmetic exception is delivered (R340). -/
def Mach.axDelivers (m : Mach) (c : Nat) (ms : List (Nat × W64)) : Bool :=
  match (m.reed c).core.axn with
  | none => false
  | some n =>
    63 ≤ n || (trigger ms 8).isSome || (match trigger ms 6 with
      | some (op, _) => op = 2 || op = 3 || op = 4 || op = 5 || op = 6
      | none => false)

/-! ### A bundle takes effect (R325) -/

/-- A load's value as the result socket takes it. -/
def lsuExtend (op v : Nat) : W64 :=
  let n := 8 * lsuSize op
  if op = 2 ∨ op = 4 ∨ op = 6 then BitVec.ofInt 64 (signed n v) else BitVec.ofNat 64 v

/-- The LSU trigger of a bundle whose checks have passed: a wait or fault of a load, or its result if it has one, and the stores made.
The stores of the bundle enter the store buffer, or the reservation is used. -/
def Mach.runLsu (m : Mach) (c : Nat) (k : Core) (ms : List (Nat × W64)) : Got × Option W64 × Mach :=
  match trigger ms 4 with
  | none => (.val 0, none, m)
  | some (op, t) =>
    let a := lsuAddr k t
    let n := lsuSize op
    let w := m.whoCore c
    let r := m.reed c
    if op = 15 then
      if t.toNat % 4 = 0 then (.val 0, none, m.setReed c { r with ldFence := r.sb.length })
      else
        let kind := t.toNat % 4
        let t := if r.fenced then r.lastStore else m.now / 64 * 64
        (.val 0, some (BitVec.ofNat 64 t), m.setReed c { r with fenced := false, lines := if kind = 2 then [] else r.lines })
    else if op = 14 then
      let key := memKey (some c) a
      let ok := r.resv.isSome && r.resv = key
      let m := (m.logItem (c / 2) 1 a (bit (!ok))).setReed c { r with resv := none }
      match ok, key with
      | true, some key =>
        let m := if a < 0x40000 then m.undoItem (c / 2) a 8 else m
        let (_, m) := m.store c key (bytesOfNat 8 (k.latchReg 5).toNat)
        (.val 0, some 0, m)
      | _, _ => (.val 0, some 1, m)
    else if lsuStores op then (.val 0, none, m.storeIn c w false a n (k.latchReg 5).toNat)
    else
      match m.coreLoad c w a n with
      | (.val v, m) =>
        if op = 13 then
          (.val 0, some (BitVec.ofNat 64 v),
            (m.logItem (c / 2) 1 a 0).setReed c { m.reed c with resv := memKey (some c) a })
        else (.val 0, some (lsuExtend op v), m)
      | (g, m) => (g, none, m)

/-- The QP trigger of a bundle (R335): the doorbell is rung at the core's world and level. -/
def Mach.runQp (m : Mach) (c : Nat) (k : Core) (ms : List (Nat × W64)) : Option W64 × Mach :=
  match trigger ms 7 with
  | none => (none, m)
  | some (op, t) =>
    let q := (k.latchReg 8).toNat % 4096
    let own := (!m.inGuest c && !m.atUser c) || m.inGuest c = m.flg QM_CFG.OWNER q
    let (ok, m) := m.ring own q (op = 2) (t.toNat % 65536)
    (some (BitVec.ofNat 64 (bit (!ok))), m.logItem (c / 2) 3 (q * 2 + bit (op = 2)) (t.toNat % 65536 * 2 + bit (!ok)))

/-- Where a bundle leads if no branch is taken, with the repeat as it stands after it (R342, R343); whether the repeat ended. -/
def Core.nextOf (k : Core) (bits : Nat) (rcnt : Nat) : Nat × Option Rep × Option W32 :=
  let next := (k.pc + 16) % 2 ^ 32
  let held := k.rep.bind Rep.held
  if bunFmt bits = 2 then
    let f := bunRep bits
    let body := bitsOf f 19 16
    let n := if bitOf f 15 then f % 4096 else rcnt
    if n = 0 then ((k.pc + 16 * (body + 2)) % 2 ^ 32, none, held)
    else (next, some { count := n, left := n, first := next, body := body, held := held }, none)
  else match k.rep with
    | none => (next, none, none)
    | some p =>
      if p.pos < p.body then (next, some { p with pos := p.pos + 1 }, none)
      else if p.left ≤ 1 then (next, none, held)
      else (p.first, some { p with left := p.left - 1, pos := 0 }, none)

/-- The conditions the units raised (R338, R340): AXF; an enabled one makes an imprecise exception pending. -/
def Mach.raiseFlags (m : Mach) (c pc flags : Nat) : Mach :=
  let k := (m.reed c).core
  let m := if flags = 0 then m else m.setRg (ctlAddr c 5) (m.rg (ctlAddr c 5) ||| BitVec.ofNat 32 flags)
  let k := { k with axn := k.axn.map (· + 1) }
  if flags &&& (m.inForce c 6).toNat ≠ 0 ∧ k.axn.isNone then
    ((m.setCore c { k with axn := some 0 }).raise ST.AXP c).setRg (ctlAddr c 7) (BitVec.ofNat 32 pc)
  else m.setCore c k

/-- The CTL trigger of a bundle, but for ERET, SYSCALL, MSTONE's milestone and BRK's halt. -/
def Mach.runCtl (m : Mach) (c : Nat) (k : Core) (ms : List (Nat × W64)) : Mach :=
  match trigger ms 6 with
  | some (1, t) =>
    let (v, m) := m.crRead c (t.toNat % 4096)
    m.setCore c (((m.reed c).core.setRes 6 (BitVec.ofNat 64 v)).work 6)
  | some (2, t) => m.crWrite c ((k.latchReg 7).toNat % 4096) t
  | some (3, _) | some (4, _) => m.coreSync c
  | _ => m

/-- Whether a bundle executes CTL operation `op`. -/
def ctlIs (ms : List (Nat × W64)) (op : Nat) : Bool :=
  match trigger ms 6 with
  | some (o, _) => o = op
  | none => false

/-- The link a CALL or CALLR writes. -/
def Core.linked (k : Core) (ms : List (Nat × W64)) : Core :=
  match trigger ms 8 with
  | some (op, _) => if 3 ≤ op then { k with lk := BitVec.ofNat 64 (k.pc + 16) } else k
  | none => k

/-- A bundle at the end of its checks takes effect: `k` is the core as R325's first three steps leave it, `flags` what its units
raised, `lsu` and `qp` the results of those units. -/
def Mach.retire (m : Mach) (c bits : Nat) (ms : List (Nat × W64)) (k : Core) (flags : Nat) (lsu qp : Option W64) (fed : Bool) :
    Mach :=
  let rcnt := (m.rg (ctlAddr c 1)).toNat
  let k0 := match lsu with
    | some v => (k.setRes 4 v).work 4
    | none => k
  let k0 := match qp with
    | some v => (k0.setRes 7 v).work 7
    | none => k0
  let inRep : Option Rep :=
    if bunFmt bits = 2 then some { count := 0, left := 0, first := 0, body := 0 } else k0.rep
  let m := (m.setCore c { k0.linked ms with rep := inRep }).runCtl c k ms
  let m := m.raiseFlags c k.pc flags
  let k1 := (m.reed c).core
  if fed then (match branchTarget k ms with
    | some a => m.resumeAt c a
    | none => m)
  else
    let (next, rep, held) := match branchTarget k ms with
      | some a => (a, none, k1.rep.bind Rep.held)
      | none => k1.nextOf bits rcnt
    let m := m.setCore c { k1 with pc := next, rep := rep }
    match held with
    | some v => m.setRg (ctlAddr c 1) v
    | none => m

/-- A precise arithmetic exception of the bundle at `pc` leaves its conditions in AXF and its address in AXADDR (R338, R339). -/
def Mach.noteArith (m : Mach) (c pc flags : Nat) : Mach :=
  (m.setRg (ctlAddr c 5) (m.rg (ctlAddr c 5) ||| BitVec.ofNat 32 flags)).setRg (ctlAddr c 7) (BitVec.ofNat 32 pc)

/-- What one bundle came to. -/
inductive Issued where
  | waits
  | faults (vec detail faddr : Nat)
  | delivers
  | done
  deriving DecidableEq, Repr

/-- Runs the checks of a bundle and, where they pass, lets it take effect. ERET is the caller's. -/
def Mach.runBundle (m : Mach) (c bits : Nat) (fed : Bool) : Issued × Mach :=
  let k := (m.reed c).core
  match encCause bits k.rep.isSome with
  | some cause => (.faults 1 cause 0, m)
  | none =>
    let ms := movesOf k bits
    if hasTwice (ms.map Prod.fst) then (.faults 1 7 0, m)
    else if hasTwice (ms.filterMap (fun mv => (trigOf mv.1).map Prod.fst)) then (.faults 1 8 0, m)
    else
      let k1 := k.written bits ms
      if (match trigger ms 6 with
        | some (op, t) => (match ctlNumber k1 op t with
          | some n => !crKnown n
          | none => false)
        | none => false) then (.faults 1 9 0, m)
      else
        let (k2, flags) := runUnits k1 ms
        let (ef, m) := if !(ctlIs ms 6) || m.atUser c then (([] : List (Nat × Nat × Nat)), m)
          else match m.eretFrame c (k1.gReg 62).toNat with
            | (.error (v, a), m) => ([(v, 0, a)], m)
            | (.ok _, _) => ([], m)
        match m.trigFaults c k1 ms flags ++ ef with
        | f :: fs =>
          let (i, m) := if fs.isEmpty then (0, m) else m.draw
          let (v, d, a) := (f :: fs).getD (i % (fs.length + 1)) f
          (.faults v d a, if v = 10 && !fed then m.noteArith c k.pc flags else m)
        | [] =>
          if !fed && m.axDelivers c ms then (.delivers, m)
          else if m.waits c k1 ms then
            let r := m.reed c
            (.waits, m.setReed c { r with fenced := r.fenced || isFence ms, wfe := ctlIs ms 7 })
          else
            match m.runLsu c k1 ms with
            | (.wait, _, m) => (.waits, m)
            | (.fault v a, _, m) => (.faults v 0 a, m)
            | (.val _, lsu, m) =>
              let (qp, m) := m.runQp c k1 ms
              (.done, m.retire c bits ms k2 flags lsu qp fed)

/-! ### Issue -/

/-- Core `c` keeps the 64-byte line at key `l` in its fetch buffer of four lines (R351), if it is whole. Which line gives way is
open. -/
def Mach.keepLine (m : Mach) (c l : Nat) : Mach :=
  if (List.range 8).any (fun i => match SMap.get eccGood m.ecc (l / 8 + i) with | .bad _ => true | _ => false) then m
  else
    let r := m.reed c
    let line := (l, m.peek l 64)
    if r.lines.length < 4 then m.setReed c { r with lines := line :: r.lines }
    else
      let (i, m) := m.draw
      m.setReed c { r with lines := line :: r.lines.eraseIdx (i % 4) }

/-- The 16 bytes of a bundle at a memory key: from TCM, from the fetch buffer, or from memory, whose line the buffer then keeps. None
where an uncorrectable error is found. -/
def Mach.fetchBytes (m : Mach) (c key : Nat) : Option (List Byte) × Mach :=
  if 0x200000000 ≤ key then m.load c key 16
  else match (m.reed c).lines.find? (fun l => l.1 = key / 64 * 64) with
    | some l => (some ((l.2.drop (key % 64)).take 16), m)
    | none =>
      let (bs, m) := m.load c key 16
      (bs, if bs.isSome then m.keepLine c (key / 64 * 64) else m)

/-- The bundle the core's address names (R351, R352), or the fault its fetch meets. -/
def Mach.fetch (m : Mach) (c : Nat) : Except Nat Nat × Mach :=
  let k := (m.reed c).core
  let buffered : Option Nat := k.rep.bind (fun p => SMap.get (fun _ => none) p.buf p.pos)
  match buffered with
  | some b => (.ok b, m)
  | none =>
    let a := k.pc
    match m.memAt (some c) a 16 with
    | none => (.error 2, m)
    | some key =>
      if 0x20000000 ≤ a ∧ a < 0x30000000 then (.error 2, m)
      else if !m.mayReach (m.whoCore c) (some c) a 16 2 then (.error 6, m)
      else match m.fetchBytes c key with
        | (none, m) => (.error 7, m)
        | (some bs, m) =>
          let b := natOfBytes bs
          let keep (p : Rep) : Rep := { p with buf := SMap.set (fun _ => none) p.buf p.pos (some b) }
          (.ok b, m.setCore c { k with rep := k.rep.map keep })

/-- After a bundle has retired: a milestone it asks for, a halt, and what waited for its boundary. -/
def Mach.boundary (m : Mach) (c : Nat) (ms : List (Nat × W64)) : Mach :=
  let p := c / 2
  let r := m.reed c
  let m := m.setReed c { r with first := false, past := false, wfe := false }
  let m := m.setPair p { m.pair p with count := (m.pair p).count + 1 }
  let m := if ctlIs ms 4 && m.safePair p then m.msFall p else m
  let m := if ctlIs ms 8 then m.haltAsk c 2 true else m
  (m.msTry p).haltTry c

/-- A bundle `bits` is issued at the address core `c` stands at. -/
def Mach.issueBits (m : Mach) (c bits : Nat) : Mach :=
  let k := (m.reed c).core
  let ms := movesOf k bits
  let waited := (m.reed c).wfe
  match m.runBundle c bits false with
  | (.waits, m) => m
  | (.delivers, m) => m.deliverArith c
  | (.faults v d a, m) => m.precise c bits v d a
  | (.done, m) =>
    let m := if ctlIs ms 7 && waited then m.logItem (c / 2) 6 0 0 else m
    if ctlIs ms 6 then
      let sp := ((m.reed c).core.gReg 62).toNat
      match m.eretFrame c sp with
      | (.ok ws, m) =>
        let m := if sp < 0x40000 then m
          else ws.zipIdx.foldl (fun m (v, i) => m.logItem (c / 2) 0 (sp + 8 * i) v) m
        (m.restore c ws).boundary c ms
      | (.error _, m) => m
    else
      let m := m.boundary c ms
      match trigger ms 6 with
      | some (5, t) => m.enter c (m.inGuest c) { vec := 8, code := t.toNat % 65536, epc := (m.reed c).core.pc }
      | _ => m

/-- Whether a breakpoint of its pair names the address core `c` stands at (R502); the first bundle after a release passes (R509). -/
def Mach.bpMatch (m : Mach) (c : Nat) : Bool :=
  !(m.reed c).past && (List.range 4).any (fun i =>
    let w := m.rg (DBG_BP.ADDR.addr 0 + 16 * (c / 2) + 4 * i)
    DBG_BP.EN.of w = 1 && DBG_BP.ADDR.of w * 16 = (m.reed c).core.pc)

/-- Core `c` halts at its breakpoint before the bundle issues. -/
def Mach.bpHalt (m : Mach) (c0 : Nat) : Mach :=
  let c := m.coreIdx c0
  if m.issues c && m.bpMatch c then m.haltAsk c 3 true else m

/-- The bundle given is issued, or the one fetched. What a fault of the fetch reports as FADDR and BUNDLE is open. -/
def Mach.issueAny (m : Mach) (c : Nat) (given : Option Nat) : Mach :=
  match given with
  | some b => m.issueBits c b
  | none =>
    match m.fetch c with
    | (.ok b, m) => m.issueBits c b
    | (.error v, m) =>
      let (f, m) := m.drawMany 5
      let word (i : Nat) : Nat := f i % 2 ^ 32
      m.precise c (word 1 + word 2 * 2 ^ 32 + word 3 * 2 ^ 64 + word 4 * 2 ^ 96) v 0 (word 0)

/-- Core `c` issues its next bundle: the one given, else the one it fetches. `item`: a mismatch of that item between the copies of a
safe pair (R399, R404), 0 for none; 7: the two rails of a lane of the comparator disagree (R407, R409). -/
def Mach.issue (m : Mach) (c0 : Nat) (given : Option Nat) (item : Nat) : Mach :=
  let c := m.coreIdx c0
  if !m.issues c then m
  else match m.eventDue c with
    | some (v, g) => m.takeEvent c v g
    | none =>
      if m.bpMatch c then m.haltAsk c 3 true
      else if item ≠ 0 && m.safePair (c / 2) then
        if item = 7 then m.hardFault (c / 2) 5 0 (m.reed c).core.pc else m.mismatch (c / 2) item
      else m.issueAny c given

/-- A trigger row: the bundle that holds the one move of `t` into socket `d`. -/
def Mach.move (m : Mach) (c : Fin 16) (d : Nat) (t : W64) : Mach := m.issue c.val (some (limmBundle d t)) 0

/-- A pending imprecise arithmetic exception is delivered where the next bundle is one R340 names. -/
def Mach.arithDue (m : Mach) (c0 : Nat) : Mach :=
  let c := m.coreIdx c0
  if !m.issues c || !m.axPending c then m
  else match m.fetch c with
    | (.ok b, _) => if m.axDelivers c (movesOf (m.reed c).core b) then m.deliverArith c else m
    | (.error _, _) => m.deliverArith c

/-- A unit of core `c` has its result (R350). -/
def Mach.unitReady (m : Mach) (c0 u : Nat) : Mach :=
  let c := m.coreIdx c0
  m.setCore c ((m.reed c).core.ready u)

/-! ### Bundles under a halt (R505, R506) -/

/-- The cores that may be fed: halted, within the session's scope. -/
def Mach.feedable (m : Mach) : List Nat := (List.range 16).filter (fun c => m.coreIdx c = c && m.coreHalted c && m.dbgTarget c)

/-- The fed bundle runs (R505). It waits while the store buffer holds it up. Where several cores are halted, which is fed is open. -/
def Mach.feedRun (m : Mach) (item : Nat) : Mach :=
  let quit (m : Mach) : Mach := { m with dbg := { m.dbg with feed := false } }
  match m.feedable with
  | [] => quit m
  | c0 :: cs =>
    let (i, m) := if cs.isEmpty then (0, m) else m.draw
    let c := (c0 :: cs).getD (i % (cs.length + 1)) c0
    let word (i : Nat) : Nat := (m.rg (DBG_FEED.V.addr 0 + 4 * i)).toNat
    let bits := word 0 + word 1 * 2 ^ 32 + word 2 * 2 ^ 64 + word 3 * 2 ^ 96
    let k := (m.reed c).core
    let ms := movesOf k bits
    let refused := bunFmt bits = 2 || (match trigger ms 6 with
      | some (op, _) => 4 ≤ op
      | none => false)
    let m := m.setRg (DBG_FEED_ST.VEC.addr 0) 0
    if refused then (quit m).raise DBG_FEED_ST.REFUSED 0
    else if item = 7 && m.safePair (c / 2) then (quit m).hardFault (c / 2) 5 0 k.pc
    else if item ≠ 0 && m.safePair (c / 2) then
      ((((quit m).raise DBG_FEED_ST.DONE 0).setFld MMINFO.ITEM c item).raise MMINFO.FED c).setFld SYS_PAIR_MMADDR.ADDR (c / 2) k.pc
    else match m.runBundle c bits true with
      | (.waits, m) => m
      | (.faults v _ _, m) => (((quit m).setCore c k).raise DBG_FEED_ST.DONE 0).setFld DBG_FEED_ST.VEC 0 v
      | (_, m) => (quit m).raise DBG_FEED_ST.DONE 0

/-- DBG_CMD STEP of a halted core (R506): a pending event first unless STEPEM, one bundle, and the halt again. -/
def Mach.stepRun (m : Mach) (c : Nat) : Mach :=
  let m := { m with dbg := { m.dbg with step := none } }
  if !m.coreHalted c then m
  else
    let m := m.coreResume c
    let m := match m.eventDue c with
      | some (v, g) => if m.flg DBG_CTRL.STEPEM 0 || !m.issues c then m else m.takeEvent c v g
      | none => m
    (if m.issues c then m.issueAny c none else m).haltAsk c 4 true

end Sys2Proof.Machine
end

