-- ==== Sys2Proof/Machine/Link.lean ====
section
/-! DEFINITION. Requests on the Damroth link (R493 to R501, R504), and what the part does of itself once a command has had its
effect. -/

namespace Sys2Proof.Machine

/-! ### The debug bus master (R499 to R501) -/

/-- STATUS of an answer, with its DATA (R494). -/
def linkStatus : Resp → Nat × W64
  | .data v => (0, v)
  | .written => (0, 0)
  | .denied => (2, 0)
  | .poisoned => (6, 0)
  | .link s v => (s, v)
  | _ => (1, 0)

/-! ### Frames (R493) -/

/-- The CRC-8 of the low `n` bits of `w`, taken in the order they are sent. PRESUMED: bit i of the CRC field is the coefficient of x^i of
the remainder. -/
def linkCrc (w n : Nat) : Nat :=
  (List.range n).foldl (fun r i => let t := r * 2 % 256
    if bitOf r 7 != bitOf w i then t ^^^ 7 else t) 0

/-- The bits of a request before its CRC. -/
def dmrBits (f : DmrFrame) (op a d : Nat) : Nat :=
  0b1010 + op * 2 ^ 4 + f.flags.toNat * 2 ^ 8 + f.seq.toNat * 2 ^ 12 + f.core.val * 2 ^ 16 + f.zero.toNat * 2 ^ 20 + a % 2 ^ 32 * 2 ^ 24 +
    d % 2 ^ 32 * 2 ^ 56

/-- Whether a request ends with the CRC of its bits. -/
def dmrCrcOk (f : DmrFrame) (op a d : Nat) : Bool := f.crc.toNat = linkCrc (dmrBits f op a d) 88

/-- The response the part drives: SYNC, STATUS, the SEQ echoed, DATA and the CRC. -/
def dmrResponse (seq status : Nat) (v : W64) : BitVec 88 :=
  let w := 0b0101 + status % 16 * 2 ^ 4 + seq % 16 * 2 ^ 8 + v.toNat * 2 ^ 16
  BitVec.ofNat 88 (w + linkCrc w 80 * 2 ^ 80)

/-- FLAGS.CONSUME and FLAGS.TCM. -/
def dmrConsume (f : DmrFrame) : Bool := bitOf f.flags.toNat 0
def dmrTcm (f : DmrFrame) : Bool := bitOf f.flags.toNat 1

/-- The core whose TCM a request names; in a safe pair core A only. -/
def Mach.dmrCore (m : Mach) (f : DmrFrame) : Option Nat := if m.coreIdx f.core.val = f.core.val then some f.core.val else none

/-- RD32 and RD64. -/
def Mach.dmrRead (m : Mach) (f : DmrFrame) (a n : Nat) : Resp × Mach :=
  let w := m.who (.debug (dmrConsume f))
  if !dmrTcm f then m.busRead w none a n
  else match m.dmrCore f with
    | none => (if m.sessionMay (some 0) a n false then .unmapped else .denied, m)
    | some c => if a < 0x40000 || !m.sessionMay (some c) a n false then m.busRead w (some c) a n else (.unmapped, m)

/-- WR32. A write to the TCM of a safe pair that is not halted is BUSY. -/
def Mach.dmrWrite (m : Mach) (f : DmrFrame) (a : Nat) (v : W32) : Resp × Mach :=
  let w := m.who (.debug true)
  if !dmrTcm f then m.busWrite w none a 4 (v.setWidth 64)
  else match m.dmrCore f with
    | none => (if m.sessionMay (some 0) a 4 true then .unmapped else .denied, m)
    | some c =>
      if 0x40000 ≤ a && m.sessionMay (some c) a 4 true then (.unmapped, m)
      else match m.accessErr w (some c) a 4 1 with
        | some e => (e, m)
        | none =>
          if m.safePair (c / 2) && !m.coreHalted c then (.link 5 0, m) else m.busWrite w (some c) a 4 (v.setWidth 64)

/-! ### Registers of a halted core (R504) -/

/-- What keeps a register request from core `c`: a target outside the session's scope, or a core that is not halted. -/
def Mach.regErr (m : Mach) (c : Nat) : Option Nat :=
  if m.lcState = 4 || !m.flg DBG_SESS.ACTIVE 0 || !m.dbgTarget c then some 2
  else if !m.coreHalted c then some 5
  else none

/-- Whether the session's scope takes in control register `n`: a GUEST session acts at GS. -/
def Mach.crScope (m : Mach) (n : Nat) : Bool := n < 8 || m.linkHouse || crGuest n

/-- REGRD. -/
def Mach.dmrRegRead (m : Mach) (c a : Nat) : Resp :=
  let k := (m.reed c).core
  match m.regErr c with
  | some s => .link s 0
  | none =>
    if a < 0x40 then .data (k.gReg a)
    else if a = 0x40 then .data k.lk
    else if 0x44 ≤ a ∧ a ≤ 0x46 then .data (BitVec.ofNat 64 (bit (bitOf k.b (a - 0x43))))
    else if 0x1000 ≤ a ∧ a < 0x2000 then
      let n := a - 0x1000
      if !crKnown n then .link 4 0
      else if !m.crScope n then .link 2 0
      else .data (BitVec.ofNat 64 (m.crRead c n).1)
    else if a = 0x2000 then .data (BitVec.ofNat 64 k.pc)
    else if 0x3000 ≤ a ∧ a < 0x3100 then (match latchOf (a - 0x3000) with
      | some i => .data (k.latchReg i)
      | none => .link 4 0)
    else match resultOf a with
      | some i => .data (k.resOf i)
      | none => .link 4 0

/-- Control registers that are read only. -/
def crReadOnly (n : Nat) : Bool := n = 2 || n = 3 || n = 4 || n = 7 || n = 0x18 || (0x41 ≤ n && n ≤ 0x43)

/-- A control register written by the link: it is in force at once. -/
def Mach.crPoke (m : Mach) (c n : Nat) (v : W32) : Mach :=
  let m := if n = 0 then m.writePlain (ctlAddr c 0) v else m.crWrite c n (v.setWidth 64)
  let k := (m.reed c).core
  m.setCore c { k with old := SMap.set (fun _ => none) k.old n none }

/-- REGWR of the 32 bits the request carries. What the high half of a 64-bit register becomes is open. -/
def Mach.dmrRegWrite (m : Mach) (c a : Nat) (v : W32) : Resp × Mach :=
  let k := (m.reed c).core
  let wide (f : W64 → Core) : Resp × Mach :=
    let (hi, m) := m.draw
    (.written, m.setCore c (f (BitVec.ofNat 64 (v.toNat + hi % 2 ^ 32 * 2 ^ 32))))
  match m.regErr c with
  | some s => (.link s 0, m)
  | none =>
    if a ≤ 0x40 then wide (k.put a)
    else if 0x44 ≤ a ∧ a ≤ 0x46 then (.written, m.setCore c (k.put a (v.setWidth 64)))
    else if 0x1000 ≤ a ∧ a < 0x2000 then
      let n := a - 0x1000
      if !crKnown n then (.link 4 0, m)
      else if !m.crScope n then (.link 2 0, m)
      else if crReadOnly n then (.link 5 0, m)
      else (.written, m.crPoke c n v)
    else if a = 0x2000 then (.written, m.resumeAt c (v.toNat / 16 * 16))
    else if 0x3000 ≤ a ∧ a < 0x3100 then
      (match latchOf (a - 0x3000), trigOf (a - 0x3000) with
      | some i, _ => wide (k.setLatch i)
      | none, some _ => (.link 5 0, m)
      | none, none => (.link 4 0, m))
    else match resultOf a, trigOf a with
      | some i, _ => wide (k.setRes i)
      | none, some _ => (.link 5 0, m)
      | none, none => (.link 4 0, m)

/-! ### A request (R493 to R496) -/

/-- A request: with a good CRC the session it may open, and its execution, unless its SEQ is that of the one executed last. `op`, `a`
and `d` are its OP, ADDR and DATA, `run` is the operation. While a write of the link waits at a mirror the link idles: no request comes,
and the write has no answer yet (R25). -/
def Mach.dmrRequest (m : Mach) (f : DmrFrame) (op a d : Nat) (run : Mach → Resp × Mach) : Mach :=
  if m.reqWaits (.debug true) then m
  else if !dmrCrcOk f op a d then { m with resp := .link 3 0 }
  else
    let m := { m with dbg := { m.dbg with lastGood := m.now } }
    let m := if m.lcState = 2 then m else m.sessOpen
    if m.dbg.seq = some f.seq.toNat then { m with resp := .link m.dbg.resp.1 m.dbg.resp.2 }
    else
      let (e, m) := if bitsOf f.flags.toNat 3 2 ≠ 0 || f.zero ≠ 0 then (.link 4 0, m) else run m
      let r := linkStatus e
      { m with dbg := { m.dbg with seq := some f.seq.toNat, resp := r }, resp := if m.reqWaits (.debug true) then .none else .link r.1 r.2 }

/-! ### After a command -/

/-- What follows a command at once: a stepped core runs its bundle (R506), a fed bundle runs (R505; `item` as in `Mach.issue`), the
Tapster's contexts see what happened. -/
def Mach.settle (m : Mach) (item : Nat) : Mach :=
  if m.held ≠ [] then m
  else
    let m := match m.dbg.step with
      | some c => m.stepRun c
      | none => m
    (if m.dbg.feed then m.feedRun item else m).tapSettle

/-- A command of a part that runs: its effect `f`, then what follows it. A part held in reset takes none. -/
def State.act (s : State) (f : Mach → Mach) : Host.Outcome State Fault Refusal :=
  .next { s with m := if s.m.held ≠ [] then s.m else (f s.m).settle 0 }

/-- A command that reaches the part in reset too. -/
def State.actAlways (s : State) (f : Mach → Mach) : Host.Outcome State Fault Refusal :=
  .next { s with m := (f s.m).settle 0 }

end Sys2Proof.Machine
end

