-- ==== Sys2Proof/Machine/AccessRows.lean ====
section
/-! DEFINITION. The commands of register accesses (R8 to R13), mirrors and the interlock (R25), period groups (R40 to R49): each row's meaning, by the operations it names. -/

namespace Sys2Proof.Machine

/-- REGISTER_WRITE (R9). -/
def execRegisterWrite (r : Req) (a : Nat) (wide : Bool) (v : BitVec 64) (s : State) : Host.Outcome State Fault Refusal :=
  s.act fun m => m.writeBy r a (if wide then 8 else 4) v

/-- RL_LOW_HALF_READ (R11). -/
def execRlLowHalfRead (r : Req) (a : Nat) (s : State) : Host.Outcome State Fault Refusal :=
  s.act fun m => m.readBy r a 4

/-- RL_HIGH_HALF_READ (R11). -/
def execRlHighHalfRead (r : Req) (a : Nat) (s : State) : Host.Outcome State Fault Refusal :=
  s.act fun m => m.readBy r a 4

/-- RL_64BIT_READ (R11). -/
def execRl64BitRead (r : Req) (a : Nat) (s : State) : Host.Outcome State Fault Refusal :=
  s.act fun m => m.readBy r a 8

/-- RC_FIELD_READ (R9). -/
def execRcFieldRead (r : Req) (a : Nat) (s : State) : Host.Outcome State Fault Refusal :=
  s.act fun m => m.readBy r a 4

/-- STICKY_READ (R152). -/
def execStickyRead (r : Req) (x : Fin 72) (s : State) : Host.Outcome State Fault Refusal :=
  s.act fun m => m.readBy r (AX_STICKY.DLMISS.addr x.val) 4

/-- SAMPLE_FENCE (R18). -/
def execSampleFence (g : Fin 16) (s : State) : Host.Outcome State Fault Refusal :=
  s.act fun m => m.sampleFence g.val

/-- SLICE_WAKE (R19). -/
def execSliceWake (x : Fin 72) (t : Nat) (s : State) : Host.Outcome State Fault Refusal :=
  s.act fun m => m.sliceWake x.val t

/-- DEPOSIT (R144). -/
def execDeposit (x : Fin 72) (t : Nat) (s : State) : Host.Outcome State Fault Refusal :=
  s.act fun m => m.deposit x.val t

/-- TRACE_STREAM_WRITE (R173). -/
def execTraceStreamWrite (x : Fin 72) (s : State) : Host.Outcome State Fault Refusal :=
  s.act fun m => m.traceStream x.val

/-- COMMIT_FENCE (R48). -/
def execCommitFence (g : Fin 16) (arb : BitVec 72) (s : State) : Host.Outcome State Fault Refusal :=
  s.act fun m => m.commitFence g.val arb.toNat

/-- STAGING_LOCK (R23). -/
def execStagingLock (g : Fin 16) (s : State) : Host.Outcome State Fault Refusal :=
  s.act fun m => m.stagingLock g.val

/-- APPLY_FENCE (R44). -/
def execApplyFence (g : Fin 16) (s : State) : Host.Outcome State Fault Refusal :=
  s.act fun m => m.applyFence g.val

/-- MIRROR_WRITE (R44). -/
def execMirrorWrite (r : Req) (x : Fin 72) (off : Nat) (wide : Bool) (v : BitVec 64) (s : State) : Host.Outcome State Fault Refusal :=
  s.act fun m => m.writeBy r (Blk.base .sl x.val + 0xC000 + off % 0x4000) (if wide then 8 else 4) v

/-- STAGE_CLOSE (R44). -/
def execStageClose (r : Req) (x : Fin 72) (tag : BitVec 16) (s : State) : Host.Outcome State Fault Refusal :=
  s.act fun m => m.writeReg32 r (AX_STAGE_GEN.CLOSE.addr x.val) (AX_STAGE_GEN.CLOSE.into (tag.setWidth 32) 1)

/-- INTERLOCK_WRITE_LANDS (R25). -/
def execInterlockWriteLands (x : Fin 72) (s : State) : Host.Outcome State Fault Refusal :=
  s.act fun m => m.waitingLand x.val

/-- SLICE_GROUP_CHANGE (R528). -/
def execSliceGroupChange (r : Req) (x : Fin 72) (pg : Fin 16) (s : State) : Host.Outcome State Fault Refusal :=
  s.act fun m => m.writeReg32 r (AX_CTRL.PG.addr x.val) (AX_CTRL.PG.into (m.rg (AX_CTRL.PG.addr x.val)) pg.val)

/-- SLICE_ENABLE (R149). -/
def execSliceEnable (r : Req) (x : Fin 72) (v : BitVec 32) (s : State) : Host.Outcome State Fault Refusal :=
  s.act fun m => m.writeReg32 r (AX_CTRL.EN.addr x.val) (AX_CTRL.EN.into v 1)

/-- SLICE_DISABLE (R149). -/
def execSliceDisable (r : Req) (x : Fin 72) (v : BitVec 32) (s : State) : Host.Outcome State Fault Refusal :=
  s.act fun m => m.writeReg32 r (AX_CTRL.EN.addr x.val) (AX_CTRL.EN.into v 0)

/-- GROUP_ENABLE (R42). -/
def execGroupEnable (r : Req) (g : Fin 16) (v : BitVec 32) (s : State) : Host.Outcome State Fault Refusal :=
  s.act fun m => m.writeReg32 r (TB_PG_CTRL.EN.addr g.val) (TB_PG_CTRL.EN.into v 1)

/-- GROUP_DISABLE (R43). -/
def execGroupDisable (r : Req) (g : Fin 16) (v : BitVec 32) (s : State) : Host.Outcome State Fault Refusal :=
  s.act fun m => m.writeReg32 r (TB_PG_CTRL.EN.addr g.val) (TB_PG_CTRL.EN.into v 0)

/-- GROUP_TIMING_WRITE (R43). -/
def execGroupTimingWrite (r : Req) (g : Fin 16) (reg : Fin 5) (v : BitVec 32) (s : State) : Host.Outcome State Fault Refusal :=
  s.act fun m => m.writeReg32 r (Blk.base .pg g.val + 4 * reg.val) v

/-- APPLY_HOLD_WRITE (R47). -/
def execApplyHoldWrite (r : Req) (g : Fin 16) (hold : Bool) (s : State) : Host.Outcome State Fault Refusal :=
  s.act fun m => m.writeReg32 r (TB_PG_CTRL.EN.addr g.val) (TB_PG_CTRL.APPLY_HOLD.into (m.rg (TB_PG_CTRL.EN.addr g.val)) (bit hold))

/-- VERNIER_RECALIBRATION (R36). -/
def execVernierRecalibration (s : State) : Host.Outcome State Fault Refusal :=
  s.act fun m => m

/-- WINDOW_ENABLE (R55). -/
def execWindowEnable (r : Req) (w : Fin 64) (v : BitVec 32) (s : State) : Host.Outcome State Fault Refusal :=
  s.act fun m => m.writeReg32 r (TB_TW_CTRL.EN.addr w.val) (TB_TW_CTRL.EN.into v 1)

/-- WINDOW_DISARM (R55). -/
def execWindowDisarm (r : Req) (w : Fin 64) (v : BitVec 32) (s : State) : Host.Outcome State Fault Refusal :=
  s.act fun m => m.writeReg32 r (TB_TW_CTRL.EN.addr w.val) (TB_TW_CTRL.EN.into v 0)

/-- WINDOW_SPAN_START (R53). -/
def execWindowSpanStart (w : Fin 64) (s : State) : Host.Outcome State Fault Refusal :=
  s.act fun m => m.windowSpan w.val

/-- WINDOW_MISSED (R54). -/
def execWindowMissed (w : Fin 64) (s : State) : Host.Outcome State Fault Refusal :=
  s.act fun m => m.windowMissed w.val

end Sys2Proof.Machine
end

