-- ==== Sys2Proof/Machine/BootRows.lean ====
section
/-! DEFINITION. The commands of boot, images and the life cycle (R476 to R490): each row's meaning, by the operations it names. -/

namespace Sys2Proof.Machine

/-- SYS_IMG_CMD with GO and OP. -/
def imgWord (op : Nat) : W32 := SYS_IMG_CMD.OP.into (SYS_IMG_CMD.GO.into 0 1) op

/-- SYS_LC_CMD as written, with GO and OP. -/
def lcWord (op : Nat) (v : W32) : W32 := SYS_LC_CMD.OP.into (SYS_LC_CMD.GO.into v 1) op

/-- BOOT_ROM (R478). -/
def execBootRom (flash : Bool) (s : State) : Host.Outcome State Fault Refusal :=
  s.act fun m => m.bootRom flash

/-- BOOT_COMPLETE (R478). -/
def execBootComplete (s : State) : Host.Outcome State Fault Refusal :=
  s.act fun m => m.bootComplete

/-- PAIR_LOADER_START (R486). -/
def execPairLoaderStart (p : Fin 8) (s : State) : Host.Outcome State Fault Refusal :=
  s.act fun m => m.loaderStart p.val

/-- PAIR_LOADER_END (R486). -/
def execPairLoaderEnd (p : Fin 8) (ok : Bool) (s : State) : Host.Outcome State Fault Refusal :=
  s.act fun m => m.loaderEnd p.val ok

/-- IMG_VERIFY (R487). -/
def execImgVerify (r : Req) (s : State) : Host.Outcome State Fault Refusal :=
  s.act fun m => m.writeReg32 r (SYS_IMG_CMD.GO.addr 0) (imgWord 1)

/-- IMG_PROGRAM (R488). -/
def execImgProgram (r : Req) (s : State) : Host.Outcome State Fault Refusal :=
  s.act fun m => m.writeReg32 r (SYS_IMG_CMD.GO.addr 0) (imgWord 2)

/-- IMAGE_ENGINE_COMPLETE (R487). -/
def execImageEngineComplete (flash : Bool) (s : State) : Host.Outcome State Fault Refusal :=
  s.act fun m => m.imageDone flash

/-- LC_TRANSITION (R485). -/
def execLcTransition (r : Req) (v : BitVec 32) (s : State) : Host.Outcome State Fault Refusal :=
  s.act fun m => m.writeReg32 r (SYS_LC_CMD.GO.addr 0) (lcWord 1 v)

/-- LC_KEY (R485). -/
def execLcKey (r : Req) (v : BitVec 32) (s : State) : Host.Outcome State Fault Refusal :=
  s.act fun m => m.writeReg32 r (SYS_LC_CMD.GO.addr 0) (lcWord 2 v)

/-- LC_REVOKE (R485). -/
def execLcRevoke (r : Req) (v : BitVec 32) (s : State) : Host.Outcome State Fault Refusal :=
  s.act fun m => m.writeReg32 r (SYS_LC_CMD.GO.addr 0) (lcWord 3 v)

/-- LC_FLOOR (R485). -/
def execLcFloor (r : Req) (v : BitVec 32) (s : State) : Host.Outcome State Fault Refusal :=
  s.act fun m => m.writeReg32 r (SYS_LC_CMD.GO.addr 0) (lcWord 4 v)

/-- RECOVERY_IMAGE_BOOT (R483). -/
def execRecoveryImageBoot (a : Nat) (s : State) : Host.Outcome State Fault Refusal :=
  s.act fun m => m.recoveryBoot a

end Sys2Proof.Machine
end

