-- ==== Sys2Proof/Machine/ComparatorRows.lean ====
section
/-! DEFINITION. The commands of the comparators and their windows (R89 to R108): each row's meaning, by the operations it names. -/

namespace Sys2Proof.Machine

/-- COMPARATOR_INPUT_CROSSING (R91). -/
def execComparatorInputCrossing (c : Fin 256) (e : Edge) (trip : Bool) (s : State) : Host.Outcome State Fault Refusal :=
  s.act fun m => m.cmpCross c.val e trip

/-- BLANK_END (R93). -/
def execBlankEnd (c : Fin 256) (s : State) : Host.Outcome State Fault Refusal :=
  s.act fun m => m.blankEnd c.val

/-- COMPARATOR_SETTLED (R94). -/
def execComparatorSettled (c : Fin 256) (n : BandSide) (s : State) : Host.Outcome State Fault Refusal :=
  s.act fun m => m.cmpSettled c.val n

/-- COMPARATOR_ENABLE (R108). -/
def execComparatorEnable (r : Req) (c : Fin 256) (v : BitVec 32) (s : State) : Host.Outcome State Fault Refusal :=
  s.act fun m => m.writeReg32 r (CMP_CTRL.EN.addr c.val) (CMP_CTRL.EN.into v 1)

/-- COMPARATOR_DISABLE (R108). -/
def execComparatorDisable (r : Req) (c : Fin 256) (v : BitVec 32) (s : State) : Host.Outcome State Fault Refusal :=
  s.act fun m => m.writeReg32 r (CMP_CTRL.EN.addr c.val) (CMP_CTRL.EN.into v 0)

/-- COMPARATOR_ARM (R108). -/
def execComparatorArm (r : Req) (c : Fin 256) (v : BitVec 32) (s : State) : Host.Outcome State Fault Refusal :=
  s.act fun m => m.writeReg32 r (CMP_CTRL.EN.addr c.val) (CMP_CTRL.ARM.into v 1)

/-- COMPARATOR_DISARM (R108). -/
def execComparatorDisarm (r : Req) (c : Fin 256) (v : BitVec 32) (s : State) : Host.Outcome State Fault Refusal :=
  s.act fun m => m.writeReg32 r (CMP_CTRL.EN.addr c.val) (CMP_CTRL.ARM.into v 0)

/-- COMPARATOR_MODE_CHANGE (R108). -/
def execComparatorModeChange (r : Req) (c : Fin 256) (v : BitVec 32) (s : State) : Host.Outcome State Fault Refusal :=
  s.act fun m => m.writeReg32 r (CMP_CTRL.EN.addr c.val) v

/-- THRESHOLD_WRITE (R90). -/
def execThresholdWrite (r : Req) (c : Fin 256) (thr : BitVec 10) (s : State) : Host.Outcome State Fault Refusal :=
  s.act fun m => m.writeReg32 r (CMP_THR.THR.addr c.val) (thr.setWidth 32)

/-- CMP_ACT_WRITE (R97). -/
def execCmpActWrite (r : Req) (c : Fin 256) (v : BitVec 32) (s : State) : Host.Outcome State Fault Refusal :=
  s.act fun m => m.writeReg32 r (CMP_ACT.CHOP.addr c.val) v

/-- CMP_WINDOW_ENABLE (R100). -/
def execCmpWindowEnable (r : Req) (w : Fin 128) (v : BitVec 32) (s : State) : Host.Outcome State Fault Refusal :=
  s.act fun m => m.writeReg32 r (CMP_WIN_CTRL.EN.addr w.val) (CMP_WIN_CTRL.EN.into v 1)

/-- CMP_WINDOW_DISABLE (R100). -/
def execCmpWindowDisable (r : Req) (w : Fin 128) (v : BitVec 32) (s : State) : Host.Outcome State Fault Refusal :=
  s.act fun m => m.writeReg32 r (CMP_WIN_CTRL.EN.addr w.val) (CMP_WIN_CTRL.EN.into v 0)

/-- SWAP_CHECK (R102). -/
def execSwapCheck (r : Req) (c : Fin 256) (v : BitVec 32) (s : State) : Host.Outcome State Fault Refusal :=
  s.act fun m => m.writeReg32 r (CMP_CHK.CMD.addr c.val) (CMP_CHK.CMD.into v 1)

/-- TIE_CHECK (R103). -/
def execTieCheck (r : Req) (c : Fin 256) (v : BitVec 32) (s : State) : Host.Outcome State Fault Refusal :=
  s.act fun m => m.writeReg32 r (CMP_CHK.CMD.addr c.val) (CMP_CHK.CMD.into v 2)

/-- READBACK_CHECK (R105). -/
def execReadbackCheck (r : Req) (c : Fin 256) (v : BitVec 32) (s : State) : Host.Outcome State Fault Refusal :=
  s.act fun m => m.writeReg32 r (CMP_CHK.CMD.addr c.val) (CMP_CHK.CMD.into v 3)

/-- CHECK_END (R104). -/
def execCheckEnd (c : Fin 256) (obs : CheckObs) (s : State) : Host.Outcome State Fault Refusal :=
  s.act fun m => m.checkEnd c.val obs

/-- AUTO_CHECK_INTERVAL (R106). -/
def execAutoCheckInterval (c : Fin 256) (s : State) : Host.Outcome State Fault Refusal :=
  s.act fun m => m.autoCheck c.val

end Sys2Proof.Machine
end

