-- ==== Sys2Proof/Machine/ConverterRows.lean ====
section
/-! DEFINITION. The commands of the current converters (R57 to R88): each row's meaning, by the operations it names. -/

namespace Sys2Proof.Machine

/-- CONVERSION_HOLD (R61). -/
def execConversionHold (b : Fin 16) (c : Fin 14) (s : State) : Host.Outcome State Fault Refusal :=
  s.act fun m => m.cellHold b.val c.val

/-- CONVERSION_COMPLETE (R60). -/
def execConversionComplete (b : Fin 16) (c : Fin 14) (code : BitVec 12) (s : State) : Host.Outcome State Fault Refusal :=
  s.act fun m => m.conversionDone b.val c.val code.toInt

/-- SLOT_FCFG_WRITE (R68). -/
def execSlotFcfgWrite (r : Req) (b : Fin 16) (j : Fin 13) (v : BitVec 32) (s : State) : Host.Outcome State Fault Refusal :=
  s.act fun m => m.writeReg32 r (CB_SLOT_FCFG.MODE.addr (16 * b.val + j.val)) v

/-- INJ_REQ (R72). -/
def execInjReq (r : Req) (b : Fin 16) (v : BitVec 32) (s : State) : Host.Outcome State Fault Refusal :=
  s.act fun m => m.writeReg32 r (CB_INJ_REQ.GO.addr b.val) (CB_INJ_REQ.GO.into v 1)

/-- INJECTED_CONVERSION_DONE (R73). -/
def execInjectedConversionDone (b : Fin 16) (t : Nat) (code : BitVec 12) (s : State) : Host.Outcome State Fault Refusal :=
  s.act fun m => m.injectionDone b.val t code.toInt

/-- BANK_ENABLE (R75). -/
def execBankEnable (r : Req) (b : Fin 16) (v : BitVec 32) (s : State) : Host.Outcome State Fault Refusal :=
  s.act fun m => m.writeReg32 r (CB_CTRL.EN.addr b.val) (CB_CTRL.EN.into v 1)

/-- BANK_READY (R75). -/
def execBankReady (b : Fin 16) (phase : BitVec 140) (s : State) : Host.Outcome State Fault Refusal :=
  s.act fun m => m.bankReady b.val phase.toNat

/-- BANK_DISABLE (R84). -/
def execBankDisable (r : Req) (b : Fin 16) (v : BitVec 32) (s : State) : Host.Outcome State Fault Refusal :=
  s.act fun m => m.writeReg32 r (CB_CTRL.EN.addr b.val) (CB_CTRL.EN.into v 0)

/-- CAL_CMD_STEP (R76). -/
def execCalCmdStep (r : Req) (b : Fin 16) (s : State) : Host.Outcome State Fault Refusal :=
  s.act fun m => m.writeReg32 r (CB_CAL_CMD.CMD.addr b.val) 1

/-- CAL_CMD_ROTATION (R82). -/
def execCalCmdRotation (r : Req) (b : Fin 16) (s : State) : Host.Outcome State Fault Refusal :=
  s.act fun m => m.writeReg32 r (CB_CAL_CMD.CMD.addr b.val) 2

/-- CAL_CMD_STOP (R83). -/
def execCalCmdStop (r : Req) (b : Fin 16) (s : State) : Host.Outcome State Fault Refusal :=
  s.act fun m => m.writeReg32 r (CB_CAL_CMD.CMD.addr b.val) 3

/-- CAL_GAP_EXPIRY (R82). -/
def execCalGapExpiry (b : Fin 16) (s : State) : Host.Outcome State Fault Refusal :=
  s.act fun m => m.gapEnd b.val

/-- ROTATION_OVERLAP_END (R76). -/
def execRotationOverlapEnd (b : Fin 16) (s : State) : Host.Outcome State Fault Refusal :=
  s.act fun m => m.overlapEnd b.val

/-- CELL_CALIBRATION_DONE (R74). -/
def execCellCalibrationDone (b : Fin 16) (c : Fin 14) (z : Int) (p : Int) (n : Int) (s : State) : Host.Outcome State Fault Refusal :=
  s.act fun m => m.calDone b.val c.val z p n

end Sys2Proof.Machine
end

