-- ==== Sys2Proof/Machine/DebugRows.lean ====
section
/-! DEFINITION. The commands of the TAP, the Damroth link and run control (R491 to R510): each row's meaning, by the operations it names. -/

namespace Sys2Proof.Machine

/-- DBG_CMD with ACT and TARGET. -/
def dbgWord (act : Nat) (t : BitVec 8) : W32 := DBG_CMD.TARGET.into (DBG_CMD.ACT.into 0 act) t.toNat

/-- SAMPLE/PRELOAD: the boundary cells take what is shifted in. -/
def Mach.samplePre (m : Mach) (cells : List Bool) : Mach :=
  let m := m.tapInstr 2
  if m.dbg.ir = 2 then { m with dbg := { m.dbg with cells := cells } } else m

/-- EXTEST (R492). -/
def execExtest (s : State) : Host.Outcome State Fault Refusal :=
  s.actAlways fun m => m.tapInstr 0

/-- IDCODE (R492). -/
def execIdcode (s : State) : Host.Outcome State Fault Refusal :=
  s.actAlways fun m => { m.tapInstr 1 with resp := .data 0x16450A53 }

/-- SAMPLE_PRELOAD (R492). -/
def execSamplePreload (cells : List Bool) (s : State) : Host.Outcome State Fault Refusal :=
  s.actAlways fun m => m.samplePre cells

/-- BYPASS (R492). -/
def execBypass (s : State) : Host.Outcome State Fault Refusal :=
  s.actAlways fun m => m.tapInstr 0xFF

/-- DMR_RD32 (R499). -/
def execDmrRd32 (f : DmrFrame) (a : BitVec 32) (s : State) : Host.Outcome State Fault Refusal :=
  s.act fun m => m.dmrRequest f 1 a.toNat 0 fun m => m.dmrRead f a.toNat 4

/-- DMR_WR32 (R499). -/
def execDmrWr32 (f : DmrFrame) (a : BitVec 32) (v : BitVec 32) (s : State) : Host.Outcome State Fault Refusal :=
  s.act fun m => m.dmrRequest f 2 a.toNat v.toNat fun m => m.dmrWrite f a.toNat v

/-- DMR_RD64 (R499). -/
def execDmrRd64 (f : DmrFrame) (a : BitVec 32) (s : State) : Host.Outcome State Fault Refusal :=
  s.act fun m => m.dmrRequest f 3 a.toNat 0 fun m => m.dmrRead f a.toNat 8

/-- DMR_REGRD (R504). -/
def execDmrRegrd (f : DmrFrame) (a : BitVec 32) (s : State) : Host.Outcome State Fault Refusal :=
  s.act fun m => m.dmrRequest f 4 a.toNat 0 fun m => (m.dmrRegRead f.core.val a.toNat, m)

/-- DMR_REGWR (R504). -/
def execDmrRegwr (f : DmrFrame) (a : BitVec 32) (v : BitVec 32) (s : State) : Host.Outcome State Fault Refusal :=
  s.act fun m => m.dmrRequest f 5 a.toNat v.toNat fun m => m.dmrRegWrite f.core.val a.toNat v

/-- SESSION_OPEN (R497). -/
def execSessionOpen (s : State) : Host.Outcome State Fault Refusal :=
  s.act fun m => m.sessOpen

/-- SESSION_CLOSE (R498). -/
def execSessionClose (s : State) : Host.Outcome State Fault Refusal :=
  s.act fun m => m.writeReg32 (.debug true) (DBG_SESS.CLOSE.addr 0) (DBG_SESS.CLOSE.into 0 1)

/-- SESSION_TIMEOUT (R497). -/
def execSessionTimeout (s : State) : Host.Outcome State Fault Refusal :=
  s.act fun m => m.sessTimeout

/-- DEBUG_HALT (R503). -/
def execDebugHalt (t : BitVec 8) (s : State) : Host.Outcome State Fault Refusal :=
  s.act fun m => m.writeReg32 (.debug true) (DBG_CMD.ACT.addr 0) (dbgWord 1 t)

/-- BREAKPOINT_MATCH (R502). -/
def execBreakpointMatch (c : Fin 16) (s : State) : Host.Outcome State Fault Refusal :=
  s.act fun m => m.bpHalt c.val

/-- DEBUG_RESUME (R509). -/
def execDebugResume (t : BitVec 8) (s : State) : Host.Outcome State Fault Refusal :=
  s.act fun m => m.writeReg32 (.debug true) (DBG_CMD.ACT.addr 0) (dbgWord 2 t)

/-- DEBUG_STEP (R506). -/
def execDebugStep (t : BitVec 8) (s : State) : Host.Outcome State Fault Refusal :=
  s.act fun m => m.writeReg32 (.debug true) (DBG_CMD.ACT.addr 0) (dbgWord 3 t)

/-- FEED_GO (R505). -/
def execFeedGo (item : Fin 8) (s : State) : Host.Outcome State Fault Refusal :=
  .next { s with m := if s.m.held ≠ [] then s.m else (s.m.writeReg32 (.debug true) (DBG_FEED_GO.V.addr 0) 1).settle item.val }

end Sys2Proof.Machine
end

