-- ==== Sys2Proof/Machine/GateRows.lean ====
section
/-! DEFINITION. The commands of gate outputs (R213 to R242) and the safe inputs (R292 to R297): each row's meaning, by the operations it names. -/

namespace Sys2Proof.Machine

/-- CARRIER_EVENT (R219). -/
def execCarrierEvent (x : Fin 72) (leg : Fin 4) (s : State) : Host.Outcome State Fault Refusal :=
  s.act fun m => m.carrierEvent x.val leg.val

/-- GATE_EDGE (R221). -/
def execGateEdge (x : Fin 72) (g : Fin 8) (on : Bool) (s : State) : Host.Outcome State Fault Refusal :=
  s.act fun m => m.gateEdge x.val g.val on

/-- GT_CMD_SHUT (R229). -/
def execGtCmdShut (r : Req) (x : Fin 72) (s : State) : Host.Outcome State Fault Refusal :=
  s.act fun m => m.writeReg32 r (AX_GT_CMD.CMD.addr x.val) 1

/-- GT_CMD_RELEASE (R232). -/
def execGtCmdRelease (r : Req) (x : Fin 72) (s : State) : Host.Outcome State Fault Refusal :=
  s.act fun m => m.writeReg32 r (AX_GT_CMD.CMD.addr x.val) 2

/-- STO_SAFE_STATE_ENTRY (R294). -/
def execStoSafeStateEntry (n : Fin 8) (ch : Bool) (low : Bool) (e : Edge) (s : State) : Host.Outcome State Fault Refusal :=
  s.actAlways fun m => m.stoChannel n.val ch low e

/-- STO_RETURN (R296). -/
def execStoReturn (n : Fin 8) (s : State) : Host.Outcome State Fault Refusal :=
  s.act fun m => m.stoReturn n.val

/-- STO_DISCREPANCY (R296). -/
def execStoDiscrepancy (n : Fin 8) (s : State) : Host.Outcome State Fault Refusal :=
  s.act fun m => m.stoDiscrepancy n.val

/-- SAFE_OUTPUT_DISAGREE (R297). -/
def execSafeOutputDisagree (s : State) : Host.Outcome State Fault Refusal :=
  s.act fun m => m.safeDisagree

/-- GATE_FAULT_ASSERT (R237). -/
def execGateFaultAssert (x : Fin 72) (n : Fin 2) (e : Edge) (s : State) : Host.Outcome State Fault Refusal :=
  s.act fun m => m.faultAssert x.val n.val e

/-- GATE_FAULT_DEASSERT (R230). -/
def execGateFaultDeassert (x : Fin 72) (n : Fin 2) (s : State) : Host.Outcome State Fault Refusal :=
  s.act fun m => m.faultDeassert x.val n.val

end Sys2Proof.Machine
end

