-- ==== Sys2Proof/Machine/OutsideRows.lean ====
section
/-! DEFINITION. The commands of the outside ports (R280 to R291, R298): each row's meaning, by the operations it names. -/

namespace Sys2Proof.Machine

/-- PCIE_LINK_DOWN (R283). -/
def execPcieLinkDown (s : State) : Host.Outcome State Fault Refusal :=
  s.act fun m => m.pcieDown

/-- PCIE_LINK_UP (R283). -/
def execPcieLinkUp (gen : Fin 4) (width : Fin 3) (s : State) : Host.Outcome State Fault Refusal :=
  s.act fun m => m.pcieUp (gen.val + 1) (2 ^ width.val)

/-- ETH_FRAME_RECEIVE (R287). -/
def execEthFrameReceive (p : Fin 2) (t : Nat) (tc : Fin 8) (frame : List (BitVec 8)) (ok : Bool) (s : State) : Host.Outcome State Fault Refusal :=
  s.act fun m => m.ethReceive p.val tc.val t frame ok

/-- ETH_FRAME_TRANSMIT (R286). -/
def execEthFrameTransmit (p : Fin 2) (tc : Fin 8) (t : Nat) (ok : Bool) (s : State) : Host.Outcome State Fault Refusal :=
  s.act fun m => m.ethTransmit p.val tc.val t ok

/-- ETH_LINK_CHANGE (R284). -/
def execEthLinkChange (p : Fin 2) (up : Bool) (s : State) : Host.Outcome State Fault Refusal :=
  s.act fun m => m.ethLink p.val up

/-- TUNNEL_FRAME_RECEIVE (R288). -/
def execTunnelFrameReceive (src : BitVec 48) (payload : List (BitVec 8)) (s : State) : Host.Outcome State Fault Refusal :=
  s.act fun m => m.tunnelReceive src.toNat payload

/-- PTP_APPLY (R285). -/
def execPtpApply (r : Req) (p : Fin 2) (s : State) : Host.Outcome State Fault Refusal :=
  s.act fun m => m.writeReg32 r (OP_ETH_PTP_CMD.APPLY.addr p.val) 1

/-- GCL_GATE_CHANGE (R286). -/
def execGclGateChange (p : Fin 2) (s : State) : Host.Outcome State Fault Refusal :=
  s.act fun m => m.gateChange p.val

/-- CAN_FRAME_RECEIVE (R290). -/
def execCanFrameReceive (f : Fin 8) (t : Nat) (id : BitVec 29) (ide : Bool) (info : BitVec 8) (data : List (BitVec 8)) (ok : Bool) (s : State) : Host.Outcome State Fault Refusal :=
  s.act fun m => m.canReceive f.val t id.toNat ide info.toNat data ok

/-- CAN_FRAME_TRANSMIT (R289). -/
def execCanFrameTransmit (f : Fin 8) (t : Nat) (ok : Bool) (s : State) : Host.Outcome State Fault Refusal :=
  s.act fun m => m.canTransmit f.val t ok

/-- UART_RECEIVE_END (R289). -/
def execUartReceiveEnd (f : Fin 8) (t : Nat) (data : List (BitVec 8)) (ok : Bool) (s : State) : Host.Outcome State Fault Refusal :=
  s.act fun m => m.uartReceive f.val t data ok

/-- UART_TRANSMIT (R289). -/
def execUartTransmit (f : Fin 8) (t : Nat) (s : State) : Host.Outcome State Fault Refusal :=
  s.act fun m => m.uartTransmit f.val t

/-- VISION_TRIGGER_EDGE (R292). -/
def execVisionTriggerEdge (o : Fin 16) (rise : Bool) (s : State) : Host.Outcome State Fault Refusal :=
  s.act fun m => m.visEdge o.val rise

/-- STROBE_EDGE (R293). -/
def execStrobeEdge (n : Fin 16) (e : PinEdge) (s : State) : Host.Outcome State Fault Refusal :=
  s.act fun m => m.strobe n.val e.toEdge e.rising

end Sys2Proof.Machine
end

