-- ==== Sys2Proof/Machine/PairRows.lean ====
section
/-! DEFINITION. The commands of pairs and milestones (R395 to R418), memories (R427, R433): each row's meaning, by the operations it names. -/

namespace Sys2Proof.Machine

/-- What has struck a word: nothing, one bit, two bits. -/
def upsetOf (u : Fin 3) : Ecc := if u.val = 0 then .good else if u.val = 1 then .correctable else .bad false

/-- REPLAY_END (R405). -/
def execReplayEnd (p : Fin 8) (out : Fin 4) (s : State) : Host.Outcome State Fault Refusal :=
  s.act fun m => m.replayEnd p.val out.val

/-- MILESTONE_TIMER (R401). -/
def execMilestoneTimer (p : Fin 8) (s : State) : Host.Outcome State Fault Refusal :=
  s.act fun m => m.msTimer p.val

/-- MILESTONE_RESERVATION_WAIT (R401). -/
def execMilestoneReservationWait (p : Fin 8) (s : State) : Host.Outcome State Fault Refusal :=
  s.act fun m => m.msReservation p.val

/-- COMPARATOR_SELF_TEST (R409). -/
def execComparatorSelfTest (p : Fin 8) (pass : Bool) (s : State) : Host.Outcome State Fault Refusal :=
  s.act fun m => m.selfTest p.val pass

/-- PAIR_RESTART (R417). -/
def execPairRestart (r : Req) (p : Fin 8) (s : State) : Host.Outcome State Fault Refusal :=
  s.act fun m => m.writeReg32 r (SYS_PAIR_CMD.CMD.addr p.val) 1

/-- PAIR_RESET_REQUEST (R473). -/
def execPairResetRequest (r : Req) (p : Fin 8) (s : State) : Host.Outcome State Fault Refusal :=
  s.act fun m => m.writeReg32 r (SYS_PAIR_CMD.CMD.addr p.val) 2

/-- SCRUB_READ (R427). -/
def execScrubRead (k : Nat) (upset : Fin 3) (s : State) : Host.Outcome State Fault Refusal :=
  s.act fun m => m.scrub k (upsetOf upset)

/-- WIPE_COMPLETE (R434). -/
def execWipeComplete (w : Fin 14) (s : State) : Host.Outcome State Fault Refusal :=
  s.act fun m => m.wipeComplete w.val

end Sys2Proof.Machine
end

