-- ==== Sys2Proof/Machine/PortRows.lean ====
section
/-! DEFINITION. The commands of the position ports (R109 to R126): each row's meaning, by the operations it names. -/

namespace Sys2Proof.Machine

/-- PORT_ENABLE (R119). -/
def execPortEnable (r : Req) (p : Fin 72) (v : BitVec 32) (s : State) : Host.Outcome State Fault Refusal :=
  s.act fun m => m.writeReg32 r (PP_CTRL.EN.addr p.val) (PP_CTRL.EN.into v 1)

/-- PORT_DISABLE (R126). -/
def execPortDisable (r : Req) (p : Fin 72) (v : BitVec 32) (s : State) : Host.Outcome State Fault Refusal :=
  s.act fun m => m.writeReg32 r (PP_CTRL.EN.addr p.val) (PP_CTRL.EN.into v 0)

/-- QUADRATURE_EDGE (R115). -/
def execQuadratureEdge (p : Fin 72) (e : Edge) (chB : Bool) (level : Bool) (s : State) : Host.Outcome State Fault Refusal :=
  s.act fun m => m.quadEdge p.val e chB level

/-- INDEX_EDGE (R117). -/
def execIndexEdge (p : Fin 72) (e : PinEdge) (s : State) : Host.Outcome State Fault Refusal :=
  s.act fun m => m.indexEdge p.val e.toEdge e.rising

/-- SERIAL_TRANSACTION_START (R118). -/
def execSerialTransactionStart (p : Fin 72) (s : State) : Host.Outcome State Fault Refusal :=
  s.act fun m => m.txnStart p.val

/-- SERIAL_START_TIMEOUT (R118). -/
def execSerialStartTimeout (p : Fin 72) (s : State) : Host.Outcome State Fault Refusal :=
  s.act fun m => m.txnTimeout p.val

/-- SERIAL_FRAME_COMPLETE (R120). -/
def execSerialFrameComplete (p : Fin 72) (word : BitVec 64) (crc : BitVec 16) (nE : Bool) (nW : Bool) (idleOk : Bool) (s : State) : Host.Outcome State Fault Refusal :=
  s.act fun m => m.txnDone p.val word.toNat crc.toNat nE nW idleOk

/-- LINE_FAULT (R122). -/
def execLineFault (p : Fin 72) (s : State) : Host.Outcome State Fault Refusal :=
  s.act fun m => m.lineFault p.val

/-- PRESET_WRITE (R121). -/
def execPresetWrite (r : Req) (p : Fin 72) (v : BitVec 64) (s : State) : Host.Outcome State Fault Refusal :=
  s.act fun m => m.writeBy r (PP_PRESET.VAL.addr p.val) 8 v

/-- BISS_REGISTER_ACCESS (R124). -/
def execBissRegisterAccess (r : Req) (p : Fin 72) (v : BitVec 32) (s : State) : Host.Outcome State Fault Refusal :=
  s.act fun m => m.writeReg32 r (PP_BISS_CMD.GO.addr p.val) (PP_BISS_CMD.GO.into v 1)

/-- BISS_ACCESS_COMPLETE (R124). -/
def execBissAccessComplete (p : Fin 72) (st : Fin 3) (data : BitVec 8) (s : State) : Host.Outcome State Fault Refusal :=
  s.act fun m => m.bissDone p.val st.val data.toNat

end Sys2Proof.Machine
end

