-- ==== Sys2Proof/Machine/PowerRows.lean ====
section
/-! DEFINITION. The commands of power, clocks and reset (R457 to R475): each row's meaning, by the operations it names. -/

namespace Sys2Proof.Machine

/-- SYS_PD_CMD with GO for domain `d`. -/
def pdWord (on : Bool) (d : BitVec 6) : W32 := SYS_PD_CMD.DOMAIN.into (SYS_PD_CMD.ON.into (SYS_PD_CMD.GO.into 0 1) (bit on)) d.toNat

/-- POWER_GOOD (R458). -/
def execPowerGood (straps : BitVec 4) (s : State) : Host.Outcome State Fault Refusal :=
  s.actAlways fun m => m.powerGood straps.toNat

/-- SUPPLY_LOSS (R459). -/
def execSupplyLoss (s : State) : Host.Outcome State Fault Refusal :=
  s.actAlways fun m => m.supplyLoss

/-- RESET_N_ASSERT (R460). -/
def execResetNAssert (s : State) : Host.Outcome State Fault Refusal :=
  s.actAlways fun m => m.resetN

/-- TEST_EN_ASSERT (R460). -/
def execTestEnAssert (low : Bool) (s : State) : Host.Outcome State Fault Refusal :=
  s.actAlways fun m => m.testEn low

/-- WARM_RESET_CMD (R475). -/
def execWarmResetCmd (r : Req) (v : BitVec 32) (s : State) : Host.Outcome State Fault Refusal :=
  s.act fun m => m.writeReg32 r (SYS_RST_CMD.CMD.addr 0) (SYS_RST_CMD.CMD.into v 1)

/-- VCORE_RETURN (R471). -/
def execVcoreReturn (kept : Bool) (s : State) : Host.Outcome State Fault Refusal :=
  s.actAlways fun m => m.vcoreReturn kept

/-- TIMEBASE_LOCK (R461). -/
def execTimebaseLock (s : State) : Host.Outcome State Fault Refusal :=
  s.act fun m => m.lock

/-- VERNIER_CALIBRATED (R461). -/
def execVernierCalibrated (s : State) : Host.Outcome State Fault Refusal :=
  s.act fun m => m.vernierCal

/-- LOCK_LOSS (R462). -/
def execLockLoss (s : State) : Host.Outcome State Fault Refusal :=
  s.act fun m => m.lockLoss

/-- RELOCK (R463). -/
def execRelock (s : State) : Host.Outcome State Fault Refusal :=
  s.act fun m => m.relock

/-- PD_SWITCH_ON (R467). -/
def execPdSwitchOn (r : Req) (d : BitVec 6) (s : State) : Host.Outcome State Fault Refusal :=
  s.act fun m => m.writeReg32 r (SYS_PD_CMD.GO.addr 0) (pdWord true d)

/-- PD_SWITCH_OFF (R466). -/
def execPdSwitchOff (r : Req) (d : BitVec 6) (s : State) : Host.Outcome State Fault Refusal :=
  s.act fun m => m.writeReg32 r (SYS_PD_CMD.GO.addr 0) (pdWord false d)

/-- PD_SWITCH_COMPLETE (R467). -/
def execPdSwitchComplete (s : State) : Host.Outcome State Fault Refusal :=
  s.act fun m => m.pdComplete

/-- AVS_REFRESH (R468). -/
def execAvsRefresh (step : BitVec 10) (s : State) : Host.Outcome State Fault Refusal :=
  s.act fun m => m.avsRefresh step.toNat

end Sys2Proof.Machine
end

