-- ==== Sys2Proof/Machine/QueueRows.lean ====
section
/-! DEFINITION. The commands of queues (R269 to R279): each row's meaning, by the operations it names. -/

namespace Sys2Proof.Machine

/-- DOORBELL (R273). -/
def execDoorbell (r : Req) (q : Fin 4096) (side : Bool) (index : BitVec 16) (s : State) : Host.Outcome State Fault Refusal :=
  s.act fun m => m.writeReg32 r (QM_DB.SIDE.addr q.val) (QM_DB.SIDE.into (index.setWidth 32) (bit side))

/-- QUEUE_ENABLE (R272). -/
def execQueueEnable (r : Req) (q : Fin 4096) (v : BitVec 32) (s : State) : Host.Outcome State Fault Refusal :=
  s.act fun m => m.writeReg32 r (QM_CFG.EN.addr q.val) (QM_CFG.EN.into v 1)

/-- QUEUE_DISABLE (R278). -/
def execQueueDisable (r : Req) (q : Fin 4096) (v : BitVec 32) (s : State) : Host.Outcome State Fault Refusal :=
  s.act fun m => m.writeReg32 r (QM_CFG.EN.addr q.val) (QM_CFG.EN.into v 0)

/-- QUEUE_RECORD_POST (R274). -/
def execQueueRecordPost (s : State) : Host.Outcome State Fault Refusal :=
  s.act fun m => m.postNext

/-- QUEUE_MODERATION_TIMEOUT (R277). -/
def execQueueModerationTimeout (q : Fin 4096) (s : State) : Host.Outcome State Fault Refusal :=
  s.act fun m => m.modTimeout q.val

/-- QM_MOD_WRITE (R277). -/
def execQmModWrite (r : Req) (q : Fin 4096) (v : BitVec 32) (s : State) : Host.Outcome State Fault Refusal :=
  s.act fun m => m.writeReg32 r (QM_MOD.CNT.addr q.val) v

end Sys2Proof.Machine
end

