-- ==== Sys2Proof/Machine/ReedRows.lean ====
section
/-! DEFINITION. The commands of the Reed cores (R319 to R394): each row's meaning, by the operations it names. -/

namespace Sys2Proof.Machine

/-- The number of a unit, in the order of R386. -/
def unitNo : RUnit → Nat
  | .alu0 => 0
  | .alu1 => 1
  | .mul => 2
  | .cmp => 3
  | .lsu => 4
  | .fpu => 5
  | .ctl => 6
  | .qp => 7

/-- BUNDLE_EXECUTE (R325). -/
def execBundleExecute (c : Fin 16) (item : Fin 8) (s : State) : Host.Outcome State Fault Refusal :=
  s.act fun m => m.issue c.val none item.val

/-- REPEAT (R342). -/
def execReedRepeat (c : Fin 16) (fld : BitVec 20) (s : State) : Host.Outcome State Fault Refusal :=
  s.act fun m => m.issue c.val (some (repBundle fld)) 0

/-- ADD (R330). -/
def execReedAdd (c : Fin 16) (u : Bool) (t : BitVec 64) (s : State) : Host.Outcome State Fault Refusal :=
  s.act fun m => m.move c (if u then 0x61 else 0x51) t

/-- SUB (R330). -/
def execReedSub (c : Fin 16) (u : Bool) (t : BitVec 64) (s : State) : Host.Outcome State Fault Refusal :=
  s.act fun m => m.move c (if u then 0x62 else 0x52) t

/-- AND (R330). -/
def execReedAnd (c : Fin 16) (u : Bool) (t : BitVec 64) (s : State) : Host.Outcome State Fault Refusal :=
  s.act fun m => m.move c (if u then 0x63 else 0x53) t

/-- OR (R330). -/
def execReedOr (c : Fin 16) (u : Bool) (t : BitVec 64) (s : State) : Host.Outcome State Fault Refusal :=
  s.act fun m => m.move c (if u then 0x64 else 0x54) t

/-- XOR (R330). -/
def execReedXor (c : Fin 16) (u : Bool) (t : BitVec 64) (s : State) : Host.Outcome State Fault Refusal :=
  s.act fun m => m.move c (if u then 0x65 else 0x55) t

/-- ANDN (R330). -/
def execReedAndn (c : Fin 16) (u : Bool) (t : BitVec 64) (s : State) : Host.Outcome State Fault Refusal :=
  s.act fun m => m.move c (if u then 0x66 else 0x56) t

/-- SHL (R330). -/
def execReedShl (c : Fin 16) (u : Bool) (t : BitVec 64) (s : State) : Host.Outcome State Fault Refusal :=
  s.act fun m => m.move c (if u then 0x67 else 0x57) t

/-- SHR (R330). -/
def execReedShr (c : Fin 16) (u : Bool) (t : BitVec 64) (s : State) : Host.Outcome State Fault Refusal :=
  s.act fun m => m.move c (if u then 0x68 else 0x58) t

/-- SAR (R330). -/
def execReedSar (c : Fin 16) (u : Bool) (t : BitVec 64) (s : State) : Host.Outcome State Fault Refusal :=
  s.act fun m => m.move c (if u then 0x69 else 0x59) t

/-- MIN (R330). -/
def execReedMin (c : Fin 16) (u : Bool) (t : BitVec 64) (s : State) : Host.Outcome State Fault Refusal :=
  s.act fun m => m.move c (if u then 0x6A else 0x5A) t

/-- MAX (R330). -/
def execReedMax (c : Fin 16) (u : Bool) (t : BitVec 64) (s : State) : Host.Outcome State Fault Refusal :=
  s.act fun m => m.move c (if u then 0x6B else 0x5B) t

/-- MINU (R330). -/
def execReedMinu (c : Fin 16) (u : Bool) (t : BitVec 64) (s : State) : Host.Outcome State Fault Refusal :=
  s.act fun m => m.move c (if u then 0x6C else 0x5C) t

/-- MAXU (R330). -/
def execReedMaxu (c : Fin 16) (u : Bool) (t : BitVec 64) (s : State) : Host.Outcome State Fault Refusal :=
  s.act fun m => m.move c (if u then 0x6D else 0x5D) t

/-- ADDV (R330). -/
def execReedAddv (c : Fin 16) (u : Bool) (t : BitVec 64) (s : State) : Host.Outcome State Fault Refusal :=
  s.act fun m => m.move c (if u then 0x6E else 0x5E) t

/-- SUBV (R330). -/
def execReedSubv (c : Fin 16) (u : Bool) (t : BitVec 64) (s : State) : Host.Outcome State Fault Refusal :=
  s.act fun m => m.move c (if u then 0x6F else 0x5F) t

/-- MUL (R330). -/
def execReedMul (c : Fin 16) (t : BitVec 64) (s : State) : Host.Outcome State Fault Refusal :=
  s.act fun m => m.move c 0x71 t

/-- MULHS (R330). -/
def execReedMulhs (c : Fin 16) (t : BitVec 64) (s : State) : Host.Outcome State Fault Refusal :=
  s.act fun m => m.move c 0x72 t

/-- MULHU (R330). -/
def execReedMulhu (c : Fin 16) (t : BitVec 64) (s : State) : Host.Outcome State Fault Refusal :=
  s.act fun m => m.move c 0x73 t

/-- DIV (R330). -/
def execReedDiv (c : Fin 16) (t : BitVec 64) (s : State) : Host.Outcome State Fault Refusal :=
  s.act fun m => m.move c 0x74 t

/-- DIVU (R330). -/
def execReedDivu (c : Fin 16) (t : BitVec 64) (s : State) : Host.Outcome State Fault Refusal :=
  s.act fun m => m.move c 0x75 t

/-- REM (R330). -/
def execReedRem (c : Fin 16) (t : BitVec 64) (s : State) : Host.Outcome State Fault Refusal :=
  s.act fun m => m.move c 0x76 t

/-- REMU (R330). -/
def execReedRemu (c : Fin 16) (t : BitVec 64) (s : State) : Host.Outcome State Fault Refusal :=
  s.act fun m => m.move c 0x77 t

/-- EQ (R330). -/
def execReedEq (c : Fin 16) (t : BitVec 64) (s : State) : Host.Outcome State Fault Refusal :=
  s.act fun m => m.move c 0x81 t

/-- NE (R330). -/
def execReedNe (c : Fin 16) (t : BitVec 64) (s : State) : Host.Outcome State Fault Refusal :=
  s.act fun m => m.move c 0x82 t

/-- LT (R330). -/
def execReedLt (c : Fin 16) (t : BitVec 64) (s : State) : Host.Outcome State Fault Refusal :=
  s.act fun m => m.move c 0x83 t

/-- GE (R330). -/
def execReedGe (c : Fin 16) (t : BitVec 64) (s : State) : Host.Outcome State Fault Refusal :=
  s.act fun m => m.move c 0x84 t

/-- LTU (R330). -/
def execReedLtu (c : Fin 16) (t : BitVec 64) (s : State) : Host.Outcome State Fault Refusal :=
  s.act fun m => m.move c 0x85 t

/-- GEU (R330). -/
def execReedGeu (c : Fin 16) (t : BitVec 64) (s : State) : Host.Outcome State Fault Refusal :=
  s.act fun m => m.move c 0x86 t

/-- LD8S (R331). -/
def execReedLd8s (c : Fin 16) (t : BitVec 64) (s : State) : Host.Outcome State Fault Refusal :=
  s.act fun m => m.move c 0x92 t

/-- LD8U (R331). -/
def execReedLd8u (c : Fin 16) (t : BitVec 64) (s : State) : Host.Outcome State Fault Refusal :=
  s.act fun m => m.move c 0x93 t

/-- LD16S (R331). -/
def execReedLd16s (c : Fin 16) (t : BitVec 64) (s : State) : Host.Outcome State Fault Refusal :=
  s.act fun m => m.move c 0x94 t

/-- LD16U (R331). -/
def execReedLd16u (c : Fin 16) (t : BitVec 64) (s : State) : Host.Outcome State Fault Refusal :=
  s.act fun m => m.move c 0x95 t

/-- LD32S (R331). -/
def execReedLd32s (c : Fin 16) (t : BitVec 64) (s : State) : Host.Outcome State Fault Refusal :=
  s.act fun m => m.move c 0x96 t

/-- LD32U (R331). -/
def execReedLd32u (c : Fin 16) (t : BitVec 64) (s : State) : Host.Outcome State Fault Refusal :=
  s.act fun m => m.move c 0x97 t

/-- LD64 (R331). -/
def execReedLd64 (c : Fin 16) (t : BitVec 64) (s : State) : Host.Outcome State Fault Refusal :=
  s.act fun m => m.move c 0x98 t

/-- ST8 (R331). -/
def execReedSt8 (c : Fin 16) (t : BitVec 64) (s : State) : Host.Outcome State Fault Refusal :=
  s.act fun m => m.move c 0x99 t

/-- ST16 (R331). -/
def execReedSt16 (c : Fin 16) (t : BitVec 64) (s : State) : Host.Outcome State Fault Refusal :=
  s.act fun m => m.move c 0x9A t

/-- ST32 (R331). -/
def execReedSt32 (c : Fin 16) (t : BitVec 64) (s : State) : Host.Outcome State Fault Refusal :=
  s.act fun m => m.move c 0x9B t

/-- ST64 (R331). -/
def execReedSt64 (c : Fin 16) (t : BitVec 64) (s : State) : Host.Outcome State Fault Refusal :=
  s.act fun m => m.move c 0x9C t

/-- LR64 (R371). -/
def execReedLr64 (c : Fin 16) (t : BitVec 64) (s : State) : Host.Outcome State Fault Refusal :=
  s.act fun m => m.move c 0x9D t

/-- SC64 (R373). -/
def execReedSc64 (c : Fin 16) (t : BitVec 64) (s : State) : Host.Outcome State Fault Refusal :=
  s.act fun m => m.move c 0x9E t

/-- FENCE (R364). -/
def execReedFence (c : Fin 16) (t : BitVec 64) (s : State) : Host.Outcome State Fault Refusal :=
  s.act fun m => m.move c 0x9F t

/-- JMP (R332). -/
def execReedJmp (c : Fin 16) (t : BitVec 64) (s : State) : Host.Outcome State Fault Refusal :=
  s.act fun m => m.move c 0xA1 t

/-- JREL (R332). -/
def execReedJrel (c : Fin 16) (t : BitVec 64) (s : State) : Host.Outcome State Fault Refusal :=
  s.act fun m => m.move c 0xA2 t

/-- CALL (R332). -/
def execReedCall (c : Fin 16) (t : BitVec 64) (s : State) : Host.Outcome State Fault Refusal :=
  s.act fun m => m.move c 0xA3 t

/-- CALLR (R332). -/
def execReedCallr (c : Fin 16) (t : BitVec 64) (s : State) : Host.Outcome State Fault Refusal :=
  s.act fun m => m.move c 0xA4 t

/-- FADD (R333). -/
def execReedFadd (c : Fin 16) (t : BitVec 64) (s : State) : Host.Outcome State Fault Refusal :=
  s.act fun m => m.move c 0xB1 t

/-- FSUB (R333). -/
def execReedFsub (c : Fin 16) (t : BitVec 64) (s : State) : Host.Outcome State Fault Refusal :=
  s.act fun m => m.move c 0xB2 t

/-- FMUL (R333). -/
def execReedFmul (c : Fin 16) (t : BitVec 64) (s : State) : Host.Outcome State Fault Refusal :=
  s.act fun m => m.move c 0xB3 t

/-- FDIV (R333). -/
def execReedFdiv (c : Fin 16) (t : BitVec 64) (s : State) : Host.Outcome State Fault Refusal :=
  s.act fun m => m.move c 0xB4 t

/-- FSQRT (R333). -/
def execReedFsqrt (c : Fin 16) (t : BitVec 64) (s : State) : Host.Outcome State Fault Refusal :=
  s.act fun m => m.move c 0xB5 t

/-- FMIN (R333). -/
def execReedFmin (c : Fin 16) (t : BitVec 64) (s : State) : Host.Outcome State Fault Refusal :=
  s.act fun m => m.move c 0xB6 t

/-- FMAX (R333). -/
def execReedFmax (c : Fin 16) (t : BitVec 64) (s : State) : Host.Outcome State Fault Refusal :=
  s.act fun m => m.move c 0xB7 t

/-- FCVTIF (R333). -/
def execReedFcvtif (c : Fin 16) (t : BitVec 64) (s : State) : Host.Outcome State Fault Refusal :=
  s.act fun m => m.move c 0xB8 t

/-- FCVTFI (R333). -/
def execReedFcvtfi (c : Fin 16) (t : BitVec 64) (s : State) : Host.Outcome State Fault Refusal :=
  s.act fun m => m.move c 0xB9 t

/-- FEQ (R333). -/
def execReedFeq (c : Fin 16) (t : BitVec 64) (s : State) : Host.Outcome State Fault Refusal :=
  s.act fun m => m.move c 0xBA t

/-- FLT (R333). -/
def execReedFlt (c : Fin 16) (t : BitVec 64) (s : State) : Host.Outcome State Fault Refusal :=
  s.act fun m => m.move c 0xBB t

/-- FLE (R333). -/
def execReedFle (c : Fin 16) (t : BitVec 64) (s : State) : Host.Outcome State Fault Refusal :=
  s.act fun m => m.move c 0xBC t

/-- CRD (R334). -/
def execReedCrd (c : Fin 16) (t : BitVec 64) (s : State) : Host.Outcome State Fault Refusal :=
  s.act fun m => m.move c 0xC1 t

/-- CWR (R337). -/
def execReedCwr (c : Fin 16) (t : BitVec 64) (s : State) : Host.Outcome State Fault Refusal :=
  s.act fun m => m.move c 0xC2 t

/-- SYNC (R369). -/
def execReedSync (c : Fin 16) (s : State) : Host.Outcome State Fault Refusal :=
  s.act fun m => m.move c 0xC3 0

/-- MSTONE (R401). -/
def execReedMstone (c : Fin 16) (s : State) : Host.Outcome State Fault Refusal :=
  s.act fun m => m.move c 0xC4 0

/-- SYSCALL (R334). -/
def execReedSyscall (c : Fin 16) (t : BitVec 64) (s : State) : Host.Outcome State Fault Refusal :=
  s.act fun m => m.move c 0xC5 t

/-- ERET (R389). -/
def execReedEret (c : Fin 16) (s : State) : Host.Outcome State Fault Refusal :=
  s.act fun m => m.move c 0xC6 0

/-- WFE (R334). -/
def execReedWfe (c : Fin 16) (s : State) : Host.Outcome State Fault Refusal :=
  s.act fun m => m.move c 0xC7 0

/-- BRK (R334). -/
def execReedBrk (c : Fin 16) (s : State) : Host.Outcome State Fault Refusal :=
  s.act fun m => m.move c 0xC8 0

/-- QP_TAIL_DOORBELL (R335). -/
def execQpTailDoorbell (c : Fin 16) (t : BitVec 64) (s : State) : Host.Outcome State Fault Refusal :=
  s.act fun m => m.move c 0xD1 t

/-- QP_HEAD_DOORBELL (R335). -/
def execQpHeadDoorbell (c : Fin 16) (t : BitVec 64) (s : State) : Host.Outcome State Fault Refusal :=
  s.act fun m => m.move c 0xD2 t

/-- UNIT_RESULT_READY (R350). -/
def execUnitResultReady (c : Fin 16) (u : RUnit) (s : State) : Host.Outcome State Fault Refusal :=
  s.act fun m => m.unitReady c.val (unitNo u)

/-- STORE_PERFORMED (R358). -/
def execStorePerformed (c : Fin 16) (s : State) : Host.Outcome State Fault Refusal :=
  s.act fun m => m.storePerformed c.val

/-- ARITH_EXCEPTION_DELIVERY (R340). -/
def execArithExceptionDelivery (c : Fin 16) (s : State) : Host.Outcome State Fault Refusal :=
  s.act fun m => m.arithDue c.val

/-- ASYNC_EVENT_TAKEN (R382). -/
def execAsyncEventTaken (c : Fin 16) (s : State) : Host.Outcome State Fault Refusal :=
  s.act fun m => m.eventTaken c.val

end Sys2Proof.Machine
end

