-- ==== Sys2Proof/Machine/SequencerRows.lean ====
section
/-! DEFINITION. The commands of the micro-sequencer and its loads (R299 to R318): each row's meaning, by the operations it names. -/

namespace Sys2Proof.Machine

/-- MICRO_STEP (R307). -/
def execMicroStep (n : Fin 272) (s : State) : Host.Outcome State Fault Refusal :=
  if s.m.held = [] && s.m.vendorXop n.val then .refused .vendorXop else s.act fun m => m.microStep n.val [0]

/-- XOP_LD (R305). -/
def execXopLd (n : Fin 272) (s : State) : Host.Outcome State Fault Refusal :=
  s.act fun m => m.microStep n.val [1]

/-- XOP_ST (R305). -/
def execXopSt (n : Fin 272) (s : State) : Host.Outcome State Fault Refusal :=
  s.act fun m => m.microStep n.val [2]

/-- XOP_LDP (R305). -/
def execXopLdp (n : Fin 272) (s : State) : Host.Outcome State Fault Refusal :=
  s.act fun m => m.microStep n.val [3]

/-- XOP_STP (R305). -/
def execXopStp (n : Fin 272) (s : State) : Host.Outcome State Fault Refusal :=
  s.act fun m => m.microStep n.val [4]

/-- XOP_STAGE (R305). -/
def execXopStage (n : Fin 272) (s : State) : Host.Outcome State Fault Refusal :=
  s.act fun m => m.microStep n.val [5]

/-- XOP_CLOSE (R305). -/
def execXopClose (n : Fin 272) (s : State) : Host.Outcome State Fault Refusal :=
  s.act fun m => m.microStep n.val [6]

/-- XOP_REPLY (R305). -/
def execXopReply (n : Fin 272) (s : State) : Host.Outcome State Fault Refusal :=
  s.act fun m => m.microStep n.val [7]

/-- XOP_POST (R305). -/
def execXopPost (n : Fin 272) (s : State) : Host.Outcome State Fault Refusal :=
  s.act fun m => m.microStep n.val [8]

/-- CONTEXT_RESUME (R306). -/
def execContextResume (n : Fin 272) (s : State) : Host.Outcome State Fault Refusal :=
  s.act fun m => m.contextResume n.val

/-- MC_CMD_LOAD (R314). -/
def execMcCmdLoad (r : Req) (s : State) : Host.Outcome State Fault Refusal :=
  s.act fun m => m.writeReg32 r (TAP_MC_CMD.CMD.addr 0) 1

/-- MC_LOAD_COMPLETE (R314). -/
def execMcLoadComplete (s : State) : Host.Outcome State Fault Refusal :=
  s.act fun m => m.loadEnd

/-- MC_CMD_SWAP (R316). -/
def execMcCmdSwap (r : Req) (s : State) : Host.Outcome State Fault Refusal :=
  s.act fun m => m.writeReg32 r (TAP_MC_CMD.CMD.addr 0) 2

/-- MC_CMD_LOAD_SWAP (R316). -/
def execMcCmdLoadSwap (r : Req) (s : State) : Host.Outcome State Fault Refusal :=
  s.act fun m => m.writeReg32 r (TAP_MC_CMD.CMD.addr 0) 3

/-- MC_SWAP_BLOCKED (R316). -/
def execMcSwapBlocked (s : State) : Host.Outcome State Fault Refusal :=
  s.act fun m => m.swapBlocked

/-- MC_INIT_END (R316). -/
def execMcInitEnd (ok : Bool) (s : State) : Host.Outcome State Fault Refusal :=
  s.act fun m => m.initEnd ok

end Sys2Proof.Machine
end

