-- ==== Sys2Proof/Machine/SliceRows.lean ====
section
/-! DEFINITION. The commands of limiter, trace and broker (R165 to R193), self-commissioning (R194 to R212): each row's meaning, by the operations it names. -/

namespace Sys2Proof.Machine

/-- AX_CM_CTRL with GO, SEQ, GSET and SEED. -/
def cmWord (seq gset seed : Nat) : W32 :=
  AX_CM_CTRL.SEED.into (AX_CM_CTRL.GSET.into (AX_CM_CTRL.SEQ.into (AX_CM_CTRL.GO.into 0 1) seq) gset) seed

/-- LIMITER_STOP (R168). -/
def execLimiterStop (r : Req) (x : Fin 64) (s : State) : Host.Outcome State Fault Refusal :=
  s.act fun m => m.writeReg32 r (AX_LIM_CMD.CMD.addr x.val) 1

/-- LIMITER_RELEASE (R170). -/
def execLimiterRelease (r : Req) (x : Fin 64) (s : State) : Host.Outcome State Fault Refusal :=
  s.act fun m => m.writeReg32 r (AX_LIM_CMD.CMD.addr x.val) 2

/-- TRACE_SOFTWARE_TRIGGER (R173). -/
def execTraceSoftwareTrigger (r : Req) (x : Fin 72) (s : State) : Host.Outcome State Fault Refusal :=
  s.act fun m => m.writeReg32 r (AX_TRC_CTRL.MODE.addr x.val) (AX_TRC_CTRL.SWTRIG.into (m.rg (AX_TRC_CTRL.MODE.addr x.val)) 1)

/-- TRACE_RESTART (R173). -/
def execTraceRestart (r : Req) (x : Fin 72) (base : Bool) (v : BitVec 32) (s : State) : Host.Outcome State Fault Refusal :=
  s.act fun m => m.writeReg32 r (Blk.base .sl x.val + (if base then 0xA010 else 0xA000)) v

/-- TRACE_SELECT_WRITE (R171). -/
def execTraceSelectWrite (r : Req) (x : Fin 72) (v : BitVec 32) (s : State) : Host.Outcome State Fault Refusal :=
  s.act fun m => m.writeReg32 r (AX_TRC_SEL.N0.addr x.val) v

/-- BROKER_RUN (R190). -/
def execBrokerRun (c : Fin 8) (s : State) : Host.Outcome State Fault Refusal :=
  s.act fun m => m.brokerRun (64 + c.val)

/-- CM_MASS (R201). -/
def execCmMass (r : Req) (x : Fin 64) (s : State) : Host.Outcome State Fault Refusal :=
  s.act fun m => m.writeReg32 r (AX_CM_CTRL.GO.addr x.val) (cmWord 1 0 0)

/-- CM_RESP (R202). -/
def execCmResp (r : Req) (x : Fin 64) (s : State) : Host.Outcome State Fault Refusal :=
  s.act fun m => m.writeReg32 r (AX_CM_CTRL.GO.addr x.val) (cmWord 2 0 0)

/-- CM_PROPOSE (R203). -/
def execCmPropose (r : Req) (x : Fin 64) (s : State) : Host.Outcome State Fault Refusal :=
  s.act fun m => m.writeReg32 r (AX_CM_CTRL.GO.addr x.val) (cmWord 3 0 0)

/-- CM_FULL (R197). -/
def execCmFull (r : Req) (x : Fin 64) (s : State) : Host.Outcome State Fault Refusal :=
  s.act fun m => m.writeReg32 r (AX_CM_CTRL.GO.addr x.val) (cmWord 4 0 0)

/-- CM_APPLY (R210). -/
def execCmApply (r : Req) (x : Fin 64) (seed : BitVec 2) (s : State) : Host.Outcome State Fault Refusal :=
  s.act fun m => m.writeReg32 r (AX_CM_CTRL.GO.addr x.val) (cmWord 5 0 seed.toNat)

/-- CM_SELECT (R210). -/
def execCmSelect (r : Req) (x : Fin 64) (gset : Fin 8) (seed : BitVec 2) (s : State) : Host.Outcome State Fault Refusal :=
  s.act fun m => m.writeReg32 r (AX_CM_CTRL.GO.addr x.val) (cmWord 6 gset.val seed.toNat)

/-- CM_CTRL_ABORT (R200). -/
def execCmCtrlAbort (r : Req) (x : Fin 64) (s : State) : Host.Outcome State Fault Refusal :=
  s.act fun m => m.writeReg32 r (AX_CM_CTRL.GO.addr x.val) (AX_CM_CTRL.ABORT.into 0 1)

/-- CM_SEQUENCE_END (R197). -/
def execCmSequenceEnd (x : Fin 64) (s : State) : Host.Outcome State Fault Refusal :=
  s.act fun m => m.cmSequenceEnd x.val

/-- MOVE_INERTIA_ESTIMATE (R207). -/
def execMoveInertiaEstimate (x : Fin 64) (s : State) : Host.Outcome State Fault Refusal :=
  s.act fun m => m.moveInertia x.val

/-- NOTCH_INTERVAL_END (R209). -/
def execNotchIntervalEnd (x : Fin 64) (s : State) : Host.Outcome State Fault Refusal :=
  s.act fun m => m.notchEnd x.val

end Sys2Proof.Machine
end

