-- ==== Sys2Proof/Machine/SupervisionRows.lean ====
section
/-! DEFINITION. The commands of supervision (R436 to R456): each row's meaning, by the operations it names. -/

namespace Sys2Proof.Machine

/-- WATCHDOG_KICK (R441). -/
def execWatchdogKick (r : Req) (w : Fin 9) (v : BitVec 32) (s : State) : Host.Outcome State Fault Refusal :=
  s.act fun m => m.writeReg32 r (if w.val < 8 then SUP_PWD_KICK.KEY.addr 0 + 16 * w.val else 0x36000108) v

/-- WATCHDOG_WARN (R441). -/
def execWatchdogWarn (w : Fin 9) (s : State) : Host.Outcome State Fault Refusal :=
  s.act fun m => m.wdWarn w.val

/-- PAIR_WATCHDOG_EXPIRY (R443). -/
def execPairWatchdogExpiry (p : Fin 8) (s : State) : Host.Outcome State Fault Refusal :=
  s.act fun m => m.wdTimeout p.val

/-- DEVICE_WATCHDOG_EXPIRY (R444). -/
def execDeviceWatchdogExpiry (s : State) : Host.Outcome State Fault Refusal :=
  s.act fun m => m.wdTimeout 8

/-- DWD_GRACE_END (R444). -/
def execDwdGraceEnd (s : State) : Host.Outcome State Fault Refusal :=
  s.act fun m => m.graceEnd

/-- EXTF_ASSERT (R439). -/
def execExtfAssert (low : Bool) (e : Edge) (s : State) : Host.Outcome State Fault Refusal :=
  s.act fun m => m.extf low e

/-- STOP_TIMEOUT (R440). -/
def execStopTimeout (x : Fin 64) (s : State) : Host.Outcome State Fault Refusal :=
  s.act fun m => m.stopTimeout x.val

/-- PF_WARN_INPUT (R447). -/
def execPfWarnInput (low : Bool) (e : Edge) (s : State) : Host.Outcome State Fault Refusal :=
  s.act fun m => m.pfWarn low e

/-- PF_CRIT_INPUT (R447). -/
def execPfCritInput (low : Bool) (e : Edge) (s : State) : Host.Outcome State Fault Refusal :=
  s.act fun m => m.supplyInput 1 low e

/-- SUPPLY_MONITOR_TRIP (R447). -/
def execSupplyMonitorTrip (src : Fin 3) (low : Bool) (e : Edge) (s : State) : Host.Outcome State Fault Refusal :=
  s.act fun m => m.supplyInput (2 + src.val) low e

/-- LO_RECORD_COMMIT (R453). -/
def execLoRecordCommit (s : State) : Host.Outcome State Fault Refusal :=
  s.act fun m => m.recCommit

/-- SNAPSHOT_TIMER (R452). -/
def execSnapshotTimer (s : State) : Host.Outcome State Fault Refusal :=
  s.act fun m => m.snapTimer

/-- LO_START_CMD (R447). -/
def execLoStartCmd (r : Req) (s : State) : Host.Outcome State Fault Refusal :=
  s.act fun m => m.writeReg32 r (SUP_LO_CMD.CMD.addr 0) 1

/-- LO_END_CMD (R450). -/
def execLoEndCmd (r : Req) (s : State) : Host.Outcome State Fault Refusal :=
  s.act fun m => m.writeReg32 r (SUP_LO_CMD.CMD.addr 0) 2

/-- LO_SNAP_CMD (R452). -/
def execLoSnapCmd (r : Req) (s : State) : Host.Outcome State Fault Refusal :=
  s.act fun m => m.writeReg32 r (SUP_LO_CMD.CMD.addr 0) 3

end Sys2Proof.Machine
end

