-- ==== Sys2Proof/Machine/TapsterRows.lean ====
section
/-! DEFINITION. The commands of the Tapster: packets, opcodes, replies (R243 to R268): each row's meaning, by the operations it names. -/

namespace Sys2Proof.Machine

/-- COMMAND_PACKET_TAKE (R246). -/
def execCommandPacketTake (q : PacketSource) (s : State) : Host.Outcome State Fault Refusal :=
  s.act fun m => m.packetTake q.q.val q.host

/-- NOP (R259). -/
def execTapNop (n : Fin 256) (s : State) : Host.Outcome State Fault Refusal :=
  s.act fun m => m.tapNop n.val

/-- READ (R259). -/
def execTapRead (n : Fin 256) (s : State) : Host.Outcome State Fault Refusal :=
  s.act fun m => m.tapRead n.val

/-- WRITE (R259). -/
def execTapWrite (n : Fin 256) (s : State) : Host.Outcome State Fault Refusal :=
  s.act fun m => m.tapWriteOp n.val

/-- TIME (R259). -/
def execTapTime (n : Fin 256) (s : State) : Host.Outcome State Fault Refusal :=
  s.act fun m => m.tapTime n.val

/-- EMU_DONE (R257). -/
def execTapEmuDone (n : Fin 256) (s : State) : Host.Outcome State Fault Refusal :=
  s.act fun m => m.tapEmuDone n.val

/-- MC_SWAP (R317). -/
def execTapMcSwap (n : Fin 256) (s : State) : Host.Outcome State Fault Refusal :=
  s.act fun m => m.tapMcSwap n.val

/-- ENABLE (R260). -/
def execTapEnable (n : Fin 256) (s : State) : Host.Outcome State Fault Refusal :=
  s.act fun m => m.tapEnable n.val

/-- DISABLE (R260). -/
def execTapDisable (n : Fin 256) (s : State) : Host.Outcome State Fault Refusal :=
  s.act fun m => m.tapDisable n.val

/-- GEOMETRY (R260). -/
def execTapGeometry (n : Fin 256) (s : State) : Host.Outcome State Fault Refusal :=
  s.act fun m => m.tapGeometry n.val

/-- SCALES (R260). -/
def execTapScales (n : Fin 256) (s : State) : Host.Outcome State Fault Refusal :=
  s.act fun m => m.tapScales n.val

/-- CHAIN (R260). -/
def execTapChain (n : Fin 256) (s : State) : Host.Outcome State Fault Refusal :=
  s.act fun m => m.tapChain n.val

/-- MAP (R260). -/
def execTapMap (n : Fin 256) (s : State) : Host.Outcome State Fault Refusal :=
  s.act fun m => m.tapMap n.val

/-- TIMER (R260). -/
def execTapTimer (n : Fin 256) (s : State) : Host.Outcome State Fault Refusal :=
  s.act fun m => m.tapTimer n.val

/-- GROUP (R260). -/
def execTapGroup (n : Fin 256) (s : State) : Host.Outcome State Fault Refusal :=
  s.act fun m => m.tapGroup n.val

/-- MOVE (R254). -/
def execTapMove (n : Fin 256) (s : State) : Host.Outcome State Fault Refusal :=
  s.act fun m => m.tapMove n.val

/-- STREAM (R261). -/
def execTapStream (n : Fin 256) (s : State) : Host.Outcome State Fault Refusal :=
  s.act fun m => m.tapStream n.val

/-- LIMITS (R261). -/
def execTapLimits (n : Fin 256) (s : State) : Host.Outcome State Fault Refusal :=
  s.act fun m => m.tapLimits n.val

/-- STOP_CFG (R261). -/
def execTapStopCfg (n : Fin 256) (s : State) : Host.Outcome State Fault Refusal :=
  s.act fun m => m.tapStopCfg n.val

/-- LIMMODE (R261). -/
def execTapLimmode (n : Fin 256) (s : State) : Host.Outcome State Fault Refusal :=
  s.act fun m => m.tapLimmode n.val

/-- STOP (R261). -/
def execTapStop (n : Fin 256) (s : State) : Host.Outcome State Fault Refusal :=
  s.act fun m => m.tapStop n.val

/-- RELEASE (R261). -/
def execTapRelease (n : Fin 256) (s : State) : Host.Outcome State Fault Refusal :=
  s.act fun m => m.tapRelease n.val

/-- SHUT (R261). -/
def execTapShut (n : Fin 256) (s : State) : Host.Outcome State Fault Refusal :=
  s.act fun m => m.tapShut n.val

/-- UNSHUT (R261). -/
def execTapUnshut (n : Fin 256) (s : State) : Host.Outcome State Fault Refusal :=
  s.act fun m => m.tapUnshut n.val

/-- STATUS (R261). -/
def execTapStatus (n : Fin 256) (s : State) : Host.Outcome State Fault Refusal :=
  s.act fun m => m.tapStatus n.val

/-- BANK_WR (R262). -/
def execTapBankWr (n : Fin 256) (s : State) : Host.Outcome State Fault Refusal :=
  s.act fun m => m.tapBankWr n.val

/-- BANK_RD (R262). -/
def execTapBankRd (n : Fin 256) (s : State) : Host.Outcome State Fault Refusal :=
  s.act fun m => m.tapBankRd n.val

/-- SWAP (R262). -/
def execTapSwap (n : Fin 256) (s : State) : Host.Outcome State Fault Refusal :=
  s.act fun m => m.tapSwap n.val

/-- IREF (R262). -/
def execTapIref (n : Fin 256) (s : State) : Host.Outcome State Fault Refusal :=
  s.act fun m => m.tapIref n.val

/-- TRC_CFG (R263). -/
def execTapTrcCfg (n : Fin 256) (s : State) : Host.Outcome State Fault Refusal :=
  s.act fun m => m.tapTrcCfg n.val

/-- TRC_TRIG (R263). -/
def execTapTrcTrig (n : Fin 256) (s : State) : Host.Outcome State Fault Refusal :=
  s.act fun m => m.tapTrcTrig n.val

/-- TRC_STAT (R263). -/
def execTapTrcStat (n : Fin 256) (s : State) : Host.Outcome State Fault Refusal :=
  s.act fun m => m.tapTrcStat n.val

/-- BUS_SET (R264). -/
def execTapBusSet (n : Fin 256) (s : State) : Host.Outcome State Fault Refusal :=
  s.act fun m => m.tapBusSet n.val

/-- BROKER (R264). -/
def execTapBroker (n : Fin 256) (s : State) : Host.Outcome State Fault Refusal :=
  s.act fun m => m.tapBroker n.val

/-- STORE (R264). -/
def execTapStore (n : Fin 256) (s : State) : Host.Outcome State Fault Refusal :=
  s.act fun m => m.tapStore n.val

/-- BUS_STAT (R264). -/
def execTapBusStat (n : Fin 256) (s : State) : Host.Outcome State Fault Refusal :=
  s.act fun m => m.tapBusStat n.val

/-- CM_START (R265). -/
def execTapCmStart (n : Fin 256) (s : State) : Host.Outcome State Fault Refusal :=
  s.act fun m => m.tapCmStart n.val

/-- CM_ABORT (R265). -/
def execTapCmAbort (n : Fin 256) (s : State) : Host.Outcome State Fault Refusal :=
  s.act fun m => m.tapCmAbort n.val

/-- CM_POLICY (R265). -/
def execTapCmPolicy (n : Fin 256) (s : State) : Host.Outcome State Fault Refusal :=
  s.act fun m => m.tapCmPolicy n.val

/-- CM_ADAPT (R265). -/
def execTapCmAdapt (n : Fin 256) (s : State) : Host.Outcome State Fault Refusal :=
  s.act fun m => m.tapCmAdapt n.val

/-- CM_RESULT (R265). -/
def execTapCmResult (n : Fin 256) (s : State) : Host.Outcome State Fault Refusal :=
  s.act fun m => m.tapCmResult n.val

/-- CAL (R266). -/
def execTapCal (n : Fin 256) (s : State) : Host.Outcome State Fault Refusal :=
  s.act fun m => m.tapCal n.val

/-- INJECT (R266). -/
def execTapInject (n : Fin 256) (s : State) : Host.Outcome State Fault Refusal :=
  s.act fun m => m.tapInject n.val

/-- CMP_CHK (R266). -/
def execTapCmpChk (n : Fin 256) (s : State) : Host.Outcome State Fault Refusal :=
  s.act fun m => m.tapCmpChk n.val

/-- SLICE_RESET (R474). -/
def execTapSliceReset (n : Fin 256) (s : State) : Host.Outcome State Fault Refusal :=
  s.act fun m => m.tapSliceReset n.val

/-- STICKY (R266). -/
def execTapSticky (n : Fin 256) (s : State) : Host.Outcome State Fault Refusal :=
  s.act fun m => m.tapSticky n.val

/-- TRIG_AT (R267). -/
def execTapTrigAt (n : Fin 256) (s : State) : Host.Outcome State Fault Refusal :=
  s.act fun m => m.tapTrigAt n.val

/-- WINDOW (R267). -/
def execTapWindow (n : Fin 256) (s : State) : Host.Outcome State Fault Refusal :=
  s.act fun m => m.tapWindow n.val

/-- BATCH_REL (R267). -/
def execTapBatchRel (n : Fin 256) (s : State) : Host.Outcome State Fault Refusal :=
  s.act fun m => m.tapBatchRel n.val

/-- EMULATED_OPCODE (R257). -/
def execEmulatedOpcode (n : Fin 256) (s : State) : Host.Outcome State Fault Refusal :=
  s.act fun m => m.emulated n.val

/-- GUEST_OPCODE (R258). -/
def execGuestOpcode (n : Fin 256) (s : State) : Host.Outcome State Fault Refusal :=
  s.act fun m => m.guestOpcode n.val

/-- HELD_REPLY_POST (R249). -/
def execHeldReplyPost (s : State) : Host.Outcome State Fault Refusal :=
  s.act fun m => m.heldPost

/-- TAPSTER_HOLD_TIMEOUT (R252). -/
def execTapsterHoldTimeout (g : Fin 16) (s : State) : Host.Outcome State Fault Refusal :=
  s.act fun m => m.holdTimeout g.val

end Sys2Proof.Machine
end

