-- ==== Sys2Proof/Machine/Dispatch.lean ====
section
/-! DEFINITION. One arm per command: its meaning, or a refusal by name. -/

namespace Sys2Proof.Machine

def exec (i : Instr) (s : State) : Host.Outcome State Fault Refusal :=
  match i with
  | .registerWrite r a wide v => Sys2Proof.Machine.execRegisterWrite r a wide v s
  | .rlLowHalfRead r a => Sys2Proof.Machine.execRlLowHalfRead r a s
  | .rlHighHalfRead r a => Sys2Proof.Machine.execRlHighHalfRead r a s
  | .rl64BitRead r a => Sys2Proof.Machine.execRl64BitRead r a s
  | .rcFieldRead r a => Sys2Proof.Machine.execRcFieldRead r a s
  | .stickyRead r x => Sys2Proof.Machine.execStickyRead r x s
  | .sampleFence g => Sys2Proof.Machine.execSampleFence g s
  | .sliceWake x t => Sys2Proof.Machine.execSliceWake x t s
  | .deposit x t => Sys2Proof.Machine.execDeposit x t s
  | .traceStreamWrite x => Sys2Proof.Machine.execTraceStreamWrite x s
  | .commitFence g arb => Sys2Proof.Machine.execCommitFence g arb s
  | .stagingLock g => Sys2Proof.Machine.execStagingLock g s
  | .applyFence g => Sys2Proof.Machine.execApplyFence g s
  | .mirrorWrite r x off wide v => Sys2Proof.Machine.execMirrorWrite r x off wide v s
  | .stageClose r x tag => Sys2Proof.Machine.execStageClose r x tag s
  | .interlockWriteLands x => Sys2Proof.Machine.execInterlockWriteLands x s
  | .sliceGroupChange r x pg => Sys2Proof.Machine.execSliceGroupChange r x pg s
  | .sliceEnable r x v => Sys2Proof.Machine.execSliceEnable r x v s
  | .sliceDisable r x v => Sys2Proof.Machine.execSliceDisable r x v s
  | .groupEnable r g v => Sys2Proof.Machine.execGroupEnable r g v s
  | .groupDisable r g v => Sys2Proof.Machine.execGroupDisable r g v s
  | .groupTimingWrite r g reg v => Sys2Proof.Machine.execGroupTimingWrite r g reg v s
  | .applyHoldWrite r g hold => Sys2Proof.Machine.execApplyHoldWrite r g hold s
  | .vernierRecalibration => Sys2Proof.Machine.execVernierRecalibration s
  | .windowEnable r w v => Sys2Proof.Machine.execWindowEnable r w v s
  | .windowDisarm r w v => Sys2Proof.Machine.execWindowDisarm r w v s
  | .windowSpanStart w => Sys2Proof.Machine.execWindowSpanStart w s
  | .windowMissed w => Sys2Proof.Machine.execWindowMissed w s
  | .conversionHold b c => Sys2Proof.Machine.execConversionHold b c s
  | .conversionComplete b c code => Sys2Proof.Machine.execConversionComplete b c code s
  | .slotFcfgWrite r b j v => Sys2Proof.Machine.execSlotFcfgWrite r b j v s
  | .injReq r b v => Sys2Proof.Machine.execInjReq r b v s
  | .injectedConversionDone b t code => Sys2Proof.Machine.execInjectedConversionDone b t code s
  | .bankEnable r b v => Sys2Proof.Machine.execBankEnable r b v s
  | .bankReady b phase => Sys2Proof.Machine.execBankReady b phase s
  | .bankDisable r b v => Sys2Proof.Machine.execBankDisable r b v s
  | .calCmdStep r b => Sys2Proof.Machine.execCalCmdStep r b s
  | .calCmdRotation r b => Sys2Proof.Machine.execCalCmdRotation r b s
  | .calCmdStop r b => Sys2Proof.Machine.execCalCmdStop r b s
  | .calGapExpiry b => Sys2Proof.Machine.execCalGapExpiry b s
  | .rotationOverlapEnd b => Sys2Proof.Machine.execRotationOverlapEnd b s
  | .cellCalibrationDone b c z p n => Sys2Proof.Machine.execCellCalibrationDone b c z p n s
  | .comparatorInputCrossing c e trip => Sys2Proof.Machine.execComparatorInputCrossing c e trip s
  | .blankEnd c => Sys2Proof.Machine.execBlankEnd c s
  | .comparatorSettled c n => Sys2Proof.Machine.execComparatorSettled c n s
  | .comparatorEnable r c v => Sys2Proof.Machine.execComparatorEnable r c v s
  | .comparatorDisable r c v => Sys2Proof.Machine.execComparatorDisable r c v s
  | .comparatorArm r c v => Sys2Proof.Machine.execComparatorArm r c v s
  | .comparatorDisarm r c v => Sys2Proof.Machine.execComparatorDisarm r c v s
  | .comparatorModeChange r c v => Sys2Proof.Machine.execComparatorModeChange r c v s
  | .thresholdWrite r c thr => Sys2Proof.Machine.execThresholdWrite r c thr s
  | .cmpActWrite r c v => Sys2Proof.Machine.execCmpActWrite r c v s
  | .cmpWindowEnable r w v => Sys2Proof.Machine.execCmpWindowEnable r w v s
  | .cmpWindowDisable r w v => Sys2Proof.Machine.execCmpWindowDisable r w v s
  | .swapCheck r c v => Sys2Proof.Machine.execSwapCheck r c v s
  | .tieCheck r c v => Sys2Proof.Machine.execTieCheck r c v s
  | .readbackCheck r c v => Sys2Proof.Machine.execReadbackCheck r c v s
  | .checkEnd c obs => Sys2Proof.Machine.execCheckEnd c obs s
  | .autoCheckInterval c => Sys2Proof.Machine.execAutoCheckInterval c s
  | .portEnable r p v => Sys2Proof.Machine.execPortEnable r p v s
  | .portDisable r p v => Sys2Proof.Machine.execPortDisable r p v s
  | .quadratureEdge p e chB level => Sys2Proof.Machine.execQuadratureEdge p e chB level s
  | .indexEdge p e => Sys2Proof.Machine.execIndexEdge p e s
  | .serialTransactionStart p => Sys2Proof.Machine.execSerialTransactionStart p s
  | .serialStartTimeout p => Sys2Proof.Machine.execSerialStartTimeout p s
  | .serialFrameComplete p word crc nE nW idleOk => Sys2Proof.Machine.execSerialFrameComplete p word crc nE nW idleOk s
  | .lineFault p => Sys2Proof.Machine.execLineFault p s
  | .presetWrite r p v => Sys2Proof.Machine.execPresetWrite r p v s
  | .bissRegisterAccess r p v => Sys2Proof.Machine.execBissRegisterAccess r p v s
  | .bissAccessComplete p st data => Sys2Proof.Machine.execBissAccessComplete p st data s
  | .limiterStop r x => Sys2Proof.Machine.execLimiterStop r x s
  | .limiterRelease r x => Sys2Proof.Machine.execLimiterRelease r x s
  | .traceSoftwareTrigger r x => Sys2Proof.Machine.execTraceSoftwareTrigger r x s
  | .traceRestart r x base v => Sys2Proof.Machine.execTraceRestart r x base v s
  | .traceSelectWrite r x v => Sys2Proof.Machine.execTraceSelectWrite r x v s
  | .brokerRun c => Sys2Proof.Machine.execBrokerRun c s
  | .cmMass r x => Sys2Proof.Machine.execCmMass r x s
  | .cmResp r x => Sys2Proof.Machine.execCmResp r x s
  | .cmPropose r x => Sys2Proof.Machine.execCmPropose r x s
  | .cmFull r x => Sys2Proof.Machine.execCmFull r x s
  | .cmApply r x seed => Sys2Proof.Machine.execCmApply r x seed s
  | .cmSelect r x gset seed => Sys2Proof.Machine.execCmSelect r x gset seed s
  | .cmCtrlAbort r x => Sys2Proof.Machine.execCmCtrlAbort r x s
  | .cmSequenceEnd x => Sys2Proof.Machine.execCmSequenceEnd x s
  | .moveInertiaEstimate x => Sys2Proof.Machine.execMoveInertiaEstimate x s
  | .notchIntervalEnd x => Sys2Proof.Machine.execNotchIntervalEnd x s
  | .carrierEvent x leg => Sys2Proof.Machine.execCarrierEvent x leg s
  | .gateEdge x g on => Sys2Proof.Machine.execGateEdge x g on s
  | .gtCmdShut r x => Sys2Proof.Machine.execGtCmdShut r x s
  | .gtCmdRelease r x => Sys2Proof.Machine.execGtCmdRelease r x s
  | .stoSafeStateEntry n ch low e => Sys2Proof.Machine.execStoSafeStateEntry n ch low e s
  | .stoReturn n => Sys2Proof.Machine.execStoReturn n s
  | .stoDiscrepancy n => Sys2Proof.Machine.execStoDiscrepancy n s
  | .safeOutputDisagree => Sys2Proof.Machine.execSafeOutputDisagree s
  | .gateFaultAssert x n e => Sys2Proof.Machine.execGateFaultAssert x n e s
  | .commandPacketTake q => Sys2Proof.Machine.execCommandPacketTake q s
  | .tapNop n => Sys2Proof.Machine.execTapNop n s
  | .tapRead n => Sys2Proof.Machine.execTapRead n s
  | .tapWrite n => Sys2Proof.Machine.execTapWrite n s
  | .tapTime n => Sys2Proof.Machine.execTapTime n s
  | .tapEmuDone n => Sys2Proof.Machine.execTapEmuDone n s
  | .tapMcSwap n => Sys2Proof.Machine.execTapMcSwap n s
  | .tapEnable n => Sys2Proof.Machine.execTapEnable n s
  | .tapDisable n => Sys2Proof.Machine.execTapDisable n s
  | .tapGeometry n => Sys2Proof.Machine.execTapGeometry n s
  | .tapScales n => Sys2Proof.Machine.execTapScales n s
  | .tapChain n => Sys2Proof.Machine.execTapChain n s
  | .tapMap n => Sys2Proof.Machine.execTapMap n s
  | .tapTimer n => Sys2Proof.Machine.execTapTimer n s
  | .tapGroup n => Sys2Proof.Machine.execTapGroup n s
  | .tapMove n => Sys2Proof.Machine.execTapMove n s
  | .tapStream n => Sys2Proof.Machine.execTapStream n s
  | .tapLimits n => Sys2Proof.Machine.execTapLimits n s
  | .tapStopCfg n => Sys2Proof.Machine.execTapStopCfg n s
  | .tapLimmode n => Sys2Proof.Machine.execTapLimmode n s
  | .tapStop n => Sys2Proof.Machine.execTapStop n s
  | .tapRelease n => Sys2Proof.Machine.execTapRelease n s
  | .tapShut n => Sys2Proof.Machine.execTapShut n s
  | .tapUnshut n => Sys2Proof.Machine.execTapUnshut n s
  | .tapStatus n => Sys2Proof.Machine.execTapStatus n s
  | .tapBankWr n => Sys2Proof.Machine.execTapBankWr n s
  | .tapBankRd n => Sys2Proof.Machine.execTapBankRd n s
  | .tapSwap n => Sys2Proof.Machine.execTapSwap n s
  | .tapIref n => Sys2Proof.Machine.execTapIref n s
  | .tapTrcCfg n => Sys2Proof.Machine.execTapTrcCfg n s
  | .tapTrcTrig n => Sys2Proof.Machine.execTapTrcTrig n s
  | .tapTrcStat n => Sys2Proof.Machine.execTapTrcStat n s
  | .tapBusSet n => Sys2Proof.Machine.execTapBusSet n s
  | .tapBroker n => Sys2Proof.Machine.execTapBroker n s
  | .tapStore n => Sys2Proof.Machine.execTapStore n s
  | .tapBusStat n => Sys2Proof.Machine.execTapBusStat n s
  | .tapCmStart n => Sys2Proof.Machine.execTapCmStart n s
  | .tapCmAbort n => Sys2Proof.Machine.execTapCmAbort n s
  | .tapCmPolicy n => Sys2Proof.Machine.execTapCmPolicy n s
  | .tapCmAdapt n => Sys2Proof.Machine.execTapCmAdapt n s
  | .tapCmResult n => Sys2Proof.Machine.execTapCmResult n s
  | .tapCal n => Sys2Proof.Machine.execTapCal n s
  | .tapInject n => Sys2Proof.Machine.execTapInject n s
  | .tapCmpChk n => Sys2Proof.Machine.execTapCmpChk n s
  | .tapSliceReset n => Sys2Proof.Machine.execTapSliceReset n s
  | .tapSticky n => Sys2Proof.Machine.execTapSticky n s
  | .tapTrigAt n => Sys2Proof.Machine.execTapTrigAt n s
  | .tapWindow n => Sys2Proof.Machine.execTapWindow n s
  | .tapBatchRel n => Sys2Proof.Machine.execTapBatchRel n s
  | .emulatedOpcode n => Sys2Proof.Machine.execEmulatedOpcode n s
  | .guestOpcode n => Sys2Proof.Machine.execGuestOpcode n s
  | .heldReplyPost => Sys2Proof.Machine.execHeldReplyPost s
  | .tapsterHoldTimeout g => Sys2Proof.Machine.execTapsterHoldTimeout g s
  | .doorbell r q side index => Sys2Proof.Machine.execDoorbell r q side index s
  | .queueEnable r q v => Sys2Proof.Machine.execQueueEnable r q v s
  | .queueDisable r q v => Sys2Proof.Machine.execQueueDisable r q v s
  | .queueRecordPost => Sys2Proof.Machine.execQueueRecordPost s
  | .queueModerationTimeout q => Sys2Proof.Machine.execQueueModerationTimeout q s
  | .qmModWrite r q v => Sys2Proof.Machine.execQmModWrite r q v s
  | .pcieLinkDown => Sys2Proof.Machine.execPcieLinkDown s
  | .pcieLinkUp gen width => Sys2Proof.Machine.execPcieLinkUp gen width s
  | .ethFrameReceive p t tc frame ok => Sys2Proof.Machine.execEthFrameReceive p t tc frame ok s
  | .ethFrameTransmit p tc t ok => Sys2Proof.Machine.execEthFrameTransmit p tc t ok s
  | .tunnelFrameReceive src payload => Sys2Proof.Machine.execTunnelFrameReceive src payload s
  | .ptpApply r p => Sys2Proof.Machine.execPtpApply r p s
  | .gclGateChange p => Sys2Proof.Machine.execGclGateChange p s
  | .canFrameReceive f t id ide info data ok => Sys2Proof.Machine.execCanFrameReceive f t id ide info data ok s
  | .canFrameTransmit f t ok => Sys2Proof.Machine.execCanFrameTransmit f t ok s
  | .uartReceiveEnd f t data ok => Sys2Proof.Machine.execUartReceiveEnd f t data ok s
  | .uartTransmit f t => Sys2Proof.Machine.execUartTransmit f t s
  | .visionTriggerEdge o rise => Sys2Proof.Machine.execVisionTriggerEdge o rise s
  | .strobeEdge n e => Sys2Proof.Machine.execStrobeEdge n e s
  | .microStep n => Sys2Proof.Machine.execMicroStep n s
  | .xopLd n => Sys2Proof.Machine.execXopLd n s
  | .xopSt n => Sys2Proof.Machine.execXopSt n s
  | .xopLdp n => Sys2Proof.Machine.execXopLdp n s
  | .xopStp n => Sys2Proof.Machine.execXopStp n s
  | .xopStage n => Sys2Proof.Machine.execXopStage n s
  | .xopClose n => Sys2Proof.Machine.execXopClose n s
  | .xopReply n => Sys2Proof.Machine.execXopReply n s
  | .xopPost n => Sys2Proof.Machine.execXopPost n s
  | .contextResume n => Sys2Proof.Machine.execContextResume n s
  | .mcCmdLoad r => Sys2Proof.Machine.execMcCmdLoad r s
  | .mcLoadComplete => Sys2Proof.Machine.execMcLoadComplete s
  | .mcCmdSwap r => Sys2Proof.Machine.execMcCmdSwap r s
  | .mcCmdLoadSwap r => Sys2Proof.Machine.execMcCmdLoadSwap r s
  | .mcSwapBlocked => Sys2Proof.Machine.execMcSwapBlocked s
  | .mcInitEnd ok => Sys2Proof.Machine.execMcInitEnd ok s
  | .bundleExecute c item => Sys2Proof.Machine.execBundleExecute c item s
  | .reedRepeat c fld => Sys2Proof.Machine.execReedRepeat c fld s
  | .reedAdd c u t => Sys2Proof.Machine.execReedAdd c u t s
  | .reedSub c u t => Sys2Proof.Machine.execReedSub c u t s
  | .reedAnd c u t => Sys2Proof.Machine.execReedAnd c u t s
  | .reedOr c u t => Sys2Proof.Machine.execReedOr c u t s
  | .reedXor c u t => Sys2Proof.Machine.execReedXor c u t s
  | .reedAndn c u t => Sys2Proof.Machine.execReedAndn c u t s
  | .reedShl c u t => Sys2Proof.Machine.execReedShl c u t s
  | .reedShr c u t => Sys2Proof.Machine.execReedShr c u t s
  | .reedSar c u t => Sys2Proof.Machine.execReedSar c u t s
  | .reedMin c u t => Sys2Proof.Machine.execReedMin c u t s
  | .reedMax c u t => Sys2Proof.Machine.execReedMax c u t s
  | .reedMinu c u t => Sys2Proof.Machine.execReedMinu c u t s
  | .reedMaxu c u t => Sys2Proof.Machine.execReedMaxu c u t s
  | .reedAddv c u t => Sys2Proof.Machine.execReedAddv c u t s
  | .reedSubv c u t => Sys2Proof.Machine.execReedSubv c u t s
  | .reedMul c t => Sys2Proof.Machine.execReedMul c t s
  | .reedMulhs c t => Sys2Proof.Machine.execReedMulhs c t s
  | .reedMulhu c t => Sys2Proof.Machine.execReedMulhu c t s
  | .reedDiv c t => Sys2Proof.Machine.execReedDiv c t s
  | .reedDivu c t => Sys2Proof.Machine.execReedDivu c t s
  | .reedRem c t => Sys2Proof.Machine.execReedRem c t s
  | .reedRemu c t => Sys2Proof.Machine.execReedRemu c t s
  | .reedEq c t => Sys2Proof.Machine.execReedEq c t s
  | .reedNe c t => Sys2Proof.Machine.execReedNe c t s
  | .reedLt c t => Sys2Proof.Machine.execReedLt c t s
  | .reedGe c t => Sys2Proof.Machine.execReedGe c t s
  | .reedLtu c t => Sys2Proof.Machine.execReedLtu c t s
  | .reedGeu c t => Sys2Proof.Machine.execReedGeu c t s
  | .reedLd8s c t => Sys2Proof.Machine.execReedLd8s c t s
  | .reedLd8u c t => Sys2Proof.Machine.execReedLd8u c t s
  | .reedLd16s c t => Sys2Proof.Machine.execReedLd16s c t s
  | .reedLd16u c t => Sys2Proof.Machine.execReedLd16u c t s
  | .reedLd32s c t => Sys2Proof.Machine.execReedLd32s c t s
  | .reedLd32u c t => Sys2Proof.Machine.execReedLd32u c t s
  | .reedLd64 c t => Sys2Proof.Machine.execReedLd64 c t s
  | .reedSt8 c t => Sys2Proof.Machine.execReedSt8 c t s
  | .reedSt16 c t => Sys2Proof.Machine.execReedSt16 c t s
  | .reedSt32 c t => Sys2Proof.Machine.execReedSt32 c t s
  | .reedSt64 c t => Sys2Proof.Machine.execReedSt64 c t s
  | .reedLr64 c t => Sys2Proof.Machine.execReedLr64 c t s
  | .reedSc64 c t => Sys2Proof.Machine.execReedSc64 c t s
  | .reedFence c t => Sys2Proof.Machine.execReedFence c t s
  | .reedJmp c t => Sys2Proof.Machine.execReedJmp c t s
  | .reedJrel c t => Sys2Proof.Machine.execReedJrel c t s
  | .reedCall c t => Sys2Proof.Machine.execReedCall c t s
  | .reedCallr c t => Sys2Proof.Machine.execReedCallr c t s
  | .reedFadd c t => Sys2Proof.Machine.execReedFadd c t s
  | .reedFsub c t => Sys2Proof.Machine.execReedFsub c t s
  | .reedFmul c t => Sys2Proof.Machine.execReedFmul c t s
  | .reedFdiv c t => Sys2Proof.Machine.execReedFdiv c t s
  | .reedFsqrt c t => Sys2Proof.Machine.execReedFsqrt c t s
  | .reedFmin c t => Sys2Proof.Machine.execReedFmin c t s
  | .reedFmax c t => Sys2Proof.Machine.execReedFmax c t s
  | .reedFcvtif c t => Sys2Proof.Machine.execReedFcvtif c t s
  | .reedFcvtfi c t => Sys2Proof.Machine.execReedFcvtfi c t s
  | .reedFeq c t => Sys2Proof.Machine.execReedFeq c t s
  | .reedFlt c t => Sys2Proof.Machine.execReedFlt c t s
  | .reedFle c t => Sys2Proof.Machine.execReedFle c t s
  | .reedCrd c t => Sys2Proof.Machine.execReedCrd c t s
  | .reedCwr c t => Sys2Proof.Machine.execReedCwr c t s
  | .reedSync c => Sys2Proof.Machine.execReedSync c s
  | .reedMstone c => Sys2Proof.Machine.execReedMstone c s
  | .reedSyscall c t => Sys2Proof.Machine.execReedSyscall c t s
  | .reedEret c => Sys2Proof.Machine.execReedEret c s
  | .reedWfe c => Sys2Proof.Machine.execReedWfe c s
  | .reedBrk c => Sys2Proof.Machine.execReedBrk c s
  | .qpTailDoorbell c t => Sys2Proof.Machine.execQpTailDoorbell c t s
  | .qpHeadDoorbell c t => Sys2Proof.Machine.execQpHeadDoorbell c t s
  | .unitResultReady c u => Sys2Proof.Machine.execUnitResultReady c u s
  | .storePerformed c => Sys2Proof.Machine.execStorePerformed c s
  | .arithExceptionDelivery c => Sys2Proof.Machine.execArithExceptionDelivery c s
  | .asyncEventTaken c => Sys2Proof.Machine.execAsyncEventTaken c s
  | .replayEnd p out => Sys2Proof.Machine.execReplayEnd p out s
  | .milestoneTimer p => Sys2Proof.Machine.execMilestoneTimer p s
  | .milestoneReservationWait p => Sys2Proof.Machine.execMilestoneReservationWait p s
  | .comparatorSelfTest p pass => Sys2Proof.Machine.execComparatorSelfTest p pass s
  | .pairRestart r p => Sys2Proof.Machine.execPairRestart r p s
  | .pairResetRequest r p => Sys2Proof.Machine.execPairResetRequest r p s
  | .scrubRead k upset => Sys2Proof.Machine.execScrubRead k upset s
  | .wipeComplete w => Sys2Proof.Machine.execWipeComplete w s
  | .watchdogKick r w v => Sys2Proof.Machine.execWatchdogKick r w v s
  | .watchdogWarn w => Sys2Proof.Machine.execWatchdogWarn w s
  | .pairWatchdogExpiry p => Sys2Proof.Machine.execPairWatchdogExpiry p s
  | .deviceWatchdogExpiry => Sys2Proof.Machine.execDeviceWatchdogExpiry s
  | .dwdGraceEnd => Sys2Proof.Machine.execDwdGraceEnd s
  | .extfAssert low e => Sys2Proof.Machine.execExtfAssert low e s
  | .stopTimeout x => Sys2Proof.Machine.execStopTimeout x s
  | .pfWarnInput low e => Sys2Proof.Machine.execPfWarnInput low e s
  | .pfCritInput low e => Sys2Proof.Machine.execPfCritInput low e s
  | .supplyMonitorTrip src low e => Sys2Proof.Machine.execSupplyMonitorTrip src low e s
  | .loRecordCommit => Sys2Proof.Machine.execLoRecordCommit s
  | .snapshotTimer => Sys2Proof.Machine.execSnapshotTimer s
  | .loStartCmd r => Sys2Proof.Machine.execLoStartCmd r s
  | .loEndCmd r => Sys2Proof.Machine.execLoEndCmd r s
  | .loSnapCmd r => Sys2Proof.Machine.execLoSnapCmd r s
  | .powerGood straps => Sys2Proof.Machine.execPowerGood straps s
  | .supplyLoss => Sys2Proof.Machine.execSupplyLoss s
  | .resetNAssert => Sys2Proof.Machine.execResetNAssert s
  | .warmResetCmd r v => Sys2Proof.Machine.execWarmResetCmd r v s
  | .vcoreReturn kept => Sys2Proof.Machine.execVcoreReturn kept s
  | .timebaseLock => Sys2Proof.Machine.execTimebaseLock s
  | .vernierCalibrated => Sys2Proof.Machine.execVernierCalibrated s
  | .lockLoss => Sys2Proof.Machine.execLockLoss s
  | .relock => Sys2Proof.Machine.execRelock s
  | .pdSwitchOn r d => Sys2Proof.Machine.execPdSwitchOn r d s
  | .pdSwitchOff r d => Sys2Proof.Machine.execPdSwitchOff r d s
  | .pdSwitchComplete => Sys2Proof.Machine.execPdSwitchComplete s
  | .avsRefresh step => Sys2Proof.Machine.execAvsRefresh step s
  | .bootRom flash => Sys2Proof.Machine.execBootRom flash s
  | .bootComplete => Sys2Proof.Machine.execBootComplete s
  | .pairLoaderStart p => Sys2Proof.Machine.execPairLoaderStart p s
  | .pairLoaderEnd p ok => Sys2Proof.Machine.execPairLoaderEnd p ok s
  | .imgVerify r => Sys2Proof.Machine.execImgVerify r s
  | .imgProgram r => Sys2Proof.Machine.execImgProgram r s
  | .imageEngineComplete flash => Sys2Proof.Machine.execImageEngineComplete flash s
  | .lcTransition r v => Sys2Proof.Machine.execLcTransition r v s
  | .lcKey r v => Sys2Proof.Machine.execLcKey r v s
  | .lcRevoke r v => Sys2Proof.Machine.execLcRevoke r v s
  | .lcFloor r v => Sys2Proof.Machine.execLcFloor r v s
  | .recoveryImageBoot a => Sys2Proof.Machine.execRecoveryImageBoot a s
  | .extest => Sys2Proof.Machine.execExtest s
  | .idcode => Sys2Proof.Machine.execIdcode s
  | .samplePreload cells => Sys2Proof.Machine.execSamplePreload cells s
  | .bypass => Sys2Proof.Machine.execBypass s
  | .dmrRd32 f a => Sys2Proof.Machine.execDmrRd32 f a s
  | .dmrWr32 f a v => Sys2Proof.Machine.execDmrWr32 f a v s
  | .dmrRd64 f a => Sys2Proof.Machine.execDmrRd64 f a s
  | .dmrRegrd f a => Sys2Proof.Machine.execDmrRegrd f a s
  | .dmrRegwr f a v => Sys2Proof.Machine.execDmrRegwr f a v s
  | .sessionOpen => Sys2Proof.Machine.execSessionOpen s
  | .sessionClose => Sys2Proof.Machine.execSessionClose s
  | .sessionTimeout => Sys2Proof.Machine.execSessionTimeout s
  | .debugHalt t => Sys2Proof.Machine.execDebugHalt t s
  | .breakpointMatch c => Sys2Proof.Machine.execBreakpointMatch c s
  | .debugResume t => Sys2Proof.Machine.execDebugResume t s
  | .debugStep t => Sys2Proof.Machine.execDebugStep t s
  | .feedGo item => Sys2Proof.Machine.execFeedGo item s
  | .testEnAssert low => Sys2Proof.Machine.execTestEnAssert low s
  | .gateFaultDeassert x n => Sys2Proof.Machine.execGateFaultDeassert x n s
  | .ethLinkChange p up => Sys2Proof.Machine.execEthLinkChange p up s

end Sys2Proof.Machine
end

