-- ==== Sys2Proof/Machine/Step.lean ====
section
/-! DEFINITION. One step of the block: the command at the front of the queue has its effect; with none waiting a tick passes. -/

namespace Sys2Proof.Machine

/-- The command waiting longest is taken and has its effect on everything but the queue. With an empty queue one tick of the
timebase passes, where the counter runs (log entry 4). -/
def step (s : State) : Host.Outcome State Fault Refusal :=
  match s.pending with
  | [] => .next { s with m := s.m.tickOn }
  | c :: cs => exec c { s with pending := cs }

/-- The state with the command a table word spells in front of its queue. -/
def State.withFetchWord (s : State) (nbits w : Nat) : State :=
  match decodeTableWord nbits w with
  | none => s
  | some c => { s with pending := c :: s.pending }

end Sys2Proof.Machine
end

