-- ==== Sys2Proof/Safety.lean ====
section
/-! DEFINITION. What the statements mean by a safe run, by a command that completes, and by what stays as it was. -/

namespace Sys2Proof.Machine

/-- A step is safe when it ends in a next state: no fault, no refusal. -/
def Safe (o : Host.Outcome State Fault Refusal) : Prop := ∃ t, o = .next t

/-- Command `c` completes in `s`: exec answers a next state with the queue as it was. Its own effect leaves the part in a state of which P
holds; what follows a command at once (`Mach.settle`) comes after it. -/
def State.Completes (s : State) (c : Instr) (P : Mach → Prop) : Prop :=
  ∃ m, exec c s = .next { s with m := m.settle 0 } ∧ P m

/-- Nothing follows a command in this state (see `Mach.settle`): the part is out of reset, no core is to step, no bundle is to be fed,
and the Tapster has no command in flight and no swap waiting. -/
def Mach.Quiet (m : Mach) : Prop :=
  m.held = [] ∧ m.dbg.step = none ∧ m.dbg.feed = false ∧ m.tap.ctxs = [] ∧ m.tap.events = [] ∧ m.tap.swapFrom = none

/-- A requester that acts as House supervisor and is not the debug link, with no write waiting at a mirror (R25): what R375 gives HS in the
device register range. -/
def Mach.HouseSup (m : Mach) (r : Req) : Prop :=
  (m.who r).guest = false ∧ (m.who r).user = false ∧ (m.who r).isDebug = false ∧ m.reqWaits r = false

/-- Every register word but those listed is as in `m`. -/
def Mach.WordsBut (m : Mach) (as : List Nat) (m' : Mach) : Prop := ∀ a, a ∉ as → m'.rg a = m.rg a

/-- Bit `k` of a word with field card `c` that read `old` and was written `v`: W1S bits written 1 set, W1C bits written 1 clear, RW bits take the
value, all others stay (R9). -/
def Card.wrote (c : Card) (v old : W32) (k : Nat) : Bool :=
  if c.w1s.getLsbD k && v.getLsbD k then true
  else if c.w1c.getLsbD k && v.getLsbD k then false
  else if c.rw.getLsbD k then v.getLsbD k
  else old.getLsbD k

/-- Nothing but register words and the answer to the access differs from `m`: memory, queues, cores, pairs, timers, the debug unit and
every other unit are as they were. -/
def Mach.OnlyWords (m m' : Mach) : Prop := m' = { m with regs := m'.regs, resp := m'.resp }

/-- The memories, the error-correcting code, the flash, the host's memory and the retention store are as in `m`. -/
def Mach.MemSame (m m' : Mach) : Prop := m'.mem = m.mem ∧ m'.ecc = m.ecc ∧ m'.flash = m.flash ∧ m'.host = m.host ∧ m'.ret = m.ret

/-- Every memory the part holds is in its canonical form. -/
def Mach.MemWf (m : Mach) : Prop :=
  Memory.wf m.mem = true ∧ Memory.wf m.flash = true ∧ Memory.wf m.host = true ∧ Memory.wf m.ret = true

/-- The commands that reach a part held in reset: what ends or begins the hold, the STO inputs and the TAP (log entry 111). -/
def passesReset : Instr → Bool
  | .stoSafeStateEntry .. | .powerGood _ | .supplyLoss | .resetNAssert | .testEnAssert _ | .vcoreReturn _ | .extest | .idcode
  | .samplePreload _ | .bypass => true
  | _ => false

/-- The commands that start a self-commissioning sequence, each with its SEQ code and the gain set it names. -/
def cmStart (x : Fin 64) (gset : Fin 8) (seed : BitVec 2) (r : Req) : List (Instr × Nat × Nat) :=
  [(.cmMass r x, 1, 0), (.cmResp r x, 2, 0), (.cmPropose r x, 3, 0), (.cmFull r x, 4, 0), (.cmApply r x seed, 5, 0),
   (.cmSelect r x gset seed, 6, gset.val)]

/-- Cores, pairs, fuses, supplies, debug unit and reset state are as in `m`. -/
def Mach.SysSame (m m' : Mach) : Prop :=
  m'.reeds = m.reeds ∧ m'.pairs = m.pairs ∧ m'.secure = m.secure ∧ m'.power = m.power ∧ m'.dbg = m.dbg ∧ m'.held = m.held

/-- Core `c` issues the bundle a command brings it: its pair runs and it is neither halted nor locked, and no event, breakpoint or pending
arithmetic exception comes first. -/
def Mach.Issuing (m : Mach) (c : Nat) : Prop :=
  m.issues c = true ∧ m.eventDue c = none ∧ m.bpMatch c = false ∧ (m.reed c).core.axn = none

/-- Core `c` has executed one bundle outside a repeat that leaves it as `k` says but for the bundle address, which moves on; its pair's record
of the run may grow. Nothing else but register words and the error-correcting code differs from `m`. -/
def Mach.Retires (m : Mach) (c : Nat) (k : Core) (m' : Mach) : Prop :=
  (m'.reed c).core = { k with pc := (k.pc + 16) % 2 ^ 32 } ∧
  m' = { m with regs := m'.regs, reeds := m'.reeds, pairs := m'.pairs, ecc := m'.ecc, posts := m'.posts }

/-- Core `c` has computed `v` in unit `u`, raising the conditions `flags`: the unit is at work on its result, AXF gathers the conditions, and
nothing else of the machine but the bundle address and the pair's count of bundles has changed. -/
def Mach.Computes (m : Mach) (c u : Nat) (v : W64) (flags : Nat) (m' : Mach) : Prop :=
  m.Retires c ((m.reed c).core.setRes u v |>.work u) m' ∧
  m'.rg (ctlAddr c 5) = m.rg (ctlAddr c 5) ||| BitVec.ofNat 32 flags ∧ m.WordsBut [ctlAddr c 5] m' ∧ m'.mem = m.mem ∧ m'.ecc = m.ecc ∧
  m'.reed c = { m.reed c with core := (m'.reed c).core, first := false, past := false, wfe := false } ∧
  (∀ n, n ≠ c → m'.reed n = m.reed n) ∧
  (∀ p, p ≠ c / 2 → m'.pair p = m.pair p) ∧ m'.pair (c / 2) = { m.pair (c / 2) with count := (m.pair (c / 2)).count + 1 }

/-- Every word of the `n` bytes from key `k` on has a good code. -/
def Mach.GoodCode (m : Mach) (k n : Nat) : Prop := ∀ w, k / 8 ≤ w → w ≤ (k + n - 1) / 8 → SMap.get eccGood m.ecc w = .good

/-- The entry of vector `vec` in a world fits (R384, R385): its descriptor is valid and gives `handler` and `pa`, and the frame goes to `sp`. -/
def Mach.EntryFits (m : Mach) (c : Nat) (guest : Bool) (vec handler : Nat) (pa : Bool) (sp : Nat) : Prop :=
  m.flg (if guest then SHSTAT.GDFA else SHSTAT.HDFA) c = false ∧ (m.reed c).core.shadow.length < 14 ∧
  ∃ stack limit, m.descriptor c guest vec = (some (handler, pa, stack, limit), m) ∧
    sp = ((if m.inGuest c = guest && !m.atUser c then ((m.reed c).core.gReg 62).toNat else stack) + 2 ^ 64 - 256) % 2 ^ 64 ∧
    sp % 16 = 0 ∧ limit ≤ sp ∧ m.frameFits c guest sp = true

/-- The core has entered its handler (R385, R386): `epc` and `cause` stand in the frame with the status and the stack pointer that were, the
frame waits in the store buffer, the shadow entry is pushed, and the status is the handler's. -/
def Mach.Entered (m : Mach) (c : Nat) (guest : Bool) (epc cause handler : Nat) (pa : Bool) (sp : Nat) (m' : Mach) : Prop :=
  let r := m.reed c
  let r' := m'.reed c
  let st := m.rg (ctlAddr c 0)
  let word (i v : Nat) : Prop := (r'.sb.drop r.sb.length)[i]? = some (SbEntry.mk (sp + 8 * i) (bytesOfNat 8 v) guest false true)
  r'.core.pc = handler ∧ r'.core.gReg 62 = BitVec.ofNat 64 sp ∧ r'.core.rep = none ∧ r'.core.axn = none ∧ r'.resv = none ∧ r'.first = true ∧
  r'.core.shadow = (decide (ST.WORLD.of st = 1), decide (ST.LEVEL.of st = 1), false) :: r.core.shadow ∧
  r'.sb.length = r.sb.length + 32 ∧ r'.sb.take r.sb.length = r.sb ∧
  word 0 epc ∧ word 2 cause ∧ word 6 (r.core.gReg 62).toNat ∧
  m'.flg ST.WORLD c = guest ∧ m'.fld ST.LEVEL c = 1 ∧ m'.fld ST.EM c = 1 ∧ m'.flg ST.PA c = pa ∧ m'.fld ST.AXP c = 0 ∧
  m'.rg (ctlAddr c 5) = 0 ∧ m'.rg (ctlAddr c 6) = 0 ∧ m'.mem = m.mem

/-- The register file, the open buffer of every staging set and the Tapster's contexts are in their canonical form. -/
def Mach.RegsWf (m : Mach) : Prop :=
  SMap.wf resetWord m.regs = true ∧ (∀ x, SMap.wf unmarked (m.stage x).openW = true) ∧ SMap.wf (fun _ => none) m.tap.ctxs = true

/-- The units a Tapster command that only answers leaves as they are. (A reply that goes into memory may end a core's reservation.) -/
def Mach.UnitsSame (m m' : Mach) : Prop :=
  m'.pairs = m.pairs ∧ m'.secure = m.secure ∧ m'.power = m.power ∧ m'.held = m.held ∧ m'.slices = m.slices ∧ m'.timers = m.timers ∧ m'.stages = m.stages ∧ m'.groups = m.groups ∧ m'.wins = m.wins ∧
  m'.banks = m.banks ∧ m'.cmps = m.cmps ∧ m'.ports = m.ports ∧ m'.viss = m.viss

/-- The replies `bs` of a command of queue `q` go out in turn (R249). Behind a queue in device memory that takes none, or behind replies already
held for it, they are held in order; a single one a queue has room for is appended at TAIL. -/
def Mach.Replied (m : Mach) (q : Nat) (bs : List (List Byte)) (m' : Mach) : Prop :=
  let rq := m.fld QM_LINK.RQ q
  (bs = [] → m'.tap.replies = m.tap.replies ∧ m'.tap.rlost = m.tap.rlost) ∧
  (m.flg QM_CFG.SPACE rq = false → (m.outReady rq 1 = false ∨ ∃ r ∈ m.tap.replies, r.1 = rq) →
    m.tap.replies.length + bs.length ≤ 256 → m'.tap.replies = m.tap.replies ++ bs.map (fun b => (rq, b))) ∧
  (∀ b k, bs = [b] → m.flg QM_CFG.SPACE rq = false → m.outReady rq 1 = true → (∀ r ∈ m.tap.replies, r.1 ≠ rq) → rq ∉ m.tap.rlost →
    m.flg QM_CFG.WB rq = false → m.memAt none (m.qEntry rq (m.qTail rq)) b.length = some k →
    m'.tap.replies = m.tap.replies ∧ m'.qTail rq = (m.qTail rq + 1) % 65536 ∧ m'.peek k b.length = b)

/-- The command of context `i` has ended with the replies `bs`: its context is free. -/
def Mach.Ended (m : Mach) (i : Nat) (c : Ctx) (bs : List (List Byte)) (m' : Mach) : Prop := m'.ctx i = none ∧ m.Replied c.q bs m'

/-- The replies of a command that ends DONE at once with RESULT `res`, as its ACK asks (R249). -/
def Ctx.doneReplies (c : Ctx) (res : List Byte) : List (List Byte) :=
  (if c.ack % 2 = 1 then [c.reply 1 0 false []] else []) ++ (if 2 ≤ c.ack then [c.reply 0 0 true res] else [])

/-- The reply of a command that ends BAD_PARAM because a block refused it with `code` (R248). -/
def Ctx.refusal (c : Ctx) (code : Nat) : List (List Byte) := [c.reply 0x12 63 true (bytesOfNat 8 0 ++ bytesOfNat 1 code)]

/-- The reply of a command that ends BAD_PARAM at byte or with code `detail` (R248). -/
def Ctx.bad (c : Ctx) (detail : Nat) : List (List Byte) := [c.reply 0x12 detail true []]

/-- The command of context `i` goes on as `c'` after ACCEPTED, which is sent if its ACK asks for it (R249). -/
def Mach.Accepts (m : Mach) (i : Nat) (c c' : Ctx) (m' : Mach) : Prop :=
  m'.ctx i = some { c' with started := true, accepted := true } ∧ m.Replied c.q (if c.ack % 2 = 1 then [c.reply 1 0 false []] else []) m'

/-- Context `i` holds the command `c` with opcode `op`, which waits to start and may: no halt or BARRIER keeps it and its PLEN is long enough
(R250, R251, R259 to R267). -/
def Mach.Startable (m : Mach) (i op : Nat) (c : Ctx) : Prop :=
  m.ctx i = some c ∧ c.op = op ∧ c.q < 4096 ∧ c.started = false ∧ c.accepted = false ∧ c.final = false ∧ c.micro = false ∧
  m.flg DBG_STAT.TAPH 0 = false ∧ m.barred c = false ∧ ∃ e, m.entryOf op = some e ∧ e.2.2 ≤ c.plen

/-- The commands that start a vendor command of the Tapster in context `n`, each with its opcode. -/
def tapRows (n : Fin 256) : List (Instr × Nat) :=
  [(.tapNop n, 0x000), (.tapRead n, 0x001), (.tapWrite n, 0x002), (.tapTime n, 0x003), (.tapEmuDone n, 0x00F), (.tapMcSwap n, 0x010),
   (.tapEnable n, 0x100), (.tapDisable n, 0x101), (.tapGeometry n, 0x102), (.tapScales n, 0x103), (.tapChain n, 0x104), (.tapMap n, 0x105),
   (.tapTimer n, 0x106), (.tapGroup n, 0x107), (.tapMove n, 0x200), (.tapStream n, 0x201), (.tapLimits n, 0x202), (.tapStopCfg n, 0x203),
   (.tapLimmode n, 0x204), (.tapStop n, 0x208), (.tapRelease n, 0x209), (.tapShut n, 0x20A), (.tapUnshut n, 0x20B), (.tapStatus n, 0x20C),
   (.tapBankWr n, 0x300), (.tapBankRd n, 0x301), (.tapSwap n, 0x302), (.tapIref n, 0x303), (.tapTrcCfg n, 0x400), (.tapTrcTrig n, 0x401),
   (.tapTrcStat n, 0x402), (.tapBusSet n, 0x500), (.tapBroker n, 0x501), (.tapStore n, 0x502), (.tapBusStat n, 0x503)] ++
  [(.tapCmStart n, 0x600), (.tapCmAbort n, 0x601), (.tapCmPolicy n, 0x602), (.tapCmAdapt n, 0x603), (.tapCmResult n, 0x604), (.tapCal n, 0x700),
   (.tapInject n, 0x701), (.tapCmpChk n, 0x702), (.tapSliceReset n, 0x703), (.tapSticky n, 0x704), (.tapTrigAt n, 0x800),
   (.tapWindow n, 0x801), (.tapBatchRel n, 0x802)]

/-- The words a staging command of the Tapster puts into its target's mirror, by opcode: offset and value (R260 to R264). -/
def Ctx.staged (c : Ctx) : List (Nat × Nat) :=
  match c.op with
  | 0x104 => c.words 0 [0xC004]
  | 0x105 => c.words 0 [0xC034, 0xC038, 0xC03C, 0xC040, 0xC044, 0xC048, 0xC04C, 0xC058]
  | 0x200 => c.words 0 [0xE040, 0xE044] ++ [(0xE058, c.tag)]
  | 0x201 => c.words 0 [0xE040, 0xE044, 0xE048, 0xE04C]
  | 0x202 => c.words 0 [0xE008, 0xE00C, 0xE010, 0xE014, 0xE018, 0xE01C, 0xE020, 0xE024, 0xE028]
  | 0x203 => c.words 0 [0xE030, 0xE034, 0xE038, 0xE03C, 0xE060]
  | 0x204 => c.words 0 [0xE000]
  | 0x302 => [(0xE080, 2 ^ 31 + c.param 0 1 % 4)]
  | 0x303 => c.words 0 [0xC050, 0xC054]
  | 0x500 => c.words 0 [0xE000, 0xE008, 0xE010, 0xE014]
  | _ => c.words 0 [0xE01C, 0xE020]

/-- Every word of the list holds the value given, in the bits its card makes writable. -/
def Mach.Holds (m : Mach) (ws : List (Nat × Nat)) : Prop :=
  ∀ e ∈ ws, ∀ k, cardAt e.1 = some k → m.rg e.1 &&& k.rw = BitVec.ofNat 32 e.2 &&& k.rw

/-- Context `i` has the turn to run the micro-word `u` as command `c`, of queue `c.q`, and the word itself is sound (R301 to R305). -/
def Mach.Stepping (m : Mach) (i : Nat) (c : Ctx) (u : Micro) : Prop :=
  m.ctx i = some c ∧ m.microOf c = u ∧ m.hasTurn i = true ∧ wordFault c u = 0 ∧ c.q < 4096

/-- The ALU result of a step. -/
def Ctx.alu (c : Ctx) (u : Micro) : W32 := microAlu (u.f 72 69) (c.opA u) (c.opB u) (BitVec.ofNat 32 (u.f 127 96)) (c.cond (u.f 67 64))

/-- A step that only moves data and goes on to the next address: it writes neither D, the flags nor the reply buffer of its own, and no limit of
steps is reached. -/
def Ctx.plain (c : Ctx) (u : Micro) : Prop := u.seq = 0 ∧ c.acts u = true ∧ u.f 80 80 = 0 ∧ u.f 68 68 = 0 ∧ u.f 58 58 = 0 ∧ c.steps + 1 < 65536

end Sys2Proof.Machine
end

