-- ==== Sys2Proof/WellFormed.lean ====
section
/-! DEFINITION. Which commands can reach the part: what a requester can address, and what its inputs can show. An ill-formed command
is no access or event of the part; the machine still gives each a meaning. -/

namespace Sys2Proof

/-- An edge of an input: the tick before it has an edge before it in its turn, so both ticks of an arbiter exist (R51). -/
def Edge.wf (e : Edge) : Bool := 1 ≤ e.tick

/-- A register access of 4 or 8 bytes at its own alignment, in the device register range (R31, R354). -/
def accessWf (a : Nat) (wide : Bool) : Bool :=
  0x30000000 ≤ a && a < 0x40000000 && a % (if wide then 8 else 4) = 0

/-- A boundary offset in a mirror window of 16 KiB (R24). -/
def mirrorWf (off : Nat) (wide : Bool) : Bool := off < 0x4000 && off % (if wide then 8 else 4) = 0

/-- Lengths of a CAN frame's data: classical and FD (R289). -/
def canLenWf (n : Nat) (fd : Bool) : Bool :=
  n ≤ 8 || (fd && [12, 16, 20, 24, 32, 48, 64].contains n)

/-- Frames of an Ethernet port: up to 1,522 bytes, with their addresses and type (R284). -/
def ethLenWf (n : Nat) : Bool := 14 ≤ n && n ≤ 1522

/-- The word key of a memory the scrubber reads: whole words of the four memories (R419, R427). -/
def scrubWf (k : Nat) : Bool :=
  k % 8 = 0 && ((0x10000000 ≤ k && k < 0x11000000) || (0x20000000 ≤ k && k < 0x20080000) || (0x80000000 ≤ k && k < 0x100000000)
    || (0x200000000 ≤ k && k < 0x200400000))

/-- Commands that can reach the part. -/
def Instr.wf (c : Instr) : Bool :=
  match c with
  | .registerWrite _ a wide _ => accessWf a wide
  | .rlLowHalfRead _ a => accessWf a true
  | .rlHighHalfRead _ a => accessWf a false && a % 8 = 4
  | .rl64BitRead _ a => accessWf a true
  | .rcFieldRead _ a => accessWf a false
  | .mirrorWrite _ _ off wide _ => mirrorWf off wide
  | .comparatorInputCrossing _ e _ => e.wf
  | .quadratureEdge _ e _ _ => e.wf
  | .indexEdge _ e => e.toEdge.wf
  | .stoSafeStateEntry _ _ _ e => e.wf
  | .gateFaultAssert _ _ e => e.wf
  | .strobeEdge _ e => e.toEdge.wf
  | .extfAssert _ e => e.wf
  | .pfWarnInput _ e => e.wf
  | .pfCritInput _ e => e.wf
  | .supplyMonitorTrip _ _ e => e.wf
  | .ethFrameReceive _ _ _ frame _ => ethLenWf frame.length
  | .canFrameReceive _ _ _ _ info data _ => canLenWf data.length (info.getLsbD 0)
  | .scrubRead k _ => scrubWf k
  | .stickyRead _ _ => true
  | .sampleFence _ => true
  | .sliceWake _ _ => true
  | .deposit _ _ => true
  | .traceStreamWrite _ => true
  | .commitFence _ _ => true
  | .stagingLock _ => true
  | .applyFence _ => true
  | .stageClose _ _ _ => true
  | .interlockWriteLands _ => true
  | .sliceGroupChange _ _ _ => true
  | .sliceEnable _ _ _ => true
  | .sliceDisable _ _ _ => true
  | .groupEnable _ _ _ => true
  | .groupDisable _ _ _ => true
  | .groupTimingWrite _ _ _ _ => true
  | .applyHoldWrite _ _ _ => true
  | .vernierRecalibration => true
  | .windowEnable _ _ _ => true
  | .windowDisarm _ _ _ => true
  | .windowSpanStart _ => true
  | .windowMissed _ => true
  | .conversionHold _ _ => true
  | .conversionComplete _ _ _ => true
  | .slotFcfgWrite _ _ _ _ => true
  | .injReq _ _ _ => true
  | .injectedConversionDone _ _ _ => true
  | .bankEnable _ _ _ => true
  | .bankReady _ _ => true
  | .bankDisable _ _ _ => true
  | .calCmdStep _ _ => true
  | .calCmdRotation _ _ => true
  | .calCmdStop _ _ => true
  | .calGapExpiry _ => true
  | .rotationOverlapEnd _ => true
  | .cellCalibrationDone _ _ _ _ _ => true
  | .blankEnd _ => true
  | .comparatorSettled _ _ => true
  | .comparatorEnable _ _ _ => true
  | .comparatorDisable _ _ _ => true
  | .comparatorArm _ _ _ => true
  | .comparatorDisarm _ _ _ => true
  | .comparatorModeChange _ _ _ => true
  | .thresholdWrite _ _ _ => true
  | .cmpActWrite _ _ _ => true
  | .cmpWindowEnable _ _ _ => true
  | .cmpWindowDisable _ _ _ => true
  | .swapCheck _ _ _ => true
  | .tieCheck _ _ _ => true
  | .readbackCheck _ _ _ => true
  | .checkEnd _ _ => true
  | .autoCheckInterval _ => true
  | .portEnable _ _ _ => true
  | .portDisable _ _ _ => true
  | .serialTransactionStart _ => true
  | .serialStartTimeout _ => true
  | .serialFrameComplete _ _ _ _ _ _ => true
  | .lineFault _ => true
  | .presetWrite _ _ _ => true
  | .bissRegisterAccess _ _ _ => true
  | .bissAccessComplete _ _ _ => true
  | .limiterStop _ _ => true
  | .limiterRelease _ _ => true
  | .traceSoftwareTrigger _ _ => true
  | .traceRestart _ _ _ _ => true
  | .traceSelectWrite _ _ _ => true
  | .brokerRun _ => true
  | .cmMass _ _ => true
  | .cmResp _ _ => true
  | .cmPropose _ _ => true
  | .cmFull _ _ => true
  | .cmApply _ _ _ => true
  | .cmSelect _ _ _ _ => true
  | .cmCtrlAbort _ _ => true
  | .cmSequenceEnd _ => true
  | .moveInertiaEstimate _ => true
  | .notchIntervalEnd _ => true
  | .carrierEvent _ _ => true
  | .gateEdge _ _ _ => true
  | .gtCmdShut _ _ => true
  | .gtCmdRelease _ _ => true
  | .stoReturn _ => true
  | .stoDiscrepancy _ => true
  | .safeOutputDisagree => true
  | .commandPacketTake q => (q.host.getD (List.replicate 64 0)).length = 64
  | .tapNop _ => true
  | .tapRead _ => true
  | .tapWrite _ => true
  | .tapTime _ => true
  | .tapEmuDone _ => true
  | .tapMcSwap _ => true
  | .tapEnable _ => true
  | .tapDisable _ => true
  | .tapGeometry _ => true
  | .tapScales _ => true
  | .tapChain _ => true
  | .tapMap _ => true
  | .tapTimer _ => true
  | .tapGroup _ => true
  | .tapMove _ => true
  | .tapStream _ => true
  | .tapLimits _ => true
  | .tapStopCfg _ => true
  | .tapLimmode _ => true
  | .tapStop _ => true
  | .tapRelease _ => true
  | .tapShut _ => true
  | .tapUnshut _ => true
  | .tapStatus _ => true
  | .tapBankWr _ => true
  | .tapBankRd _ => true
  | .tapSwap _ => true
  | .tapIref _ => true
  | .tapTrcCfg _ => true
  | .tapTrcTrig _ => true
  | .tapTrcStat _ => true
  | .tapBusSet _ => true
  | .tapBroker _ => true
  | .tapStore _ => true
  | .tapBusStat _ => true
  | .tapCmStart _ => true
  | .tapCmAbort _ => true
  | .tapCmPolicy _ => true
  | .tapCmAdapt _ => true
  | .tapCmResult _ => true
  | .tapCal _ => true
  | .tapInject _ => true
  | .tapCmpChk _ => true
  | .tapSliceReset _ => true
  | .tapSticky _ => true
  | .tapTrigAt _ => true
  | .tapWindow _ => true
  | .tapBatchRel _ => true
  | .emulatedOpcode _ => true
  | .guestOpcode _ => true
  | .heldReplyPost => true
  | .tapsterHoldTimeout _ => true
  | .doorbell _ _ _ _ => true
  | .queueEnable _ _ _ => true
  | .queueDisable _ _ _ => true
  | .queueRecordPost => true
  | .queueModerationTimeout _ => true
  | .qmModWrite _ _ _ => true
  | .pcieLinkDown => true
  | .pcieLinkUp _ _ => true
  | .ethFrameTransmit _ _ _ _ => true
  | .tunnelFrameReceive _ _ => true
  | .ptpApply _ _ => true
  | .gclGateChange _ => true
  | .canFrameTransmit _ _ _ => true
  | .uartReceiveEnd _ _ _ _ => true
  | .uartTransmit _ _ => true
  | .visionTriggerEdge _ _ => true
  | .microStep _ => true
  | .xopLd _ => true
  | .xopSt _ => true
  | .xopLdp _ => true
  | .xopStp _ => true
  | .xopStage _ => true
  | .xopClose _ => true
  | .xopReply _ => true
  | .xopPost _ => true
  | .contextResume _ => true
  | .mcCmdLoad _ => true
  | .mcLoadComplete => true
  | .mcCmdSwap _ => true
  | .mcCmdLoadSwap _ => true
  | .mcSwapBlocked => true
  | .mcInitEnd _ => true
  | .bundleExecute _ _ => true
  | .reedRepeat _ _ => true
  | .reedAdd _ _ _ => true
  | .reedSub _ _ _ => true
  | .reedAnd _ _ _ => true
  | .reedOr _ _ _ => true
  | .reedXor _ _ _ => true
  | .reedAndn _ _ _ => true
  | .reedShl _ _ _ => true
  | .reedShr _ _ _ => true
  | .reedSar _ _ _ => true
  | .reedMin _ _ _ => true
  | .reedMax _ _ _ => true
  | .reedMinu _ _ _ => true
  | .reedMaxu _ _ _ => true
  | .reedAddv _ _ _ => true
  | .reedSubv _ _ _ => true
  | .reedMul _ _ => true
  | .reedMulhs _ _ => true
  | .reedMulhu _ _ => true
  | .reedDiv _ _ => true
  | .reedDivu _ _ => true
  | .reedRem _ _ => true
  | .reedRemu _ _ => true
  | .reedEq _ _ => true
  | .reedNe _ _ => true
  | .reedLt _ _ => true
  | .reedGe _ _ => true
  | .reedLtu _ _ => true
  | .reedGeu _ _ => true
  | .reedLd8s _ _ => true
  | .reedLd8u _ _ => true
  | .reedLd16s _ _ => true
  | .reedLd16u _ _ => true
  | .reedLd32s _ _ => true
  | .reedLd32u _ _ => true
  | .reedLd64 _ _ => true
  | .reedSt8 _ _ => true
  | .reedSt16 _ _ => true
  | .reedSt32 _ _ => true
  | .reedSt64 _ _ => true
  | .reedLr64 _ _ => true
  | .reedSc64 _ _ => true
  | .reedFence _ _ => true
  | .reedJmp _ _ => true
  | .reedJrel _ _ => true
  | .reedCall _ _ => true
  | .reedCallr _ _ => true
  | .reedFadd _ _ => true
  | .reedFsub _ _ => true
  | .reedFmul _ _ => true
  | .reedFdiv _ _ => true
  | .reedFsqrt _ _ => true
  | .reedFmin _ _ => true
  | .reedFmax _ _ => true
  | .reedFcvtif _ _ => true
  | .reedFcvtfi _ _ => true
  | .reedFeq _ _ => true
  | .reedFlt _ _ => true
  | .reedFle _ _ => true
  | .reedCrd _ _ => true
  | .reedCwr _ _ => true
  | .reedSync _ => true
  | .reedMstone _ => true
  | .reedSyscall _ _ => true
  | .reedEret _ => true
  | .reedWfe _ => true
  | .reedBrk _ => true
  | .qpTailDoorbell _ _ => true
  | .qpHeadDoorbell _ _ => true
  | .unitResultReady _ _ => true
  | .storePerformed _ => true
  | .arithExceptionDelivery _ => true
  | .asyncEventTaken _ => true
  | .replayEnd _ _ => true
  | .milestoneTimer _ => true
  | .milestoneReservationWait _ => true
  | .comparatorSelfTest _ _ => true
  | .pairRestart _ _ => true
  | .pairResetRequest _ _ => true
  | .wipeComplete _ => true
  | .watchdogKick _ _ _ => true
  | .watchdogWarn _ => true
  | .pairWatchdogExpiry _ => true
  | .deviceWatchdogExpiry => true
  | .dwdGraceEnd => true
  | .stopTimeout _ => true
  | .loRecordCommit => true
  | .snapshotTimer => true
  | .loStartCmd _ => true
  | .loEndCmd _ => true
  | .loSnapCmd _ => true
  | .powerGood _ => true
  | .supplyLoss => true
  | .resetNAssert => true
  | .warmResetCmd _ _ => true
  | .vcoreReturn _ => true
  | .timebaseLock => true
  | .vernierCalibrated => true
  | .lockLoss => true
  | .relock => true
  | .pdSwitchOn _ _ => true
  | .pdSwitchOff _ _ => true
  | .pdSwitchComplete => true
  | .avsRefresh _ => true
  | .bootRom _ => true
  | .bootComplete => true
  | .pairLoaderStart _ => true
  | .pairLoaderEnd _ _ => true
  | .imgVerify _ => true
  | .imgProgram _ => true
  | .imageEngineComplete _ => true
  | .lcTransition _ _ => true
  | .lcKey _ _ => true
  | .lcRevoke _ _ => true
  | .lcFloor _ _ => true
  | .recoveryImageBoot _ => true
  | .extest => true
  | .idcode => true
  | .samplePreload _ => true
  | .bypass => true
  | .dmrRd32 _ _ => true
  | .dmrWr32 _ _ _ => true
  | .dmrRd64 _ _ => true
  | .dmrRegrd _ _ => true
  | .dmrRegwr _ _ _ => true
  | .sessionOpen => true
  | .sessionClose => true
  | .sessionTimeout => true
  | .debugHalt _ => true
  | .breakpointMatch _ => true
  | .debugResume _ => true
  | .debugStep _ => true
  | .feedGo _ => true
  | .testEnAssert _ => true
  | .gateFaultDeassert _ _ => true
  | .ethLinkChange _ _ => true

end Sys2Proof
end

