-- ==== Sys2Proof/Certificates/Slice0/Obligations.lean ====
section
/-! DEFINITION. The statements for the provers. `State.Completes` (Sys2Proof/Safety.lean) is the conclusion of those that say where a
command completes: exec answers a next state, and the effect named is what the command leaves. -/

open Sys2Proof Sys2Proof.Machine

/-! ### The block as a whole -/

/-- A step takes the command at the front of the queue and is exec of it with the queue's rest. -/
def Obligations.StepRunsTheFrontCommand : Prop :=
  ∀ (s : State) (c : Instr) (cs : List Instr), step { s with pending := c :: cs } = exec c { s with pending := cs }

/-- With no command waiting a step is one tick of the timebase (64 vernier), where the counter runs: out of reset, with LOCK or HOLD at 1.
Nothing else changes (log entry 4: the model's choice).

A part held in reset takes no command but those that end or begin the hold, the STO inputs and the TAP: any other command leaves the whole
state as it was (log entry 111: the model's reading). -/
def Obligations.IdleAndHeldSteps : Prop :=
  (∀ s : State, s.pending = [] →
     (s.m.held = [] → (s.m.flg TB_STATUS.LOCK 0 = true ∨ s.m.flg SYS_CLK_STAT.HOLD 0 = true) →
       step s = .next { s with m := { s.m with now := s.m.now + 64 } }) ∧
     ((s.m.held ≠ [] ∨ (s.m.flg TB_STATUS.LOCK 0 = false ∧ s.m.flg SYS_CLK_STAT.HOLD 0 = false)) → step s = .next s)) ∧
  (∀ (c : Instr) (s : State), s.m.held ≠ [] → passesReset c = false → exec c s = .next s)

/-- Every command answers a next state with the queue as it was, but for one: a micro-step whose word holds one of Saleg's own operations is
refused by name (R305). No command faults. -/
def Obligations.EveryCommandCompletes : Prop :=
  ∀ (c : Instr) (s : State),
    (∃ m, exec c s = .next { s with m := m }) ∨
    (∃ n, c = .microStep n ∧ s.m.held = [] ∧ s.m.vendorXop n.val = true ∧ exec c s = .refused .vendorXop)

/-- The commands that wait are well formed, and every step keeps them so. -/
def Obligations.WaitingCommandsStayWellFormed : Prop :=
  ∀ s t : State, (∀ c ∈ s.pending, c.wf = true) → step s = .next t →
    (∀ c ∈ t.pending, c.wf = true) ∧ t.pending = s.pending.tail

/-- The memories of the part, its flash, the host's memory as the part left it and the retention store keep their canonical form in every
step: addresses strictly rising, no byte listed that an unlisted address reads as. -/
def Obligations.MemoriesStayCanonical : Prop :=
  ∀ s t : State, s.m.MemWf → step s = .next t → t.m.MemWf

/-- The register file, the open buffer of every staging set and the Tapster's contexts keep their canonical form in every step: what a word or a
slot reads decides what is listed, so that equal contents are equal data. -/
def Obligations.RegistersStayCanonical : Prop :=
  ∀ s t : State, s.m.RegsWf → step s = .next t → t.m.RegsWf

/-- The state after reset has its memories, registers and contexts in the canonical form, an empty queue, and is quiet.

Values the field cards and rules give for reset, in every instance.

The model's own choices and readings here: log entry 4. -/
def Obligations.ResetState : Prop :=
  (State.reset.m.MemWf ∧ State.reset.m.RegsWf ∧ State.reset.pending = [] ∧ State.reset.m.Quiet) ∧
  (let m := State.reset.m
   (∀ g : Fin 16, m.flg TB_PG_CTRL.EN g.val = false ∧ m.flg TB_PG_STAT.RUN g.val = false ∧ m.flg TB_PG_CTRL.APPLY_HOLD g.val = false) ∧
   (∀ x : Fin 72, m.en x.val = false ∧ m.flg AX_STATE.RUN x.val = false ∧ m.flg AX_GT_STAT.SHUT x.val = false) ∧
   (∀ b : Fin 16, m.flg CB_CTRL.EN b.val = false ∧ m.flg CB_STAT.READY b.val = false ∧ m.fld CB_CAL_STAT.SPARE b.val = 15) ∧
   (∀ i : Fin 256, m.flg CMP_CTRL.EN i.val = false ∧ m.flg CMP_CTRL.ARM i.val = false ∧ m.flg CMP_STAT.UNRES i.val = true) ∧
   (∀ p : Fin 72, m.flg PP_CTRL.EN p.val = false ∧ m.flg PP_STAT.VALID p.val = false) ∧
   (∀ w : Fin 64, m.flg TB_TW_CTRL.EN w.val = false ∧ m.fld TB_TW_RESULT.VERDICT w.val = 0) ∧
   (∀ q : Fin 4096, m.flg QM_CFG.EN q.val = false) ∧
   m.fld SYS_LC_STAT.STATE 0 = 0 ∧ m.flg SYS_LC_STAT.KIMG 0 = false ∧ m.fld SYS_LC_STAT.SLOTS 0 = 0 ∧ m.rg (SYS_LC_FLOOR.IMG.addr 0) = 0 ∧
   m.now = 0 ∧ m.mem = [] ∧ (∀ k, m.peek k 1 = [0]) ∧ m.posts = [] ∧ m.tap.ctxs = [])

/-! ### Register accesses (R8 to R13, R375) -/

/-- REGISTER_WRITE to a word that has no row of its own: each bit follows its access code (R9), and a write of 8 bytes writes both words so. Shown for
the system, timebase, cell and vision blocks, whose words nothing else watches; other words have their own rows and statements.

User level reaches no device register; a Guest writes none below the queue descriptors nor from the Tapster's block up; such an access is
answered denied and changes nothing but the answer (R375).

While a write of a requester waits at a mirror (R25), every later access of that requester waits behind it in order; the debug link, which
serves one request at a time, takes none.

The model's own choices and readings here: log entries 80, 111 and 117. -/
def Obligations.RegisterWrites : Prop :=
  (∀ (s : State) (r : Req) (a : Nat) (v : BitVec 64) (c : Card) (b : Blk) (i : Nat),
     s.m.held = [] → s.m.HouseSup r → cardAt a = some c → blkOf a = some (b, i) →
     b = .sys ∨ b = .tb ∨ b = .cell ∨ b = .vis →
     (devAt a 4 = true → s.Completes (.registerWrite r a false v) fun m =>
       m.resp = .written ∧ s.m.OnlyWords m ∧ s.m.WordsBut [a] m ∧
       ∀ k < 32, (m.rg a).getLsbD k = c.wrote (v.setWidth 32) (s.m.rg a) k) ∧
     (∀ d, devAt a 8 = true → blkOf (a + 4) = some (b, i) → cardAt (a + 4) = some d → s.Completes (.registerWrite r a true v) fun m =>
       m.resp = .written ∧ s.m.OnlyWords m ∧ s.m.WordsBut [a, a + 4] m ∧
       ∀ k < 32, (m.rg a).getLsbD k = c.wrote (v.setWidth 32) (s.m.rg a) k ∧
         (m.rg (a + 4)).getLsbD k = d.wrote ((v >>> 32).setWidth 32) (s.m.rg (a + 4)) k)) ∧
  (∀ (s : State) (r : Req) (a : Nat) (wide : Bool) (v : BitVec 64), s.m.held = [] → (s.m.who r).isDebug = false → s.m.reqWaits r = false →
     devAt a (if wide then 8 else 4) = true →
     ((s.m.who r).user = true ∨ ((s.m.who r).guest = true ∧ (a < 0x33000000 ∨ 0x34000000 ≤ a))) →
     s.Completes (.registerWrite r a wide v) fun m => m = { s.m with resp := .denied }) ∧
  (∀ (s : State) (r : Req) (a : Nat) (wide : Bool) (v : BitVec 64), s.m.held = [] → s.m.reqWaits r = true →
     (Req.isLink r = false → s.Completes (.registerWrite r a wide v) fun m => m = { s.m with
       behind := s.m.behind ++ [{ req := r, write := some v, addr := a, n := if wide then 8 else 4 }], resp := .none }) ∧
     (Req.isLink r = true → s.Completes (.registerWrite r a wide v) fun m => m = s.m))

/-- Reads: the low half of an RL pair loads the requester's shadow with the high half, the high half answers the shadow, a 64-bit read answers
both (R11); a read of a word answers it and sets its RC fields back (R9); STICKY_READ reads AX_STICKY (R152).

The model's own choices and readings here: log entry 111. -/
def Obligations.RegisterReads : Prop :=
  ∀ (s : State) (r : Req) (a : Nat), s.m.held = [] → s.m.HouseSup r →
    (devAt a 4 = true → rlPart a = .low → s.Completes (.rlLowHalfRead r a) fun m =>
      m.resp = .data ((s.m.readReg a).setWidth 64) ∧ SMap.get noShadow m.shadow (Req.idx r) = some (s.m.readReg (a + 4)) ∧
      m = { s.m with resp := m.resp, shadow := m.shadow } ∧
      ∀ k, k ≠ Req.idx r → SMap.get noShadow m.shadow k = SMap.get noShadow s.m.shadow k) ∧
    (devAt a 4 = true → rlPart a = .high → s.Completes (.rlHighHalfRead r a) fun m =>
      m = { s.m with resp := .data (((SMap.get noShadow s.m.shadow (Req.idx r)).getD 0).setWidth 64) }) ∧
    (devAt a 8 = true → rlPart a = .low → s.Completes (.rl64BitRead r a) fun m =>
      m.resp = .data ((s.m.readReg a).setWidth 64 ||| (s.m.readReg (a + 4)).setWidth 64 <<< 32) ∧
      SMap.get noShadow m.shadow (Req.idx r) = some (s.m.readReg (a + 4)) ∧ m = { s.m with resp := m.resp, shadow := m.shadow }) ∧
    (devAt a 4 = true → rlPart a = .none → s.Completes (.rcFieldRead r a) fun m =>
      m.resp = .data ((s.m.readReg a).setWidth 64) ∧ s.m.OnlyWords m ∧ s.m.WordsBut [a] m ∧
      (∀ c, cardAt a = some c → m.rg a = (s.m.rg a &&& ~~~c.rc) ||| (resetWord a &&& c.rc))) ∧
    (∀ x : Fin 72, s.Completes (.stickyRead r x) fun m =>
      let w := AX_STICKY.DLMISS.addr x.val
      m.resp = .data ((s.m.readReg w).setWidth 64) ∧ s.m.OnlyWords m ∧ s.m.WordsBut [w] m ∧
      (∀ c, cardAt w = some c → m.rg w = (s.m.rg w &&& ~~~c.rc) ||| (resetWord w &&& c.rc)))

/-! ### Statements of single rules (R45, R46, R338, R377) -/

/-- R377: a Guest-world read of a device register answers the field's value and never clears an RC field; it does latch an RL shadow. -/
def Obligations.GuestReadsClearNothing : Prop :=
  ∀ (s : State) (r : Req) (a : Nat), s.m.held = [] → (s.m.who r).guest = true → (s.m.who r).user = false → (s.m.who r).isDebug = false →
    s.m.reqWaits r = false → devAt a 4 = true → a < 0x35000000 →
    (rlPart a = .none → s.Completes (.rcFieldRead r a) fun m => m = { s.m with resp := .data ((s.m.readReg a).setWidth 64) }) ∧
    (rlPart a = .low → s.Completes (.rlLowHalfRead r a) fun m =>
      m.resp = .data ((s.m.readReg a).setWidth 64) ∧ SMap.get noShadow m.shadow (Req.idx r) = some (s.m.readReg (a + 4)) ∧
      m = { s.m with resp := m.resp, shadow := m.shadow }) ∧
    (rlPart a = .high → s.Completes (.rlHighHalfRead r a) fun m =>
      m = { s.m with resp := .data (((SMap.get noShadow s.m.shadow (Req.idx r)).getD 0).setWidth 64) }) ∧
    (∀ x : Fin 72, s.Completes (.stickyRead r x) fun m =>
      m = { s.m with resp := .data ((s.m.readReg (AX_STICKY.DLMISS.addr x.val)).setWidth 64) })

/-- R45: a read of a staged word at its mirror answers the open-buffer value if the word is marked, else the value live in the slice; it changes
nothing but the answer. -/
def Obligations.MirrorReads : Prop :=
  ∀ (s : State) (r : Req) (x : Fin 72) (off : Nat) (c : Card), s.m.held = [] → s.m.HouseSup r → off < 0x3F80 → off % 4 = 0 →
    let o := 0xC000 + off
    findCard (cardsOf .sl x.val) (liveOff o) = some c → c.staged = true →
    s.Completes (.rcFieldRead r (Blk.base .sl x.val + o)) fun m =>
      (∀ w, SMap.get unmarked (s.m.stage x.val).openW o = some w → m = { s.m with resp := .data (w.setWidth 64) }) ∧
      (SMap.get unmarked (s.m.stage x.val).openW o = none →
        m = { s.m with resp := .data ((s.m.rg (Blk.base .sl x.val + liveOff o)).setWidth 64) })

/-- R46: a close with no marked words still forms a group; at its apply fence it applies nothing, every staged word of the slice (but a converter's CV_FFB, which the broker's lane writes) stays as it was, but it
updates APPLIED_TAG and AX_STAGE_AFSTAMP. -/
def Obligations.EmptyCloses : Prop :=
  ∀ (s : State) (r : Req) (g : Fin 16) (x : Fin 72) (tag : BitVec 16), s.m.held = [] → s.m.HouseSup r →
    let d := s.m.stage x.val
    (d.openW = [] → d.closedW = [] → d.closed = false → s.m.mirrorWaits (s.m.who r) x.val = false →
      s.Completes (.stageClose r x tag) fun m => (m.stage x.val).closed = true ∧ (m.stage x.val).closedTag = tag.toNat ∧
        (m.stage x.val).closedW = [] ∧ m.flg AX_STAGE_STAT.PENDING x.val = true) ∧
    (s.m.pgOn g.val = true → x.val ∈ s.m.members g.val → d.closed = true → d.locked = true → d.closedW = [] →
      s.m.commitFirst g.val (s.m.applyStamp g.val (s.m.group g.val).kA) = false → s.Completes (.applyFence g) fun m =>
        m.fld AX_STAGE_STAT.APPLIED_TAG x.val = d.closedTag % 65536 ∧
        m.fld AX_STAGE_AFSTAMP.STAMP x.val = s.m.applyStamp g.val (s.m.group g.val).kA % 2 ^ 64 ∧
        ∀ o < 0xC000, ∀ c, findCard (cardsOf .sl x.val) o = some c → c.staged = true → ¬ (64 ≤ x.val ∧ o = CV_FFB.MANT.off) →
          m.rg (Blk.base .sl x.val + o) = s.m.rg (Blk.base .sl x.val + o))

/-! ### Time windows (R52 to R56, R529) -/

/-- The control word of a time window: a disarm clears EN and keeps result and record; an enable of a disarmed window latches its settings, or
with bad bounds gives BAD_WINDOW with EN at 0 (R55).

The spans and missed verdicts of an armed window (R53, R54): a missed verdict is that of the first period from the first watched one on that
has none, and that period gets no other.

The model's own choices and readings here: log entries 4, 5, 111, 112 and 115. -/
def Obligations.TimeWindows : Prop :=
  (∀ (s : State) (r : Req) (w : Fin 64) (v : BitVec 32), s.m.held = [] → s.m.HouseSup r →
     (s.Completes (.windowDisarm r w v) fun m =>
       m.flg TB_TW_CTRL.EN w.val = false ∧ s.m.OnlyWords m ∧ s.m.WordsBut [TB_TW_CTRL.EN.addr w.val, TB_STATUS.RSVW.addr 0] m) ∧
     (s.m.flg TB_TW_CTRL.EN w.val = false →
       let pg := TB_TW_CTRL.PG.of v
       let byGroup : Bool := TB_TW_CTRL.MODE.of v ≠ 0
       let op := s.m.fld TB_TW_OPEN.BOUND w.val
       let cl := s.m.fld TB_TW_CLOSE.BOUND w.val
       let bad : Prop := cl ≤ op ∨ (byGroup = true ∧ s.m.pgP pg * 64 < cl)
       s.Completes (.windowEnable r w v) fun m =>
         (bad → m.flg TB_TW_CTRL.EN w.val = false ∧ m.fld TB_TW_RESULT.VERDICT w.val = 4 ∧ m.fld TB_TW_STAMP.STAMP w.val = 0 ∧
           m.wins = s.m.wins) ∧
         (¬ bad → m.win w.val = {
             pgMode := byGroup, pg := pg, act := if TB_TW_CTRL.ACT.of v = 3 then 1 else TB_TW_CTRL.ACT.of v,
             axis := TB_TW_CTRL.AXIS.of v, src := TB_TW_CTRL.SRC.of v, open_ := op, close := cl, since := s.m.now,
             span := 0, missNext := 0, hits := [] }) ∧
         (¬ bad → (byGroup = true ∨ s.m.now ≤ cl + 128) → m.flg TB_TW_CTRL.EN w.val = true ∧
           m.fld TB_TW_RESULT.VERDICT w.val = s.m.fld TB_TW_RESULT.VERDICT w.val))) ∧
  (∀ (s : State) (w : Fin 64), s.m.held = [] → s.m.flg TB_TW_CTRL.EN w.val = true →
     let d := s.m.win w.val
     (d.pgMode = true → s.m.pgOn d.pg = true → s.Completes (.windowSpanStart w) fun m =>
       let k := max d.span (s.m.winFirst d)
       m.win w.val = { d with span := k + 1 } ∧ m.now = max s.m.now (s.m.startTick d.pg k * 64) ∧
       m = { s.m with wins := m.wins, now := m.now }) ∧
     (d.pgMode = true → s.m.pgOn d.pg = true → s.Completes (.windowMissed w) fun m =>
       let k := s.m.winNext d
       m.win w.val = d.decided k k ∧ k < (m.win w.val).missNext ∧
       (∀ j, k ≤ j → (j < (m.win w.val).missNext ∨ j ∈ (m.win w.val).hits) → j = k ∨ j ∈ d.hits) ∧
       m.now = max s.m.now (s.m.startTick d.pg k * 64 + d.close + 128) ∧
       (d.act ≠ 2 → m.fld TB_TW_RESULT.VERDICT w.val = 3 ∧ m.fld TB_TW_STAMP.STAMP w.val = 0 ∧
         m.flg TB_TW_CTRL.EN w.val = true)) ∧
     (d.pgMode = false → s.Completes (.windowMissed w) fun m =>
       m.now = max s.m.now (d.close + 128) ∧ m.wins = s.m.wins ∧
       (d.act ≠ 2 → m.fld TB_TW_RESULT.VERDICT w.val = 3 ∧ m.fld TB_TW_STAMP.STAMP w.val = 0 ∧
         m.flg TB_TW_CTRL.EN w.val = false)))

/-! ### Period groups (R38 to R49) -/

/-- Timing registers, APPLY_HOLD and enable of a period group (R41 to R43, R47): a timing write is taken while the group is disabled and
refused with CFG_ERR 3 while it is enabled; an enable is accepted where the checks of R42 pass and puts the group at its first fences.

Disabling a period group (R43): refused with CFG_ERR 4 while a member slice is enabled, else the group is off and runs no more, and no staging
set of a member stays frozen for an apply fence that will not come.

The model's own choices and readings here: log entries 111 and 115. -/
def Obligations.PeriodGroups : Prop :=
  (∀ (s : State) (r : Req) (g : Fin 16) (v : BitVec 32), s.m.held = [] → s.m.HouseSup r →
     (∀ reg : Fin 5, s.m.pgOn g.val = true → s.Completes (.groupTimingWrite r g reg v) fun m =>
       m.fld TB_PG_STAT.CFG_ERR g.val = 3 ∧ s.m.OnlyWords m ∧ s.m.WordsBut [TB_PG_STAT.CFG_ERR.addr g.val] m) ∧
     (∀ reg : Fin 5, s.m.pgOn g.val = false → s.Completes (.groupTimingWrite r g reg v) fun m =>
       m.fld TB_PG_STAT.CFG_ERR g.val = 0 ∧ (∀ f ∈ timingFields reg.val, m.fld f g.val = f.of v) ∧ s.m.OnlyWords m ∧
       s.m.WordsBut [Blk.base .pg g.val + 4 * reg.val, TB_PG_STAT.CFG_ERR.addr g.val, TB_STATUS.RSVW.addr 0] m) ∧
     (∀ hold : Bool, s.Completes (.applyHoldWrite r g hold) fun m =>
       m.flg TB_PG_CTRL.APPLY_HOLD g.val = hold ∧ m.pgOn g.val = s.m.pgOn g.val) ∧
     (s.m.pgOn g.val = false → s.Completes (.groupEnable r g v) fun m =>
       (s.m.groupErr g.val = 0 → m.pgOn g.val = true ∧ m.fld TB_PG_STAT.CFG_ERR g.val = 0 ∧
         m.fld TB_PG_COUNT.K g.val = 0 ∧ m.group g.val = s.m.groupStart g.val ∧ m.now = s.m.now) ∧
       (s.m.groupErr g.val ≠ 0 → m.pgOn g.val = false ∧ m.fld TB_PG_STAT.CFG_ERR g.val = s.m.groupErr g.val ∧
         m.groups = s.m.groups))) ∧
  (∀ (s : State) (r : Req) (g : Fin 16) (v : BitVec 32), s.m.held = [] → s.m.HouseSup r → s.m.pgOn g.val = true →
     s.Completes (.groupDisable r g v) fun m =>
       ((∃ x ∈ s.m.members g.val, s.m.en x = true) → m.pgOn g.val = true ∧ m.fld TB_PG_STAT.CFG_ERR g.val = 4 ∧
         m.slices = s.m.slices ∧ m.timers = s.m.timers ∧ m.ports = s.m.ports) ∧
       ((∀ x ∈ s.m.members g.val, s.m.en x = false) →
         m.pgOn g.val = false ∧ m.flg TB_PG_STAT.RUN g.val = false ∧ m.fld TB_PG_STAT.CFG_ERR g.val = 0 ∧
         ∀ x ∈ s.m.members g.val, (m.stage x).locked = false ∧ (m.stage x).held = false))

/-- The fences of an enabled group (R16, R18, R23, R38, R40, R44): each fence takes the group's next one of its kind, and time reaches its
instant; a sample fence starts the group and shows its period. On one tick the commit fence comes first, then the apply fence, then the sample
fence: one that is not yet its turn does nothing. A disabled group has none.

The wake of a slice and the end of its computation (R18, R19, R144): the wake takes the sample its fence left and has a computation in
flight for that period, or a late one where the period's commit fence has passed; its deposit completes no sooner than it began.

The model's own choices and readings here: log entries 4, 5, 20, 28 and 116. -/
def Obligations.FencesWakesAndDeposits : Prop :=
  (∀ (s : State) (g : Fin 16), s.m.held = [] →
     let d := s.m.group g.val
     (s.m.pgOn g.val = true →
       (s.m.commitFirst g.val (s.m.sampleStamp g.val d.kS) = false → s.m.applyFirst g.val (s.m.sampleStamp g.val d.kS) = false →
         s.Completes (.sampleFence g) fun m => (m.group g.val) = { d with kS := d.kS + 1 } ∧
           m.now = max s.m.now (s.m.sampleStamp g.val d.kS) ∧ m.flg TB_PG_STAT.RUN g.val = true ∧
           m.fld TB_PG_COUNT.K g.val = d.kS % 2 ^ 32) ∧
       ((s.m.commitFirst g.val (s.m.sampleStamp g.val d.kS) = true ∨ s.m.applyFirst g.val (s.m.sampleStamp g.val d.kS) = true) →
         s.Completes (.sampleFence g) fun m => m = s.m) ∧
       (∀ arb, s.Completes (.commitFence g arb) fun m => (m.group g.val) = { d with kC := d.kC + 1 } ∧
         m.now = max s.m.now (s.m.commitStamp g.val d.kC)) ∧
       (s.Completes (.stagingLock g) fun m => (m.group g.val) = { d with kL := d.kL + 1 } ∧
         m.now = max s.m.now (s.m.lockStamp g.val d.kL)) ∧
       (s.m.commitFirst g.val (s.m.applyStamp g.val d.kA) = false →
         s.Completes (.applyFence g) fun m => (m.group g.val) = { d with kA := d.kA + 1 } ∧
           m.now = max s.m.now (s.m.applyStamp g.val d.kA)) ∧
       (s.m.commitFirst g.val (s.m.applyStamp g.val d.kA) = true → s.Completes (.applyFence g) fun m => m = s.m)) ∧
     (s.m.pgOn g.val = false →
       (s.Completes (.sampleFence g) fun m => m = s.m) ∧ (∀ arb, s.Completes (.commitFence g arb) fun m => m = s.m) ∧
       (s.Completes (.stagingLock g) fun m => m = s.m) ∧ (s.Completes (.applyFence g) fun m => m = s.m))) ∧
  (∀ (s : State) (x : Fin 72) (t : Nat), s.m.held = [] →
     (∀ k st, (s.m.slice x.val).await = some (k, st) → s.Completes (.sliceWake x t) fun m =>
       (m.slice x.val).await = none ∧ m.now = max s.m.now t ∧
       ((s.m.group (s.m.pgOf x.val)).kC = k → ∃ fl, (m.slice x.val).flight = some fl ∧ fl.k = k ∧ fl.sample = st ∧ fl.wake = t ∧
         fl.done = none) ∧
       ((s.m.group (s.m.pgOf x.val)).kC ≠ k → (m.slice x.val).flight = (s.m.slice x.val).flight ∧
         ∃ fl, (m.slice x.val).late = some fl ∧ fl.k = k)) ∧
     ((s.m.slice x.val).await = none → s.Completes (.sliceWake x t) fun m => m = s.m) ∧
     (∀ fl, (s.m.slice x.val).late = none → (s.m.slice x.val).flight = some fl → fl.done = none →
       s.Completes (.deposit x t) fun m =>
         (m.slice x.val).flight = some { fl with done := some (max t fl.wake) } ∧ m.now = max s.m.now (max t fl.wake)) ∧
     (∀ fl, (s.m.slice x.val).late = some fl → s.Completes (.deposit x t) fun m =>
       (m.slice x.val).late = none ∧ (m.slice x.val).flight = (s.m.slice x.val).flight ∧ m.now = max s.m.now t))

/-! ### Staging sets (R25, R44 to R47, R528) -/

/-- MIRROR_WRITE: a write at a mirror goes, marked, into the open buffer of the set and nowhere else (R44), or waits behind the Tapster's
interlock (R25); a write of 8 bytes marks both words.

STAGE_CLOSE and the writes that waited at the interlock: a close moves the open buffer over the closed one and leaves the set pending with
its tag, or, between lock and apply, over the holding copy (R44, R46); once the interlock is free the waiting writes land (R25).

Lock and apply of a pending set (R23, R44, R47): the lock freezes it unless APPLY_HOLD reads 1; the apply of a frozen set ends it, and the
holding copy takes its place.

The model's own choices and readings here: log entries 5, 20, 83, 111 and 117. -/
def Obligations.StagingSets : Prop :=
  (∀ (s : State) (r : Req) (x : Fin 72) (off : Nat) (wide : Bool) (v : BitVec 64) (c : Card),
     s.m.held = [] → s.m.HouseSup r →
     let o := 0xC000 + off
     off + (if wide then 4 else 0) < 0x3F80 → off % (if wide then 8 else 4) = 0 →
     findCard (cardsOf .sl x.val) (liveOff o) = some c → c.staged = true → ¬ (64 ≤ x.val ∧ liveOff o = CV_FFB.MANT.off) →
     (s.m.mirrorWaits (s.m.who r) x.val = false → wide = false → s.Completes (.mirrorWrite r x off wide v) fun m =>
       SMap.get unmarked (m.stage x.val).openW o = some (v.setWidth 32 &&& c.rd) ∧
       (∀ p, p ≠ o → SMap.get unmarked (m.stage x.val).openW p = SMap.get unmarked (s.m.stage x.val).openW p) ∧
       m.flg AX_STAGE_STAT.OPEN_DIRTY x.val = true ∧ (m.stage x.val).closedW = (s.m.stage x.val).closedW ∧
       m.rg (Blk.base .sl x.val + liveOff o) = s.m.rg (Blk.base .sl x.val + liveOff o)) ∧
     (s.m.mirrorWaits (s.m.who r) x.val = false → wide = true →
       ∀ d, findCard (cardsOf .sl x.val) (liveOff (o + 4)) = some d → d.staged = true →
         ¬ (64 ≤ x.val ∧ liveOff (o + 4) = CV_FFB.MANT.off) →
         s.Completes (.mirrorWrite r x off wide v) fun m =>
           SMap.get unmarked (m.stage x.val).openW o = some (v.setWidth 32 &&& c.rd) ∧
           SMap.get unmarked (m.stage x.val).openW (o + 4) = some ((v >>> 32).setWidth 32 &&& d.rd)) ∧
     (s.m.mirrorWaits (s.m.who r) x.val = true → s.Completes (.mirrorWrite r x off wide v) fun m =>
       m.stage x.val = { s.m.stage x.val with
         waiting := (s.m.stage x.val).waiting ++ [{ req := r, off := o, wide := wide, val := v }] })) ∧
  (∀ (s : State) (r : Req) (x : Fin 72) (tag : BitVec 16), s.m.held = [] → s.m.HouseSup r →
     let d := s.m.stage x.val
     (s.m.mirrorWaits (s.m.who r) x.val = false → (d.closed && d.locked) = false → s.Completes (.stageClose r x tag) fun m =>
       m.stage x.val = { d with openW := [], closedW := overlay d.openW d.closedW, closed := true, closedTag := tag.toNat } ∧
       m.flg AX_STAGE_STAT.PENDING x.val = true ∧ m.flg AX_STAGE_STAT.OPEN_DIRTY x.val = false) ∧
     (s.m.mirrorWaits (s.m.who r) x.val = false → (d.closed && d.locked) = true → s.Completes (.stageClose r x tag) fun m =>
       m.stage x.val = { d with openW := [], holdW := overlay d.openW d.holdW, held := true, holdTag := tag.toNat }) ∧
     (d.tapLock = true → s.Completes (.interlockWriteLands x) fun m => m = s.m) ∧
     (d.tapLock = false → s.Completes (.interlockWriteLands x) fun m =>
       (m.stage x.val).waiting = [] ∧ (d.waiting = [] → s.m.behind = [] → m.stages = s.m.stages ∧ m.regs = s.m.regs) ∧
       (∀ p c, d.waiting = [p] → s.m.behind = [] → p.wide = false → 0xC000 ≤ p.off → p.off < 0xFF80 →
         findCard (cardsOf .sl x.val) (liveOff p.off) = some c → c.staged = true → ¬ (64 ≤ x.val ∧ liveOff p.off = CV_FFB.MANT.off) →
         SMap.get unmarked (m.stage x.val).openW p.off = some (p.val.setWidth 32 &&& c.rd)))) ∧
  (∀ (s : State) (g : Fin 16) (x : Nat), s.m.held = [] → s.m.pgOn g.val = true → x ∈ s.m.members g.val →
     let d := s.m.stage x
     (s.Completes (.stagingLock g) fun m =>
       (d.closed = true → s.m.flg TB_PG_CTRL.APPLY_HOLD g.val = false → m.stage x = { d with locked := true }) ∧
       ((d.closed = false ∨ s.m.flg TB_PG_CTRL.APPLY_HOLD g.val = true) → m.stage x = d)) ∧
     (d.closed = true → d.locked = true → s.m.commitFirst g.val (s.m.applyStamp g.val (s.m.group g.val).kA) = false →
       s.Completes (.applyFence g) fun m =>
         (m.stage x).locked = false ∧ (m.stage x).gen = d.gen + 1 ∧ (d.held = true → (m.stage x).closed = true) ∧
         m.fld AX_STAGE_STAT.APPLIED_TAG x = d.closedTag % 65536 ∧
         m.fld AX_STAGE_AFSTAMP.STAMP x = s.m.applyStamp g.val (s.m.group g.val).kA % 2 ^ 64 ∧
         (SMap.wf unmarked d.closedW = true → ∀ o w, 0xC04C ≤ o → o < 0xE000 → o % 4 = 0 → SMap.get unmarked d.closedW o = some w →
           m.rg (Blk.base .sl x + liveOff o) = w)))

/-! ### Slices (R16 to R21, R144, R148 to R150, R171 to R174) -/

/-- Enable of a slice (R148, R149): refused while it is enabled or runs, or with the code of the first check that fails; accepted, every state of
the slice starts at zero and its first wake comes at least 16 tk on.

Disable of a slice, and a change of its group (R149, R150, R528): a slice of a running group ends at its group's next fence, one of a stopped group
at once; a converter channel with an enabled grid companion refuses with CFG_ERR 7; a slice that is not live changes its group and its set leaves the old
group's lock, an enabled one refuses with CFG_ERR 4.

The model's own choices and readings here: log entries 39 and 111. -/
def Obligations.SlicesEnableAndDisable : Prop :=
  (∀ (s : State) (r : Req) (x : Fin 72) (v : BitVec 32), s.m.held = [] → s.m.HouseSup r →
     (s.m.liveSlice x.val = true → s.Completes (.sliceEnable r x v) fun m =>
       m.fld AX_STATE.CFG_ERR x.val = 4 ∧ s.m.OnlyWords m ∧ s.m.WordsBut [AX_STATE.CFG_ERR.addr x.val] m) ∧
     (s.m.liveSlice x.val = false →
       s.Completes (.sliceEnable r x v) fun m =>
         ((∃ i ∈ slotsOf x.val, s.m.flg CB_STAT.READY (i / 16) = false) → m.fld AX_STATE.CFG_ERR x.val = 1 ∧ m.en x.val = false) ∧
         ((∀ i ∈ slotsOf x.val, s.m.flg CB_STAT.READY (i / 16) = true) → s.m.pdOn (13 + quadOf x.val) = false →
           m.fld AX_STATE.CFG_ERR x.val = 2 ∧ m.en x.val = false) ∧
         ((∀ i ∈ slotsOf x.val, s.m.flg CB_STAT.READY (i / 16) = true) → s.m.pdOn (13 + quadOf x.val) = true → 64 ≤ x.val →
           m.en x.val = true ∧ m.fld AX_STATE.CFG_ERR x.val = 0 ∧ (m.slice x.val).dyn = { bank := AX_CTRL.BSEL.of v ≠ 0 } ∧
           (m.slice x.val).from_ = (s.m.now + 63) / 64 + 16) ∧
         (s.m.pgOf x.val = AX_CTRL.PG.of v →
           let asked := (sliceCtrlRest x.val).foldl (fun m f => m.setFld f x.val (f.of v)) s.m
           (asked.sliceErr x.val ≠ 0 → m.en x.val = false ∧ m.fld AX_STATE.CFG_ERR x.val = asked.sliceErr x.val) ∧
           (asked.sliceErr x.val = 0 →
             m.en x.val = true ∧ m.fld AX_STATE.CFG_ERR x.val = 0 ∧ (m.slice x.val).dyn = { bank := AX_CTRL.BSEL.of v ≠ 0 } ∧
             (m.slice x.val).from_ = (s.m.now + 63) / 64 + 16)))) ∧
  (∀ (s : State) (r : Req) (x : Fin 72) (v : BitVec 32) (pg : Fin 16), s.m.held = [] → s.m.HouseSup r →
     (s.m.en x.val = true → (x.val < 64 ∨ s.m.companion x.val = none) → s.m.flg TB_PG_STAT.RUN (s.m.pgOf x.val) = true →
       s.Completes (.sliceDisable r x v) fun m =>
         m.en x.val = false ∧ m.slice x.val = { s.m.slice x.val with ending := true } ∧
         m.flg AX_STATE.RUN x.val = s.m.flg AX_STATE.RUN x.val) ∧
     (s.m.en x.val = true → (x.val < 64 ∨ s.m.companion x.val = none) → s.m.flg TB_PG_STAT.RUN (s.m.pgOf x.val) = false →
       s.Completes (.sliceDisable r x v) fun m =>
         m.en x.val = false ∧ m.flg AX_STATE.RUN x.val = false ∧
         (m.slice x.val).flight = none ∧ (m.slice x.val).await = none ∧ (m.slice x.val).ending = false) ∧
     (s.m.liveSlice x.val = true → 64 ≤ x.val → (s.m.companion x.val).isSome = true → s.Completes (.sliceDisable r x v) fun m =>
       m.fld AX_STATE.CFG_ERR x.val = 7 ∧ m.en x.val = s.m.en x.val ∧ m.slices = s.m.slices) ∧
     (s.m.liveSlice x.val = false → s.Completes (.sliceGroupChange r x pg) fun m =>
       m.pgOf x.val = pg.val ∧ m.fld AX_STATE.CFG_ERR x.val = 0 ∧ m.en x.val = false ∧
       (s.m.pgOf x.val ≠ pg.val → (m.stage x.val).locked = false ∧ (m.stage x.val).held = false)) ∧
     (s.m.en x.val = false → s.m.liveSlice x.val = true → (x.val < 64 ∨ s.m.companion x.val = none) →
       s.Completes (.sliceGroupChange r x pg) fun m =>
         m.pgOf x.val = s.m.pgOf x.val ∧ m.fld AX_STATE.CFG_ERR x.val = (if s.m.pgOf x.val = pg.val then 0 else 4) ∧
         m.slices = s.m.slices ∧ m.stages = s.m.stages) ∧
     (s.m.en x.val = true → s.Completes (.sliceGroupChange r x pg) fun m =>
       m.pgOf x.val = s.m.pgOf x.val ∧ m.fld AX_STATE.CFG_ERR x.val = 4 ∧ m.slices = s.m.slices ∧ m.stages = s.m.stages))

/-- The trace of a slice (R171 to R174, R432): the selection and its generation, restart, software trigger, and the streaming of the oldest
record into DRAM, which writes that record's bytes and no others.

Limiter commands and the broker (R168, R170, R190 to R192): a stop leaves a trigger with an axis that is enabled or runs, a release one with
an axis at rest after a stop; a broker run writes its channel's lane.

The model's own choices and readings here: log entries 4, 5, 32, 40, 111, 120 and 128. -/
def Obligations.TraceLimiterAndBroker : Prop :=
  (∀ (s : State) (r : Req) (x : Fin 72) (v : BitVec 32), s.m.held = [] → s.m.HouseSup r →
     let tr := (s.m.slice x.val).trace
     (s.Completes (.traceSelectWrite r x v) fun m =>
       m.rg (AX_TRC_SEL.N0.addr x.val) = v ∧
       m.fld AX_TRC_STAT.SELGEN x.val = (s.m.fld AX_TRC_STAT.SELGEN x.val + 1) % 256 ∧ s.m.OnlyWords m ∧
       s.m.WordsBut [AX_TRC_SEL.N0.addr x.val, AX_TRC_STAT.SELGEN.addr x.val, AX_STATE.RSVW.addr x.val] m) ∧
     (∀ base : Bool, (base = true ∨ AX_TRC_CTRL.SWTRIG.of v = 0) → s.Completes (.traceRestart r x base v) fun m =>
       (m.slice x.val).trace = { tr with ring := [], dec := 0, left := none, lost := false, swtrig := false, trig := false } ∧
       m.fld AX_TRC_WPTR.WPTR x.val = 0 ∧ m.flg AX_TRC_STAT.DONE x.val = false ∧ m.flg AX_TRC_STAT.TRIGD x.val = false) ∧
     (s.Completes (.traceSoftwareTrigger r x) fun m =>
       m.slice x.val = (if s.m.fld AX_TRC_CTRL.MODE x.val = 2 ∧ tr.left = none
         then { s.m.slice x.val with trace := { tr with swtrig := true } } else s.m.slice x.val)) ∧
     (∀ e rest, tr.ring = e :: rest →
       (s.m.trcMode x.val = 1 ∨ (s.m.trcMode x.val = 2 ∧ tr.left = some 0 ∧ s.m.flg AX_TRC_STAT.DONE x.val = false)) →
       s.Completes (.traceStreamWrite x) fun m =>
         (m.slice x.val).trace = { tr with ring := rest, lost := false } ∧
         m.mem = (s.m.poke (s.m.trcAddr x.val) (if tr.lost then e.set 7 (e.getD 7 0 ||| 16) else e)).mem) ∧
     (tr.ring = [] → s.Completes (.traceStreamWrite x) fun m => m = s.m)) ∧
  (∀ (s : State) (r : Req) (x : Fin 64), s.m.held = [] → s.m.HouseSup r →
     let ph := s.m.fld AX_LIM_STAT.PHASE x.val
     (s.Completes (.limiterStop r x) fun m =>
       m.slice x.val = (if s.m.liveSlice x.val = true ∧ ¬ (s.m.servo x.val = true ∧ (ph = 3 ∨ ph = 4))
         then { s.m.slice x.val with stopTrig := true } else s.m.slice x.val) ∧ m.regs = s.m.regs) ∧
     (s.Completes (.limiterRelease r x) fun m =>
       m.slice x.val = (if ph = 4 ∧ s.m.flg AX_STATE.RUN x.val = true
         then { s.m.slice x.val with relTrig := true } else s.m.slice x.val) ∧ m.regs = s.m.regs) ∧
     (∀ c : Fin 8, s.m.member (64 + c.val) = true → s.m.pgOn (s.m.pgOf (64 + c.val)) = true → s.m.coupling = true →
       s.Completes (.brokerRun c) fun m =>
         let g := s.m.pgOf (64 + c.val)
         (m.slice (64 + c.val)).lane.isSome = true ∧
         m.now = max s.m.now (s.m.lockStamp g (s.m.group g).kL - 250 * 64)) ∧
     (∀ c : Fin 8, (s.m.member (64 + c.val) = false ∨ s.m.pgOn (s.m.pgOf (64 + c.val)) = false ∨ s.m.coupling = false) →
       s.Completes (.brokerRun c) fun m => m = s.m))

/-! ### Self-commissioning (R194 to R215) -/

/-- Starting a sequence (R197 to R200, R210, R212): a writer R212 admits gets it started, or refused with the cause R199 gives; the sequence
that starts and its first part stand in the axis. Any other House writer is refused with cause 1.

The model's own choices and readings here: log entries 34 and 121. -/
def Obligations.CommissioningStarts : Prop :=
  ∀ (s : State) (r : Req) (x : Fin 64) (gset : Fin 8) (seed : BitVec 2), s.m.held = [] → s.m.HouseSup r →
    ∀ e ∈ cmStart x gset seed r,
      let m1 := s.m.setFld AX_CM_STAT.SEQ x.val e.2.1
      ((s.m.who r).cmWriter = true → s.Completes e.1 fun m =>
        m.fld AX_CM_STAT.SEQ x.val = e.2.1 ∧
        (m1.cmRefusal x.val e.2.1 e.2.2 = 0 → m.fld AX_CM_STAT.ST x.val = 1 ∧ m.fld AX_CM_STAT.CAUSE x.val = 0 ∧ (m.comm x.val).seq = e.2.1 ∧
          (m.comm x.val).part = (if e.2.1 = 4 then 1 else e.2.1)) ∧
        (m1.cmRefusal x.val e.2.1 e.2.2 ≠ 0 → m.fld AX_CM_STAT.ST x.val = 6 ∧
          m.fld AX_CM_STAT.CAUSE x.val = m1.cmRefusal x.val e.2.1 e.2.2 ∧ m.comm x.val = s.m.comm x.val)) ∧
      ((s.m.who r).cmWriter = false → s.Completes e.1 fun m =>
        m.fld AX_CM_STAT.ST x.val = 6 ∧ m.fld AX_CM_STAT.CAUSE x.val = 1 ∧ m.flg AX_CM_STAT.POL_DENY x.val = true ∧
        m.slices = s.m.slices)

/-- Abort and end of a sequence (R197, R200, R203 to R205): an abort is kept for the next commit fence, or ends the sequence at once where none
comes; MASS and RESP end once their record is full; PROPOSE ends with a proposal or without a margin, and an approved proposal is applied.

Adaptation (R207 to R209): a move's estimate is judged once and either marks too small a move or is shown in AX_CM_MI_EST; a notch interval
ends with empty sums, and without a bin that dominates the notch frequency stays.

The model's own choices and readings here: log entries 2, 4, 5, 34, 37, 130 and 131. -/
def Obligations.CommissioningEndsAndAdapts : Prop :=
  (∀ (s : State) (r : Req) (x : Fin 64), s.m.held = [] →
     let c := s.m.comm x.val
     ((s.m.who r).cmWriter = true → s.m.reqWaits r = false → s.Completes (.cmCtrlAbort r x) fun m =>
       (c.part = 0 → m.slices = s.m.slices ∧ m.regs = s.m.regs) ∧
       (c.part ≠ 0 → (s.m.liveSlice x.val && s.m.pgOn (s.m.pgOf x.val)) = true → m.comm x.val = { c with abort := 12 } ∧
         m.regs = s.m.regs) ∧
       (c.part ≠ 0 → (s.m.liveSlice x.val && s.m.pgOn (s.m.pgOf x.val)) = false → (m.comm x.val).part = 0 ∧
         m.fld AX_CM_STAT.ST x.val = 5 ∧ m.fld AX_CM_STAT.CAUSE x.val = 12)) ∧
     (s.Completes (.cmSequenceEnd x) fun m =>
       ((c.part = 0 ∨ ((c.part = 1 ∨ c.part = 2) ∧ c.k < 64 + c.len)) → m.slices = s.m.slices ∧ m.regs = s.m.regs) ∧
       (c.part = 1 → 64 + c.len ≤ c.k → massSolve c.sums (fun k => Config.free (s.m.fresh + k)) = none →
         (m.comm x.val).part = 0 ∧ m.fld AX_CM_STAT.ST x.val = 5 ∧ m.fld AX_CM_STAT.CAUSE x.val = 11) ∧
       (c.part = 1 → 64 + c.len ≤ c.k → massSolve c.sums (fun k => Config.free (s.m.fresh + k)) ≠ none →
         (c.seq = 4 → (m.comm x.val).part = 2) ∧
         (c.seq ≠ 4 → (m.comm x.val).part = 0 ∧ m.fld AX_CM_STAT.ST x.val = 2 ∧ m.fld AX_CM_STAT.CAUSE x.val = 0 ∧
           m.flg AX_CM_STAT.MASS_OK x.val = true)) ∧
       (c.part = 2 → 64 + c.len ≤ c.k →
         (c.seq = 4 → (m.comm x.val).part = 3) ∧
         (c.seq ≠ 4 → (m.comm x.val).part = 0 ∧ m.fld AX_CM_STAT.ST x.val = 2 ∧ m.fld AX_CM_STAT.CAUSE x.val = 0)) ∧
       (c.part = 3 →
         (m.fld AX_CM_STAT.ST x.val = 5 ∧ m.fld AX_CM_STAT.CAUSE x.val = 10 ∧ (m.comm x).part = 0) ∨
         (m.fld AX_CM_STAT.ST x.val = 3 ∧ m.fld AX_CM_STAT.CAUSE x.val = 0 ∧ m.flg AX_CM_STAT.PROP_OK x.val = true ∧
           ((m.comm x).part = 0 ∨ (s.m.fld AX_CM_POL.APPROVE x.val = 2 ∧ (m.comm x).part = 5)))))) ∧
  (∀ (s : State) (x : Fin 64), s.m.held = [] →
     let c := s.m.comm x.val
     let small := (pairDy c.estA).lt (s.m.co AX_CM_MI_SAMIN.MANT x.val).dy
     (c.mvReady = false → s.Completes (.moveInertiaEstimate x) fun m => m = s.m) ∧
     (c.mvReady = true → s.Completes (.moveInertiaEstimate x) fun m =>
       (m.comm x.val).mvReady = false ∧
       (small = true → m.flg AX_GS_STAT.INVALID x.val = true ∧
         m.rg (AX_CM_MI_EST.MANT.addr x.val) = s.m.rg (AX_CM_MI_EST.MANT.addr x.val)) ∧
       (small = false → m.rg (AX_CM_MI_EST.MANT.addr x.val) = wordOfNum (m.comm x.val).je)) ∧
     (s.m.flg AX_CM_ADAPT.NT_EN x.val = false → s.Completes (.notchIntervalEnd x) fun m => m = s.m) ∧
     (s.m.flg AX_CM_ADAPT.NT_EN x.val = true → s.Completes (.notchIntervalEnd x) fun m =>
       (m.comm x.val).ntK = 0 ∧ (m.comm x.val).ntRe = [] ∧ (m.comm x.val).ntIm = [] ∧
       m.now = max s.m.now (c.ntFrom + s.m.ntInt x.val * 16000000) ∧ (m.comm x.val).ntFrom = m.now ∧
       (c.ntRe = [] → c.ntIm = [] → m.fld AX_CM_NT_F.V x.val = s.m.fld AX_CM_NT_F.V x.val)))

/-! ### Gate timers and safe torque off (R216 to R242, R294 to R298) -/

/-- AX_GT_CMD (R229, R232): SHUT brings the shutter in with cause 0 and keeps the stamp of the first cause; RELEASE is refused under a level
cause, and else clears the causes and waits for the first new duties, or ends the shutter at once where none can come.

The model's own choices and readings here: log entry 111. -/
def Obligations.ShutterCommands : Prop :=
  ∀ (s : State) (r : Req) (x : Fin 72), s.m.held = [] → s.m.HouseSup r →
    (s.Completes (.gtCmdShut r x) fun m =>
      m.flg AX_GT_STAT.SHUT x.val = true ∧ bitOf (m.fld AX_GT_CAUSE.CAUSE x.val) 0 = true ∧ m.flg AX_GT_STAT.RELPEND x.val = false ∧
      m.fld AX_GT_SHSTAMP.STAMP x.val =
        (if s.m.flg AX_GT_STAT.SHUT x.val then s.m.fld AX_GT_SHSTAMP.STAMP x.val else s.m.now % 2 ^ 64) ∧
      s.m.MemSame m ∧ s.m.SysSame m ∧
      (∀ y, (m.slice y) = { s.m.slice y with comm := { (s.m.slice y).comm with abort := (m.slice y).comm.abort } }) ∧
      ((s.m.slice x.val).comm.part ≠ 1 → (s.m.slice x.val).comm.part ≠ 2 → m.slices = s.m.slices) ∧
      s.m.WordsBut [AX_GT_CAUSE.CAUSE.addr x.val, AX_GT_STAT.SHUT.addr x.val, AX_GT_SHSTAMP.STAMP.addr x.val,
        AX_GT_SHSTAMP.STAMP.addr x.val + 4] m) ∧
    (s.m.releaseBlocked x.val = true → s.Completes (.gtCmdRelease r x) fun m =>
      m.flg AX_GT_STAT.REL_REFUSED x.val = true ∧ m.flg AX_GT_STAT.SHUT x.val = s.m.flg AX_GT_STAT.SHUT x.val ∧
      m.fld AX_GT_CAUSE.CAUSE x.val = s.m.fld AX_GT_CAUSE.CAUSE x.val ∧ m.timers = s.m.timers) ∧
    (s.m.releaseBlocked x.val = false → s.Completes (.gtCmdRelease r x) fun m =>
      m.fld AX_GT_CAUSE.CAUSE x.val = 0 ∧
      (s.m.flg AX_GT_STAT.SHUT x.val = true →
        (s.m.liveSlice x.val && s.m.flg TB_PG_STAT.RUN (s.m.pgOf x.val)) = true →
          m.flg AX_GT_STAT.SHUT x.val = true ∧ m.flg AX_GT_STAT.RELPEND x.val = true) ∧
      ((s.m.liveSlice x.val && s.m.flg TB_PG_STAT.RUN (s.m.pgOf x.val)) = false →
        m.flg AX_GT_STAT.SHUT x.val = false))

/-- Carrier events and gate edges (R219 to R224, R226): at its carrier event a leg starts the next carrier period and takes the compare value
that waited for it; a gate under pulse-width modulation turns on, dead time after its complement's turn-off, where its pulse is long enough, and
off; a gate whose complement is on does not turn on.

Gate fault inputs (R230, R237): an edge on an enabled input that is not asserted yet is recorded with its stamp, and sets FLT and the sticky
flag once the level has been stable for FILT × 4 ns;
a release of the input clears FLT and keeps the sticky flag.

The model's own choices and readings here: log entries 3, 4, 5, 41 and 124. -/
def Obligations.GateEdgesAndFaults : Prop :=
  (∀ (s : State) (x : Fin 72) (l : Fin 4) (g : Fin 8), s.m.held = [] →
     let lg := (s.m.timer x.val).leg l.val
     (s.m.carrierRuns x.val = true → s.m.interleaved x.val = true ∨ l.val = 0 → l.val < s.m.usedLegs x.val →
       s.Completes (.carrierEvent x l) fun m =>
         let k : Int := if lg.started then lg.m + 1 else s.m.carrierIdx x.val l.val s.m.now +
           (if s.m.carrierAt x.val l.val (s.m.carrierIdx x.val l.val s.m.now) = s.m.now then 0 else 1)
         ((m.timer x.val).leg l.val).m = k ∧ ((m.timer x.val).leg l.val).started = true ∧
         m.now = max s.m.now (s.m.carrierAt x.val l.val k).toNat ∧
         (lg.pend = true → ((m.timer x.val).leg l.val).pend = false ∧ ((m.timer x.val).leg l.val).live = true)) ∧
     (s.m.carrierRuns x.val = false → s.Completes (.carrierEvent x l) fun m => m = s.m) ∧
     (g.val / 2 < legsOf x.val → s.m.rank x.val (g.val / 2) = 7 → ((s.m.timer x.val).leg (g.val / 2)).started = true →
       let tm := s.m.timer x.val
       let tl := tm.leg (g.val / 2)
       let c := s.m.carrierAt x.val (g.val / 2) tl.m
       let p := switchAt (s.m.flg AX_GT_CTRL.CMODE x.val) tl.d (s.m.tc x.val)
       let dt := s.m.legDT x.val (g.val / 2)
       let mp := s.m.legMINP x.val (g.val / 2)
       ((tm.gate g.val).on = true → (g.val % 2 = 0 ∨ ((tm.gate g.val).at_ : Int) < c + p.1 + 64) → s.Completes (.gateEdge x g false) fun m =>
         ((m.timer x.val).gate g.val).on = false) ∧
       ((tm.gate g.val).on = true → g.val % 2 = 1 → c + p.1 + 64 ≤ ((tm.gate g.val).at_ : Int) → s.Completes (.gateEdge x g false) fun m =>
         m = s.m) ∧
       ((tm.gate g.val).on = false → (tm.gate (if g.val % 2 = 0 then g.val + 1 else g.val - 1)).on = true →
         s.Completes (.gateEdge x g true) fun m => m = s.m) ∧
       ((tm.gate g.val).on = false → g.val % 2 = 0 → (tm.gate (g.val + 1)).on = false →
         let t : Int := max (c + p.1 + dt) ((tm.gate (g.val + 1)).offAt + dt)
         let w : Int := c + p.2 - t
         s.Completes (.gateEdge x g true) fun m =>
           ((m.timer x.val).gate g.val).on = decide (0 < w ∧ (mp : Int) ≤ w) ∧
           (0 < w → w < mp → m.flg AX_GT_STAT.MINP_HIT x.val = true)) ∧
       ((tm.gate g.val).on = false → g.val % 2 = 1 → (tm.gate (g.val - 1)).on = false → tl.lowDue = none → tl.pend = false →
         let t : Int := max (c + p.2 + dt) ((tm.gate (g.val - 1)).offAt + dt)
         let w : Int := c + s.m.tc x.val + p.1 - t
         s.Completes (.gateEdge x g true) fun m =>
           ((m.timer x.val).gate g.val).on = decide (0 < w ∧ (mp : Int) ≤ w) ∧
           (0 < w → w < mp → m.flg AX_GT_STAT.MINP_HIT x.val = true)))) ∧
  (∀ (s : State) (x : Fin 72) (i : Fin 2) (e : Edge), s.m.held = [] →
     (s.m.pdOn (13 + quadOf x.val) = true → s.m.flg (AX_GT_FLT.EN.sh (4 * i.val)) x.val = true →
       bitOf (s.m.fld AX_GT_STAT.FLT x.val) i.val = false → s.Completes (.gateFaultAssert x i e) fun m =>
         bitOf (m.fld AX_GT_STAT.FLT x.val) i.val = true ∧ bitOf (m.fld AX_GT_STAT.FLT_SEEN x.val) i.val = true ∧
         m.now = max s.m.now ((s.m.stampEdge e).1 + s.m.fld (AX_GT_FLT.FILT.sh (4 * i.val)) x.val * 64) ∧
         m.fld AX_GT_FSTAMP.STAMP x.val = (s.m.stampEdge e).1 % 2 ^ 64 ∧
         (2 ≤ s.m.fld (AX_GT_FLT.ACT.sh (4 * i.val)) x.val → m.flg AX_GT_STAT.SHUT x.val = true)) ∧
     (bitOf (s.m.fld AX_GT_STAT.FLT x.val) i.val = true → s.Completes (.gateFaultDeassert x i) fun m =>
       bitOf (m.fld AX_GT_STAT.FLT x.val) i.val = false ∧
       m.fld AX_GT_STAT.FLT_SEEN x.val = s.m.fld AX_GT_STAT.FLT_SEEN x.val ∧ s.m.WordsBut [AX_GT_STAT.FLT.addr x.val] m) ∧
     (bitOf (s.m.fld AX_GT_STAT.FLT x.val) i.val = false → s.Completes (.gateFaultDeassert x i) fun m => m = s.m))

/-- Safe torque off (R234, R294 to R298): a channel that goes low brings its input into the safe state; the input leaves it only at the instant
the return rule gives; channels that differ too long are a discrepancy; a disagreement of the safe-status outputs is kept.

The model's own choices and readings here: log entries 3, 4, 5, 54 and 55. -/
def Obligations.SafeTorqueOff : Prop :=
  ∀ (s : State) (i : Fin 8) (ch low : Bool) (e : Edge),
    (s.Completes (.stoSafeStateEntry i ch low e) fun m =>
      (if ch then (m.sto i.val).hi1 else (m.sto i.val).hi0) = !low ∧
      (if ch then (m.sto i.val).hi0 else (m.sto i.val).hi1) = (if ch then (s.m.sto i.val).hi0 else (s.m.sto i.val).hi1) ∧
      m.now = max s.m.now (s.m.stampEdge e).1 ∧
      (low = true → m.stoSafe i.val = true)) ∧
    (s.m.held = [] → ∀ t, s.m.stoDue i.val = some t → s.Completes (.stoReturn i) fun m =>
      m.stoSafe i.val = false ∧ m.now = max s.m.now t ∧
      ∀ x ∈ s.m.stoTimers i.val, m.flg AX_GT_STAT.STO x = false ∧ m.flg AX_GT_STAT.SHUT x = true) ∧
    (s.m.held = [] → s.m.stoDue i.val = none → s.Completes (.stoReturn i) fun m => m = s.m) ∧
    (s.m.held = [] → ∀ t, (s.m.sto i.val).differ = some t → s.m.stoHeld i.val = false → s.Completes (.stoDiscrepancy i) fun m =>
      m.stoHeld i.val = true ∧ m.now = max s.m.now (t + s.m.stoDisc) ∧ m.stos = s.m.stos) ∧
    (s.m.held = [] → s.Completes .safeOutputDisagree fun m =>
      m.flg OP_STO_STAT.SPATH 0 = true ∧ m.stoConf = false ∧ s.m.OnlyWords m)

/-! ### Converter banks (R57 to R85) -/

/-- Conversions (R60, R61, R63 to R65): a cell that serves a slot holds at the slot's next instant, 50 ns before its next hold; its completion
corrects the code with the cell's coefficients, delivers it, and frees the cell; the spare holds on its own grid.

The model's own choices and readings here: log entries 3, 4, 5, 9 and 118. -/
def Obligations.ConversionsOfABank : Prop :=
  ∀ (s : State) (b : Fin 16) (c : Fin 14), s.m.held = [] → s.m.flg CB_STAT.READY b.val = true →
    let i := 16 * b.val + c.val
    let sl := s.m.fld CB_CELL_ROLE.SLOT i
    let n := s.m.slotNext (16 * b.val + sl)
    (s.m.fld CB_CELL_ROLE.ROLE i = 0 → (s.m.cell i).hold = none → s.m.handoverDue b.val sl n.2.2.1 n.1 n.2.2.2 = false →
      s.Completes (.conversionHold b c) fun m =>
        (m.cell i).next = n.1 + 800 ∧ (∃ h, (m.cell i).hold = some h ∧ h.stamp = n.1 ∧ h.slot = some sl) ∧
        m.now = max s.m.now n.1) ∧
    (s.m.fld CB_CELL_ROLE.ROLE i = 1 → (s.m.cell i).hold = none → s.m.fld CB_CAL_STAT.PHASE b.val = 0 →
      s.Completes (.conversionHold b c) fun m =>
        let t := injStretch (s.m.bank b.val).reqs (s.m.cell i).next
        m.cell i = { next := t + 800, hold := some { stamp := t } } ∧ m.now = max s.m.now t) ∧
    (∀ h, (s.m.cell i).hold = some h → s.Completes (.conversionHold b c) fun m => m = s.m) ∧
    (∀ (code : BitVec 12) (h : Hold) (j : Nat), (s.m.cell i).hold = some h → h.slot = some j → j < 13 →
      (s.m.bank b.val).reqs.any (fun q => q.held = some (h.stamp, c.val)) = false →
      s.Completes (.conversionComplete b c code) fun m =>
        let raw := corrected code.toInt (s.m.cellOfs i) (s.m.cellGain i)
        let k := 16 * b.val + j
        (m.cell i).hold = none ∧ m.fld CB_SLOT_LIVE.CODE k = unsigned 16 (clip16 raw) ∧
        (h.first = true → m.fld CB_SLOT_RES.RAW k = unsigned 16 (clip16 raw)) ∧
        (h.first = false → m.fld CB_SLOT_RES.RAW k = s.m.fld CB_SLOT_RES.RAW k ∧
          m.fld CB_SLOT_RES.FLT k = s.m.fld CB_SLOT_RES.FLT k) ∧
        (h.first = true → (s.m.slot k).order = 0 → m.fld CB_SLOT_RES.FLT k = unsigned 16 (clip16 raw)) ∧
        (h.first = true → (s.m.slot k).order ≠ 0 → (s.m.slot k).absorbed ≠ 0 →
          m.fld CB_SLOT_RES.FLT k = unsigned 16 (cascadeOut (s.m.slot k).stages)) ∧
        (overRange code.toInt raw = true → m.flg CB_SLOT_STAT.OVR k = true) ∧
        (m.slot k).absorbed = (s.m.slot k).absorbed + 1 ∧ s.m.MemSame m ∧ s.m.SysSame m)

/-- Filter settings and injected conversions (R68, R70 to R73): a write of CB_SLOT_FCFG sets the filter and restarts it; a request is queued, or
ends at once with the status of its refusal; the conversion held first gives the result.

The model's own choices and readings here: log entries 2, 3, 4, 6 and 118. -/
def Obligations.FiltersAndInjections : Prop :=
  ∀ (s : State) (r : Req) (b : Fin 16) (j : Fin 13) (v : BitVec 32), s.m.held = [] → s.m.HouseSup r →
    let k := 16 * b.val + j.val
    (s.Completes (.slotFcfgWrite r b j v) fun m =>
      m.fld CB_SLOT_FCFG.MODE k = CB_SLOT_FCFG.MODE.of v ∧ m.fld CB_SLOT_FCFG.ORDER k = CB_SLOT_FCFG.ORDER.of v ∧
      m.fld CB_SLOT_FCFG.WLEN k = CB_SLOT_FCFG.WLEN.of v ∧
      (s.m.flg CB_SLOT_STAT.LOCKED k = true → m.slot k = { s.m.slot k with restart := 1 }) ∧
      (s.m.flg CB_SLOT_STAT.LOCKED k = false → (m.slot k).stages = [] ∧ (m.slot k).absorbed = 0 ∧
        (m.slot k).order = CB_SLOT_FCFG.ORDER.of v ∧ m.flg CB_SLOT_STAT.SETTLED k = false)) ∧
    (let src := CB_INJ_REQ.SRC.of v
     let ok : Bool := !(7 < src || (src = 4 && CB_INJ_REQ.CMP.of v / 16 ≠ b.val))
     s.Completes (.injReq r b v) fun m =>
      (s.m.spareReady b.val = false → m.fld CB_INJ_RES.ST b.val = 3 ∧ m.banks = s.m.banks) ∧
      (s.m.spareReady b.val = true → ok = false → m.fld CB_INJ_RES.ST b.val = 1 ∧ m.banks = s.m.banks) ∧
      (s.m.spareReady b.val = true → ok = true → 4 ≤ (s.m.bank b.val).reqs.length →
        m.fld CB_INJ_RES.ST b.val = 2 ∧ m.banks = s.m.banks) ∧
      (s.m.spareReady b.val = true → ok = true → (s.m.bank b.val).reqs.length < 4 → CB_INJ_REQ.TIMED.of v = 0 →
        (m.bank b.val).reqs = (s.m.bank b.val).reqs ++
          [{ src := src, cmp := CB_INJ_REQ.CMP.of v, tag := CB_INJ_REQ.TAG.of v, arrive := s.m.now }] ∧
        m.fld CB_INJ_STAT.PEND b.val = (s.m.bank b.val).reqs.length + 1)) ∧
    (∀ (t : Nat) (code : BitVec 12) (q : Inj) (rest : List Inj) (st c : Nat), (s.m.bank b.val).reqs = q :: rest →
      q.held = some (st, c) → q.check = false → q.use = 0 → s.Completes (.injectedConversionDone b t code) fun m =>
        (m.bank b.val).reqs = rest ∧ m.flg CB_INJ_RES.VALID b.val = true ∧ m.fld CB_INJ_RES.ST b.val = 0 ∧
        m.fld CB_INJ_RES.CODE b.val = unsigned 16 (clip16 (corrected code.toInt q.ofs q.gain)) ∧
        m.now = max s.m.now (max t st))

/-- Enable, readiness and disable of a bank (R75, R84): an enable is taken where the bank's domain is on, else refused with CFG_ERR 2; a disable is
refused with CFG_ERR 1 while a slice that owns a slot is live; once every cell is calibrated the bank is ready with at least 13 good cells,
else CFG_ERR reads 3.

Calibration and the rotating spare (R74, R76 to R83): the commands of CB_CAL_CMD, the pause between steps, the verdict on an overlap, and
the coefficients a calibration sets.

The model's own choices and readings here: log entries 3, 4, 8, 9, 11 and 118. -/
def Obligations.BanksAndCalibration : Prop :=
  (∀ (s : State) (r : Req) (b : Fin 16) (v : BitVec 32) (phase : BitVec 140), s.m.held = [] → s.m.HouseSup r →
     (s.m.flg CB_CTRL.EN b.val = false → s.Completes (.bankEnable r b v) fun m =>
       (s.m.pdOn (18 + b.val) = true → m.flg CB_CTRL.EN b.val = true ∧ m.fld CB_STAT.CFG_ERR b.val = 0 ∧ m.bank b.val = {}) ∧
       (s.m.pdOn (18 + b.val) = false → m.flg CB_CTRL.EN b.val = false ∧ m.fld CB_STAT.CFG_ERR b.val = 2)) ∧
     (s.m.flg CB_CTRL.EN b.val = true → s.Completes (.bankDisable r b v) fun m =>
       ((∃ j ∈ bankSlots b.val, s.m.liveSlice (slotOwner j) = true) →
         m.flg CB_CTRL.EN b.val = true ∧ m.fld CB_STAT.CFG_ERR b.val = 1) ∧
       ((∀ j ∈ bankSlots b.val, s.m.liveSlice (slotOwner j) = false) →
         m.flg CB_CTRL.EN b.val = false ∧ m.flg CB_STAT.READY b.val = false ∧ m.bank b.val = {})) ∧
     (s.m.flg CB_STAT.READY b.val = false → s.m.flg CB_CTRL.EN b.val = true → 14 ≤ (s.m.bank b.val).done.length →
       s.Completes (.bankReady b phase) fun m =>
         let good := (List.range 14).filter (fun c => !bitOf (s.m.fld CB_CAL_STAT.BAD b.val) c)
         (good.length < 13 → m.flg CB_STAT.READY b.val = false ∧ m.fld CB_STAT.CFG_ERR b.val = 3) ∧
         (13 ≤ good.length → m.flg CB_STAT.READY b.val = true))) ∧
  (∀ (s : State) (r : Req) (b : Fin 16), s.m.held = [] → s.m.HouseSup r →
     let d := s.m.bank b.val
     (s.Completes (.calCmdStop r b) fun m => m.flg CB_CAL_CTRL.AUTO b.val = false ∧ m.bank b.val = { d with left := 0 }) ∧
     (s.m.spareReady b.val = true → s.m.fld CB_CAL_STAT.PHASE b.val ≠ 0 →
       (s.Completes (.calCmdStep r b) fun m => m.bank b.val = { d with left := d.left + 1 } ∧ m.regs = s.m.regs) ∧
       (s.Completes (.calCmdRotation r b) fun m => m.bank b.val = { d with left := d.left + 13 } ∧ m.regs = s.m.regs)) ∧
     (s.m.spareReady b.val = true → s.m.fld CB_CAL_STAT.PHASE b.val = 0 →
       (s.Completes (.calCmdStep r b) fun m => (m.bank b.val).left = d.left ∧ m.flg CB_STAT.CAL_BUSY b.val = true ∧
         m.fld CB_CAL_STAT.SLOT b.val = s.m.fld CB_CAL_STAT.NEXT b.val) ∧
       (s.Completes (.calCmdRotation r b) fun m => (m.bank b.val).left = d.left + 12 ∧ m.flg CB_STAT.CAL_BUSY b.val = true ∧
         m.fld CB_CAL_STAT.SLOT b.val = s.m.fld CB_CAL_STAT.NEXT b.val) ∧
       (∀ t, d.gapFrom = some t → (s.m.flg CB_CAL_CTRL.AUTO b.val = true ∨ 0 < d.left) →
         s.Completes (.calGapExpiry b) fun m => m.flg CB_STAT.CAL_BUSY b.val = true ∧
           m.now = max s.m.now (t + s.m.fld CB_CAL_CTRL.GAP b.val * 1600000))) ∧
     (s.m.fld CB_CAL_STAT.PHASE b.val = 2 → 64 ≤ d.pairs → s.Completes (.rotationOverlapEnd b) fun m =>
       (d.sum.natAbs ≤ s.m.calMatch b.val * 64 → m.fld CB_CAL_STAT.PHASE b.val = 3 ∧
         m.flg CB_STAT.MATCH_FAIL b.val = s.m.flg CB_STAT.MATCH_FAIL b.val) ∧
       (s.m.calMatch b.val * 64 < d.sum.natAbs → m.flg CB_STAT.MATCH_FAIL b.val = true ∧
         (d.second = true → m.fld CB_CAL_STAT.PHASE b.val = 3 ∧ (m.bank b.val).yBad = true) ∧
         (d.second = false → m.fld CB_CAL_STAT.PHASE b.val = 4))) ∧
     (∀ (c : Fin 14) (z p n : Int), s.m.flg CB_CTRL.EN b.val = true → s.m.flg CB_STAT.READY b.val = false → c.val ∉ d.done →
       s.Completes (.cellCalibrationDone b c z p n) fun m =>
         (m.bank b.val).done = d.done ++ [c.val] ∧ m.fld CB_CELL_OFS.OFS (16 * b.val + c.val) = unsigned 16 z ∧
         let g := roundDiv (57344 * 32768) (p - n).toNat
         (n < p → g < 65536 → m.fld CB_CELL_GAIN.GAIN (16 * b.val + c.val) = unsigned 16 g) ∧
         ((1024 < z.natAbs ∨ p ≤ n ∨ g < 31457 ∨ 34079 < g) → bitOf (m.fld CB_CAL_STAT.BAD b.val) c.val = true) ∧
         (z.natAbs ≤ 1024 → n < p → 31457 ≤ g → g ≤ 34079 → m.fld CB_CAL_STAT.BAD b.val = s.m.fld CB_CAL_STAT.BAD b.val)))

/-! ### Comparators (R86 to R108) -/

/-- Enable, disable, arm and disarm of a comparator (R87, R94, R108), while it is neither armed nor in an enabled window: an enable starts the
settle time with the output at INIT and unresolved; a disable leaves the output 0 and unresolved; arming needs it enabled.

Threshold, actions and window of a comparator (R90, R97, R100, R107, R108): a threshold goes live at once, or with THR_SYNC waits for its owner's
running group; an action word that names a bad chop is refused while armed; a window is enabled where both comparators are enabled, neither is
armed and the upper threshold is above the lower, else refused with CFG_ERR 4; a disable of it leaves its output 0 and unresolved.

The model's own choices and readings here: log entries 12, 13, 111, 119 and 123. -/
def Obligations.ComparatorControlAndSettings : Prop :=
  (∀ (s : State) (r : Req) (c : Fin 256) (v : BitVec 32), s.m.held = [] → s.m.HouseSup r → s.m.inWindow c.val = false →
     (s.m.flg CMP_CTRL.ARM c.val = false → CMP_CTRL.ARM.of v = 0 →
       (s.m.flg CMP_CTRL.EN c.val = false → s.m.pdOn (34 + c.val / 64) = true → s.Completes (.comparatorEnable r c v) fun m =>
         m.flg CMP_CTRL.EN c.val = true ∧ m.flg CMP_STAT.UNRES c.val = true ∧
         m.fld CMP_STAT.OUT c.val = CMP_CTRL.INIT.of v ∧ m.fld CMP_STAT.CFG_ERR c.val = 0 ∧
         (m.cmp c.val).settled = false ∧ (m.cmp c.val).raw = none ∧
         (m.cmp c.val).settleAt = s.m.now + settleTime (CMP_CTRL.MODE.of v)) ∧
       (s.m.flg CMP_CTRL.EN c.val = false → s.m.pdOn (34 + c.val / 64) = false → s.Completes (.comparatorEnable r c v) fun m =>
         m.flg CMP_CTRL.EN c.val = false ∧ m.fld CMP_STAT.CFG_ERR c.val = 2) ∧
       (s.m.flg CMP_CTRL.EN c.val = true → s.Completes (.comparatorDisable r c v) fun m =>
         m.flg CMP_CTRL.EN c.val = false ∧ m.fld CMP_STAT.OUT c.val = 0 ∧ m.flg CMP_STAT.UNRES c.val = true ∧
         (m.cmp c.val).settled = false ∧ (m.cmp c.val).check = none)) ∧
     (s.m.flg CMP_CTRL.ARM c.val = false → s.m.flg CMP_CTRL.EN c.val = true → CMP_CTRL.EN.of v = 1 →
       badChop (s.m.rg (CMP_ACT.OWN.addr c.val)) = false → s.Completes (.comparatorArm r c v) fun m =>
         m.flg CMP_CTRL.ARM c.val = true ∧ m.flg CMP_CTRL.EN c.val = true) ∧
     (s.m.flg CMP_CTRL.ARM c.val = false → s.m.flg CMP_CTRL.EN c.val = false → CMP_CTRL.EN.of v = 0 →
       s.Completes (.comparatorArm r c v) fun m => m.flg CMP_CTRL.ARM c.val = false ∧ m.fld CMP_STAT.CFG_ERR c.val = 3) ∧
     (CMP_CTRL.EN.of v = bit (s.m.flg CMP_CTRL.EN c.val) → s.Completes (.comparatorDisarm r c v) fun m =>
       m.flg CMP_CTRL.ARM c.val = false ∧ m.flg CMP_CTRL.EN c.val = s.m.flg CMP_CTRL.EN c.val) ∧
     (s.m.flg CMP_CTRL.ARM c.val = false → s.m.flg CMP_CTRL.EN c.val = true → CMP_CTRL.EN.of v = 1 → CMP_CTRL.ARM.of v = 0 →
       CMP_CTRL.MODE.of v ≠ s.m.fld CMP_CTRL.MODE c.val → s.Completes (.comparatorModeChange r c v) fun m =>
         m.fld CMP_CTRL.MODE c.val = CMP_CTRL.MODE.of v ∧ m.flg CMP_STAT.UNRES c.val = true ∧ (m.cmp c.val).settled = false ∧
         (m.cmp c.val).settleAt = s.m.now + settleTime (CMP_CTRL.MODE.of v))) ∧
  (∀ (s : State) (r : Req) (c : Fin 256) (w : Fin 128) (v : BitVec 32) (thr : BitVec 10), s.m.held = [] → s.m.HouseSup r →
     (s.Completes (.thresholdWrite r c thr) fun m =>
       m.fld CMP_THR.THR c.val = thr.toNat ∧
       (s.m.flg CMP_CTRL.THR_SYNC c.val = false → m.fld CMP_THR.LIVE c.val = thr.toNat ∧ (m.cmp c.val).thrPend = false) ∧
       (∀ x, s.m.flg CMP_CTRL.THR_SYNC c.val = true → s.m.cmpOwner c.val = some x → s.m.flg TB_PG_STAT.RUN (s.m.pgOf x) = true →
         m.fld CMP_THR.LIVE c.val = s.m.fld CMP_THR.LIVE c.val ∧ (m.cmp c.val).thrPend = true) ∧
       s.m.WordsBut [CMP_THR.THR.addr c.val] m) ∧
     (s.Completes (.cmpActWrite r c v) fun m =>
       ((s.m.flg CMP_CTRL.ARM c.val && badChop v) = true → m.fld CMP_STAT.CFG_ERR c.val = 5 ∧
         m.rg (CMP_ACT.OWN.addr c.val) = s.m.rg (CMP_ACT.OWN.addr c.val)) ∧
       ((s.m.flg CMP_CTRL.ARM c.val && badChop v) = false → m.fld CMP_STAT.CFG_ERR c.val = 0 ∧
         ∀ f ∈ [CMP_ACT.CHOP, CMP_ACT.SHUT, CMP_ACT.EVT, CMP_ACT.LO, CMP_ACT.EVREL, CMP_ACT.FAILSHUT, CMP_ACT.OWN, CMP_ACT.LEG,
           CMP_ACT.EVQ], m.fld f c.val = f.of v) ∧ s.m.OnlyWords m) ∧
     (s.m.flg CMP_CTRL.ARM (2 * w.val) = false → s.m.flg CMP_WIN_CTRL.EN w.val = false → s.Completes (.cmpWindowEnable r w v) fun m =>
       let ok : Prop := s.m.flg CMP_CTRL.EN (2 * w.val) = true ∧ s.m.flg CMP_CTRL.EN (2 * w.val + 1) = true ∧
         s.m.flg CMP_CTRL.ARM (2 * w.val + 1) = false ∧ s.m.fld CMP_THR.THR (2 * w.val + 1) < s.m.fld CMP_THR.THR (2 * w.val)
       (¬ ok → m.flg CMP_WIN_CTRL.EN w.val = false ∧ m.fld CMP_STAT.CFG_ERR (2 * w.val) = 4) ∧
       (ok → m.flg CMP_WIN_CTRL.EN w.val = true ∧ m.fld CMP_STAT.CFG_ERR (2 * w.val) = 0 ∧
         m.fld CMP_WIN_CTRL.SENSE w.val = CMP_WIN_CTRL.SENSE.of v)) ∧
     (s.m.flg CMP_CTRL.ARM (2 * w.val) = false → s.m.flg CMP_WIN_CTRL.EN w.val = true → s.Completes (.cmpWindowDisable r w v) fun m =>
       m.flg CMP_WIN_CTRL.EN w.val = false ∧ m.flg CMP_WIN_STAT.OUT w.val = false ∧ m.flg CMP_WIN_STAT.UNRES w.val = true ∧
       m.fld CMP_STAT.CFG_ERR (2 * w.val) = 0))

/-- Inputs of a comparator (R91, R93, R94, R96): a crossing is taken at its stamp and, with no blank, check or window in the way, moves the output
and counts a trip; the end of a blank and the end of the settle time let the output follow the input.

Checks of a comparator (R102 to R106): a check asked for is refused with REFUSED, or starts and shows BUSY; its end gives the result; the
automatic interval asks for the next one.

The model's own choices and readings here: log entries 3, 4, 5, 13, 14, 15, 119 and 122. -/
def Obligations.ComparatorInputsAndChecks : Prop :=
  (∀ (s : State) (c : Fin 256) (e : Edge) (trip : Bool), s.m.held = [] → s.m.flg CMP_CTRL.EN c.val = true →
     let d := s.m.cmp c.val
     let plain : Prop := s.m.inWindow c.val = false ∧ s.m.flg CMP_CTRL.ARM c.val = false ∧
       (∀ w < 64, s.m.flg TB_TW_CTRL.EN w = false)
     (d.settled = true → d.raw ≠ some trip → d.blank = none → d.starts = [] → s.Completes (.comparatorInputCrossing c e trip) fun m =>
       (m.cmp c.val).raw = some trip ∧ m.now = max s.m.now (s.m.stampEdge e).1 ∧
       (d.masked = true → m.fld CMP_STAT.OUT c.val = s.m.fld CMP_STAT.OUT c.val) ∧
       (d.masked = false → plain → m.flg CMP_STAT.OUT c.val = trip ∧ m.flg CMP_STAT.UNRES c.val = false ∧
         (trip = true → (s.m.flg CMP_STAT.UNRES c.val = true ∨ s.m.flg CMP_STAT.OUT c.val = false) →
           m.flg CMP_STAT.TRIP c.val = true ∧ m.fld CMP_STAMP.STAMP c.val = (s.m.stampEdge e).1 % 2 ^ 64 ∧
           m.fld CMP_CNT.TRIPS c.val = min (s.m.fld CMP_CNT.TRIPS c.val + 1)
             (2 ^ (CMP_CNT.TRIPS.hi - CMP_CNT.TRIPS.lo + 1) - 1)))) ∧
     (∀ t, d.blank = some t → d.starts = [] → s.Completes (.blankEnd c) fun m =>
       (m.cmp c.val).blank = none ∧ (m.cmp c.val).hit = false ∧ m.now = max s.m.now t ∧
       (d.hit = true → d.raw = some false → m.flg CMP_STAT.BLANK_HIT c.val = true)) ∧
     (∀ t n, d.blank = none → d.starts = [(t, n)] → s.Completes (.blankEnd c) fun m =>
       (m.cmp c.val).blank = none ∧ (m.cmp c.val).starts = [] ∧ m.now = max s.m.now (t + n)) ∧
     (d.blank = none → d.starts = [] → s.Completes (.blankEnd c) fun m => m = s.m) ∧
     (∀ n : BandSide, d.settled = false → s.Completes (.comparatorSettled c n) fun m =>
       (m.cmp c.val).settled = true ∧ m.now = max s.m.now d.settleAt ∧
       (m.cmp c.val).raw = (match n with
         | .inside => d.raw
         | .tripSide => some true
         | .releaseSide => some false))) ∧
  (∀ (s : State) (r : Req) (c : Fin 256) (v : BitVec 32), s.m.held = [] → s.m.HouseSup r →
     let d := s.m.cmp c.val
     let free : Prop := s.m.flg CMP_CTRL.EN c.val = true ∧ s.m.flg CMP_CHK_RES.BUSY c.val = false ∧ s.m.inWindow c.val = false
     (∀ e ∈ [((.swapCheck r c v : Instr), 1), (.tieCheck r c v, 2)],
       ((s.m.flg CMP_CTRL.EN c.val = false ∨ s.m.flg CMP_CHK_RES.BUSY c.val = true) → s.Completes e.1 fun m =>
         m.fld CMP_CHK_RES.ST c.val = 10 ∧ m.cmps = s.m.cmps) ∧
       (free → CMP_CHK.WHEN.of v = 0 → s.Completes e.1 fun m =>
         m.flg CMP_CHK_RES.BUSY c.val = true ∧ (m.cmp c.val).check = some {
           kind := e.2, running := true, endAt := s.m.now + checkTime e.2 (s.m.fld CMP_CTRL.MODE c.val),
           inconcl := s.m.swapNear c.val }) ∧
       (free → CMP_CHK.WHEN.of v ≠ 0 → s.Completes e.1 fun m =>
         m.flg CMP_CHK_RES.BUSY c.val = true ∧
         (m.cmp c.val).check = some { kind := e.2, running := false, pg := CMP_CHK.PG.of v })) ∧
     ((s.m.flg CMP_CTRL.EN c.val = false ∨ s.m.flg CMP_CTRL.ARM (s.m.actOf c.val) = true) → s.Completes (.readbackCheck r c v) fun m =>
       m.fld CMP_CHK_RES.ST c.val = 10 ∧ m.cmps = s.m.cmps) ∧
     (free → s.m.flg CMP_CTRL.ARM c.val = false → CMP_CHK.WHEN.of v = 0 → s.m.spareReady (c.val / 16) = true →
       (s.m.bank (c.val / 16)).reqs.length < 4 → s.Completes (.readbackCheck r c v) fun m =>
         m.flg CMP_CHK_RES.BUSY c.val = true ∧ (m.bank (c.val / 16)).reqs.length = (s.m.bank (c.val / 16)).reqs.length + 1 ∧
         ∃ q, (m.bank (c.val / 16)).reqs.getLast? = some q ∧ q.src = 4 ∧ q.cmp = c.val ∧ q.check = true) ∧
     (∀ (b : Fin 16) (t : Nat) (code : BitVec 12) (q : Inj) (rest : List Inj) (st cl : Nat), (s.m.bank b.val).reqs = q :: rest →
       q.held = some (st, cl) → q.check = true → q.use = 0 → q.cmp = c.val → s.m.flg CMP_ACT.EVT (s.m.actOf c.val) = false →
       s.m.flg CMP_ACT.FAILSHUT (s.m.actOf c.val) = false → s.Completes (.injectedConversionDone b t code) fun m =>
         let x := clip16 (corrected code.toInt q.ofs q.gain)
         (m.cmp c.val).check = none ∧ m.flg CMP_CHK_RES.BUSY c.val = false ∧ m.fld CMP_CHK_RES.CODE c.val = unsigned 16 x ∧
         m.fld CMP_CHK_RES.ST c.val =
           (if (x - ((s.m.fld CMP_THR.LIVE c.val : Int) - 512) * 64).natAbs ≤ s.m.rbTol c.val * 64 then 6 else 7)) ∧
     (∀ (k : Chk) (o : CheckObs), d.check = some k → k.running = true → k.kind ≠ 3 → s.m.flg CMP_ACT.EVT (s.m.actOf c.val) = false →
       s.m.flg CMP_ACT.FAILSHUT (s.m.actOf c.val) = false → s.Completes (.checkEnd c o) fun m =>
         (m.cmp c.val).check = none ∧ m.flg CMP_CHK_RES.BUSY c.val = false ∧ m.now = max s.m.now k.endAt ∧
         m.fld CMP_CHK_RES.ST c.val = (if k.kind = 1 then (if o.moved then 1 else if k.inconcl then 5 else 2)
           else if !o.first then 3 else if !o.second then 4 else 1)) ∧
     (s.m.fld CMP_CHK_CFG.AUTO c.val ≠ 0 → s.Completes (.autoCheckInterval c) fun m =>
       (m.cmp c.val).autoFrom = d.autoFrom + s.m.checkIntv c.val ∧ (m.cmp c.val).autoTie = !d.autoTie ∧
       m.now = max s.m.now (d.autoFrom + s.m.checkIntv c.val)))

/-! ### Position ports (R109 to R126) -/

/-- Enable, disable and preset of a port (R112, R119, R126): an enable is taken where the port's settings pass and clears what the port had lost, or
is refused with the code of the check; a disable is refused while a live slice uses the port; a preset loads the count of a disabled port.

Quadrature, index and line faults (R115 to R117, R122): an edge counts up or down by one where the level before it was stable for the filter
time, unless it follows one of the other channel by less than 5 ns, which is illegal and leaves the count as it was before both; the active edge of the
index latches count and stamp; a line fault marks the period.

Serial transactions and BiSS register accesses (R118 to R120, R124): a transaction latches its lead before the sample instant; a start that times
out and a frame's checks leave the result code; a register access starts on a free BiSS port and its completion shows status and data.

The model's own choices and readings here: log entries 3, 4, 5, 16, 19, 124, 125, 126, 127 and 129. -/
def Obligations.PositionPorts : Prop :=
  (∀ (s : State) (r : Req) (p : Fin 72) (v : BitVec 32) (w : BitVec 64), s.m.held = [] → s.m.HouseSup r →
     let d := s.m.port p.val
     (s.m.flg PP_CTRL.EN p.val = false →
       let asked := portCtrlRest.foldl (fun m f => m.setFld f p.val (f.of v)) s.m
       s.Completes (.portEnable r p v) fun m =>
         (asked.portErr p.val = 0 → m.flg PP_CTRL.EN p.val = true ∧ m.fld PP_STAT.CFG_ERR p.val = 0 ∧
           m.flg PP_STAT.LOSS p.val = false ∧ (m.port p.val).good = 0 ∧ (m.port p.val).txn = none ∧ (m.port p.val).frames = [] ∧
           (m.port p.val).count = d.now ∧ (m.port p.val).log = []) ∧
         (asked.portErr p.val ≠ 0 → m.flg PP_CTRL.EN p.val = false ∧ m.fld PP_STAT.CFG_ERR p.val = asked.portErr p.val ∧
           m.ports = s.m.ports)) ∧
     (s.m.flg PP_CTRL.EN p.val = true → s.m.portLive p.val = true → s.Completes (.portDisable r p v) fun m =>
       m.flg PP_CTRL.EN p.val = true ∧ m.fld PP_STAT.CFG_ERR p.val = 2 ∧ m.ports = s.m.ports) ∧
     (s.m.flg PP_CTRL.EN p.val = true → s.m.portLive p.val = false → s.Completes (.portDisable r p v) fun m =>
       m.flg PP_CTRL.EN p.val = false ∧ m.flg PP_STAT.RUN p.val = false ∧ m.port p.val = { d with txn := none, frames := [], biss := none } ∧
       m.clockOut p.val = .highZ) ∧
     (s.m.flg PP_CTRL.EN p.val = false → s.Completes (.presetWrite r p w) fun m =>
       m.fld PP_PRESET.VAL p.val = w.toNat ∧ m.port p.val = { d with count := signed 64 w.toNat, log := [], presetW := true }) ∧
     (s.m.flg PP_CTRL.EN p.val = true → s.Completes (.presetWrite r p w) fun m =>
       m.fld PP_STAT.CFG_ERR p.val = 3 ∧ m.fld PP_PRESET.VAL p.val = s.m.fld PP_PRESET.VAL p.val ∧ m.ports = s.m.ports)) ∧
  (∀ (s : State) (p : Fin 72) (e : Edge) (chB level : Bool), s.m.held = [] →
     let d := s.m.port p.val
     let st := (s.m.stampEdge e).1
     let stable := s.m.accepts p.val (if chB then d.atB else d.atA) e
     (((if chB then d.b else d.a) = level ∨ stable = false) → s.Completes (.quadratureEdge p e chB level) fun m => m = s.m) ∧
     ((if chB then d.b else d.a) ≠ level → stable = true → s.m.flg PP_CTRL.EN p.val = true → s.m.fld PP_CTRL.IF p.val = 0 → d.edge = none →
       s.Completes (.quadratureEdge p e chB level) fun m =>
         let a := if chB then d.a else level
         let b := if chB then level else d.b
         let up : Bool := (if chB then b = a else a ≠ b) ≠ (s.m.flg PP_QCFG.DIR p.val)
         (m.port p.val).a = a ∧ (m.port p.val).b = b ∧ m.now = max s.m.now st ∧
         (m.port p.val).log = d.log ++ [{ at_ := st, what := .step (if up then 1 else -1) }]) ∧
     (∀ t c x st', (if chB then d.b else d.a) ≠ level → stable = true → s.m.flg PP_CTRL.EN p.val = true → s.m.fld PP_CTRL.IF p.val = 0 →
       d.edge = some (t, c, x, st') → c ≠ chB → edgeRaw e < t + 80 → s.Completes (.quadratureEdge p e chB level) fun m =>
         (m.port p.val).log.getLast? = some { at_ := st, what := .illegal } ∧ (m.port p.val).now = wrap64 (d.now - x)) ∧
     (s.m.flg PP_CTRL.EN p.val = true → s.m.fld PP_CTRL.IDX p.val = 0 → s.m.accepts p.val d.atZ e = true →
       (∀ w < 64, s.m.flg TB_TW_CTRL.EN w = false) →
       s.Completes (.indexEdge p ⟨e, !s.m.flg PP_QCFG.ZPOL p.val⟩) fun m =>
         m.fld PP_IDX_POS.POS p.val = (if s.m.fld PP_CTRL.IF p.val = 0 then unsigned 64 d.now else s.m.fld PP_POS.POS p.val) ∧
         m.fld PP_IDX_STAMP.STAMP p.val = st % 2 ^ 64 ∧ m.now = max s.m.now st ∧
         m.port p.val = { d with atZ := some (edgeRaw e) }) ∧
     (s.m.flg PP_CTRL.EN p.val = true → s.m.accepts p.val d.atZ e = true →
       s.Completes (.indexEdge p ⟨e, s.m.flg PP_QCFG.ZPOL p.val⟩) fun m =>
         m.port p.val = { d with atZ := some (edgeRaw e) } ∧ m.regs = s.m.regs ∧ m.now = s.m.now) ∧
     (s.m.flg PP_CTRL.EN p.val = true → s.Completes (.lineFault p) fun m =>
       m.port p.val = { d with los := true } ∧ m.flg PP_STAT.LOS p.val = true)) ∧
  (∀ (s : State) (r : Req) (p : Fin 72) (v : BitVec 32), s.m.held = [] → s.m.HouseSup r →
     let d := s.m.port p.val
     let g := s.m.portGroup p.val
     (s.m.flg PP_CTRL.EN p.val = true → s.m.fld PP_CTRL.IF p.val ≠ 0 → s.m.pgOn g = true → d.txn = none →
       s.Completes (.serialTransactionStart p) fun m =>
         let k := s.m.txnNext p.val
         let t := s.m.latchAt p.val (s.m.sampleStamp g k)
         (m.port p.val).lastK = some k ∧ (m.port p.val).txn = some { k := k, latch := t } ∧ m.now = max s.m.now t ∧
         (d.biss = none → m.port p.val = { d with lastK := some k, txn := some { k := k, latch := t } }) ∧
         (∀ bi, d.biss = some bi → bi.sent < 48 → (m.port p.val).biss = some { bi with sent := bi.sent + 1 }) ∧
         (∀ bi, d.biss = some bi → 48 ≤ bi.sent → (m.port p.val).biss = none ∧ m.flg PP_BISS_RES.DONE p.val = true ∧
           m.fld PP_BISS_RES.ST p.val = 2)) ∧
     (s.m.flg PP_CTRL.EN p.val = true → s.m.fld PP_CTRL.IF p.val ≠ 0 → s.m.pgOn g = true → d.txn ≠ none →
       s.Completes (.serialTransactionStart p) fun m => m.port p.val = { d with lastK := some (s.m.txnNext p.val) }) ∧
     (∀ x, d.txn = some x → x.dead = false →
       (s.Completes (.serialStartTimeout p) fun m =>
         m.port p.val = { d with txn := none, frames := d.frames ++ [{ k := x.k, latch := x.latch, code := 4, word := 0 }] } ∧
         m.now = max s.m.now (x.latch + s.m.ackMax p.val * 1600)) ∧
       (∀ (word : BitVec 64) (crc : BitVec 16) (nE nW idleOk : Bool), s.Completes (.serialFrameComplete p word crc nE nW idleOk) fun m =>
         let ssi : Bool := s.m.fld PP_CTRL.IF p.val = 1
         let crcOk : Bool := crc.toNat % 2 ^ s.m.crcLen p.val = s.m.bissCrc p.val word.toNat nE nW
         let code := if !ssi && !crcOk then 3 else if !ssi && !nE then 5 else if ssi && !idleOk then 7 else 0
         ∃ w, m.port p.val = { d with
             txn := none, frames := d.frames ++ [{ k := x.k, latch := x.latch, code := code, word := w }] } ∧
           ((ssi && s.m.flg PP_CTRL.GRAY p.val) = false → w = word.toNat % 2 ^ s.m.dlen p.val) ∧
           ((!ssi && !nW) = true → m.flg PP_STAT.WARN p.val = true))) ∧
     (∀ x, d.txn = some x → x.dead = true → ∀ (word : BitVec 64) (crc : BitVec 16) (nE nW idleOk : Bool),
       s.Completes (.serialFrameComplete p word crc nE nW idleOk) fun m => m.port p.val = { d with txn := none } ∧ m.regs = s.m.regs) ∧
     (s.Completes (.bissRegisterAccess r p v) fun m =>
       (s.m.fld PP_CTRL.IF p.val = 3 → d.biss = none → m.port p.val = { d with biss := some {
         wr := PP_BISS_CMD.WR.of v ≠ 0, id := PP_BISS_CMD.ID.of v, addr := PP_BISS_CMD.ADDR.of v, data := PP_BISS_CMD.DATA.of v } }) ∧
       ((s.m.fld PP_CTRL.IF p.val ≠ 3 ∨ d.biss ≠ none) → m.flg PP_BISS_RES.DONE p.val = true ∧ m.fld PP_BISS_RES.ST p.val = 3 ∧
         m.ports = s.m.ports)) ∧
     (∀ (b : Biss) (st : Fin 3) (data : BitVec 8), d.biss = some b → s.Completes (.bissAccessComplete p st data) fun m =>
       m.port p.val = { d with biss := none } ∧ m.flg PP_BISS_RES.DONE p.val = true ∧ m.fld PP_BISS_RES.ST p.val = st.val ∧
       m.fld PP_BISS_RES.DATA p.val = data.toNat))

/-! ### Queues (R269 to R279) -/

/-- Enable and disable of a queue (R272, R279): an enable of a disabled queue passes the checks of R272 on the settings it brings and starts
with both indices 0, or is refused with the code of the check; while the queue is enabled only a disable is taken.

The model's own choices and readings here: log entries 49 and 111. -/
def Obligations.QueueConfiguration : Prop :=
  ∀ (s : State) (r : Req) (q : Fin 4096) (v : BitVec 32), s.m.held = [] → s.m.HouseSup r →
    (3712 ≤ q.val →
      (s.Completes (.queueEnable r q v) fun m => m.fld QM_STAT.CFG_ERR q.val = 5 ∧
        m.flg QM_CFG.EN q.val = s.m.flg QM_CFG.EN q.val ∧ m.queues = s.m.queues)) ∧
    (q.val < 3712 → s.m.flg QM_CFG.EN q.val = false → s.Completes (.queueEnable r q v) fun m =>
      let m0 := s.m.putFlds qmCfgRest q.val v
      (m0.enableErr q.val = 0 → m.flg QM_CFG.EN q.val = true ∧ m.qHead q.val = 0 ∧ m.qTail q.val = 0 ∧
        m.fld QM_STAT.CFG_ERR q.val = 0 ∧ m.qdyn q.val = {}) ∧
      (m0.enableErr q.val ≠ 0 → m.flg QM_CFG.EN q.val = false ∧ m.fld QM_STAT.CFG_ERR q.val = m0.enableErr q.val ∧
        m.queues = s.m.queues) ∧
      (∀ f ∈ qmCfgRest, m.fld f q.val = f.of v)) ∧
    (q.val < 3712 → s.m.flg QM_CFG.EN q.val = true →
      (s.Completes (.queueDisable r q v) fun m => m.flg QM_CFG.EN q.val = false ∧ s.m.OnlyWords m ∧
        m.fld QM_STAT.CFG_ERR q.val = bit (s.m.differs qmCfgRest q.val v) ∧
        m.qHead q.val = s.m.qHead q.val ∧ m.qTail q.val = s.m.qTail q.val) ∧
      (s.Completes (.queueEnable r q v) fun m => m.flg QM_CFG.EN q.val = true ∧ m.fld QM_STAT.CFG_ERR q.val = 1 ∧
        s.m.OnlyWords m))

/-- Doorbells (R270, R273): a forward step the ring allows, on a side software moves, moves that index and no other; any other doorbell sets
BAD_DB and changes nothing else. One to an internal queue of the Tapster is ignored with CFG_ERR 5.

Records, moderation (R274 to R277): the oldest record is appended at TAIL of its queue or dropped and counted; the moderation timer notifies
and starts the count afresh; QM_MOD is written whole.

The model's own choices and readings here: log entries 4, 5, 59 and 114. -/
def Obligations.DoorbellsRecordsModeration : Prop :=
  (∀ (s : State) (r : Req) (q : Fin 4096) (side : Bool) (i : BitVec 16), s.m.held = [] → s.m.HouseSup r →
     let ok := s.m.flg QM_CFG.EN q.val && sideMoves (s.m.fld QM_CFG.KIND q.val) side && s.m.indexOk q.val side i.toNat
     (3712 ≤ q.val → s.Completes (.doorbell r q side i) fun m =>
       m.fld QM_STAT.CFG_ERR q.val = 5 ∧ s.m.OnlyWords m ∧ s.m.WordsBut [QM_STAT.CFG_ERR.addr q.val] m) ∧
     (q.val < 3712 → ok = true → s.Completes (.doorbell r q side i) fun m =>
       (side = true → m.qHead q.val = i.toNat ∧ m.qTail q.val = s.m.qTail q.val ∧ m.queues = s.m.queues) ∧
       (side = false → m.qTail q.val = i.toNat ∧ m.qHead q.val = s.m.qHead q.val) ∧ s.m.MemSame m ∧ s.m.SysSame m) ∧
     (q.val < 3712 → ok = false → s.Completes (.doorbell r q side i) fun m =>
       m.flg QM_STAT.BAD_DB q.val = true ∧ s.m.OnlyWords m ∧ s.m.WordsBut [QM_STAT.BAD_DB.addr q.val] m)) ∧
  (∀ (s : State) (r : Req) (q : Fin 4096) (v : BitVec 32), s.m.held = [] → s.m.HouseSup r →
     (s.m.posts = [] → s.Completes .queueRecordPost fun m => m = s.m) ∧
     (∀ p ps, s.m.posts = p :: ps → s.Completes .queueRecordPost fun m =>
       m.posts = ps ∧
       (s.m.outReady p.queue 1 = false → m.fld QM_STAT.DROPS p.queue =
           min (s.m.fld QM_STAT.DROPS p.queue + 1) (2 ^ (QM_STAT.DROPS.hi - QM_STAT.DROPS.lo + 1) - 1) ∧
         m.flg QM_STAT.DROP p.queue = true ∧ s.m.MemSame m) ∧
       (s.m.outReady p.queue 1 = true → p.queue < 4096 → s.m.flg QM_CFG.SPACE p.queue = false → s.m.flg QM_CFG.WB p.queue = false →
         m.qTail p.queue = (s.m.qTail p.queue + 1) % 65536 ∧ m.qHead p.queue = s.m.qHead p.queue ∧
         (∀ k, s.m.memAt none (s.m.qEntry p.queue (s.m.qTail p.queue)) p.bytes.length = some k → p.bytes ≠ [] →
           m.mem = (s.m.poke k p.bytes).mem) ∧
         (s.m.memAt none (s.m.qEntry p.queue (s.m.qTail p.queue)) p.bytes.length = none → m.mem = s.m.mem))) ∧
     (s.m.modDue q.val = none → s.Completes (.queueModerationTimeout q) fun m => m = s.m) ∧
     (∀ t, s.m.modDue q.val = some t → s.Completes (.queueModerationTimeout q) fun m =>
       (m.qdyn q.val).pend = 0 ∧ (m.qdyn q.val).since = none ∧ m.now = max s.m.now t ∧ m.fld QM_STAT.PEND q.val = 0 ∧ s.m.MemSame m) ∧
     (q.val < 3712 → s.Completes (.qmModWrite r q v) fun m =>
       m.fld QM_MOD.CNT q.val = QM_MOD.CNT.of v ∧ m.fld QM_MOD.MASK q.val = QM_MOD.MASK.of v ∧
       m.fld QM_MOD.TIME q.val = QM_MOD.TIME.of v ∧ s.m.MemSame m))

/-! ### Outside ports (R280 to R293) -/

/-- PCIe link and Ethernet (R281 to R287): link up and down show in OP_PCIE_STAT with width and generation, a link change in OP_ETH_STAT; PTP
offset and rate apply on the write; a gate change of the running list takes its entry at its instant.

The model's own choices and readings here: log entries 3, 4, 51, 114 and 145. -/
def Obligations.LinkAndEthernet : Prop :=
  ∀ (s : State) (r : Req) (p : Fin 2) (gen : Fin 4) (width : Fin 3) (up : Bool), s.m.held = [] → s.m.HouseSup r →
    (s.m.flg OP_PCIE_STAT.UP 0 = true → s.Completes .pcieLinkDown fun m =>
      m.flg OP_PCIE_STAT.UP 0 = false ∧ m.flg OP_PCIE_STAT.LDN 0 = true ∧ m.fld OP_PCIE_STAT.GEN 0 = 0 ∧
      m.fld OP_PCIE_STAT.WIDTH 0 = 0 ∧ s.m.OnlyWords m) ∧
    (s.m.pdOn 44 = true → s.Completes (.pcieLinkUp gen width) fun m =>
      m.flg OP_PCIE_STAT.UP 0 = true ∧ m.fld OP_PCIE_STAT.GEN 0 = gen.val + 1 ∧ m.fld OP_PCIE_STAT.WIDTH 0 = 2 ^ width.val ∧
      s.m.OnlyWords m) ∧
    (s.Completes (.ethLinkChange p up) fun m => m.flg OP_ETH_STAT.LINK p.val = (up && s.m.pdOn 45) ∧ s.m.OnlyWords m ∧
      s.m.WordsBut [OP_ETH_STAT.LINK.addr p.val] m) ∧
    (s.Completes (.ptpApply r p) fun m =>
      m.eth p.val = { s.m.eth p.val with
        ofs := s.m.fldS64 OP_ETH_PTP_OFS.V p.val * 65536 + s.m.fld OP_ETH_PTP_OFSF.V p.val,
        rate := s.m.fld OP_ETH_PTP_RATE.V p.val } ∧ m.regs = s.m.regs) ∧
    (∀ t d st, s.m.flg OP_ETH_GCL_CTRL.RUN p.val = true → (s.m.eth p.val).change = some (t, d) →
      (s.m.eth p.val).stampAt t = some st → s.Completes (.gclGateChange p) fun m =>
        m.eth p.val = d ∧ m.now = max s.m.now st ∧ m.flg OP_ETH_GCL_CTRL.PEND p.val = d.next.isSome)

/-- Frames (R278, R285 to R289): reception fills the buffer posted first, or counts a drop where none is; transmission sends the frame posted
first and completes its descriptor; a port that is not live takes and sends none.

The command tunnel (R288): a frame that fits adds its packets to its queue whole and makes its sender the queue's, any other is dropped whole.

The model's own choices and readings here: log entries 3, 4, 50 and 52. -/
def Obligations.FramesAndTunnel : Prop :=
  (∀ (s : State) (p : Fin 2) (tc : Fin 8) (t : Nat) (frame : List Byte) (ok : Bool), s.m.held = [] →
     let u := s.m.until t
     let c := frameClass frame tc.val
     let rx := ethQueue p.val c true
     let tx := ethQueue p.val tc.val false
     (s.m.ethLive p.val = false →
       (s.Completes (.ethFrameReceive p t tc frame ok) fun m => m = u) ∧
       (s.Completes (.ethFrameTransmit p tc t ok) fun m => m = u)) ∧
     (s.m.ethLive p.val = true → (p.val = 0 → s.m.flg OP_ETH_CTRL.TUN 0 = false) →
       (∀ m1, u.portTake rx (u.qFill rx) = (none, m1) → s.Completes (.ethFrameReceive p t tc frame ok) fun m =>
         m.flg QM_STAT.DROP rx = true ∧ s.m.MemSame { m with ecc := s.m.ecc }) ∧
       (∀ d m1, u.portTake rx (u.qFill rx) = (some d, m1) → s.Completes (.ethFrameReceive p t tc frame ok) fun m =>
         m.qHead rx = (m1.qHead rx + 1) % 65536 ∧ m.qTail rx = m1.qTail rx ∧ m.now = max s.m.now t)) ∧
     (s.m.ethLive p.val = true → (s.m.eth p.val).live = none → (s.m.eth p.val).next = none →
       ∀ d bs m1, u.portFrame tx = (some (d, some bs), m1) → s.Completes (.ethFrameTransmit p tc t ok) fun m =>
         m.sent = s.m.sent ++ [{
           port := 18 + p.val, dest := natOfBytes (bs.take 6).reverse, info := natOfBytes ((d.drop 7).take 1), bytes := bs, stamp := t }] ∧
         m.qHead tx = (m1.qHead tx + 1) % 65536)) ∧
  (∀ (s : State) (src : BitVec 48) (b : List Byte), s.m.held = [] → s.m.ethLive 0 = true → s.m.flg OP_ETH_CTRL.TUN 0 = true →
     let q := natOfBytes ((b.drop 2).take 2) % 4096
     let n := natOfBytes ((b.drop 4).take 1)
     let ok : Prop := natOfBytes (b.take 2) = 0x4B44 ∧ 1 ≤ n ∧ n ≤ 22 ∧ 8 + 64 * n ≤ b.length ∧ 3216 ≤ q ∧ q < 3248 ∧
       s.m.flg QM_CFG.EN q = true ∧ s.m.fld QM_CFG.KIND q = 0 ∧ s.m.qFill q + n ≤ s.m.qN q
     (ok → s.Completes (.tunnelFrameReceive src b) fun m =>
       m.tunnel = (q, src.toNat) :: s.m.tunnel.filter (fun e => e.1 ≠ q) ∧ m.qTail q = (s.m.qTail q + n) % 65536 ∧
       m.qHead q = s.m.qHead q) ∧
     (¬ ok → s.Completes (.tunnelFrameReceive src b) fun m =>
       m.flg QM_STAT.DROP q = true ∧ s.m.OnlyWords m ∧ s.m.WordsBut [QM_STAT.DROP.addr q] m))

/-- Field ports (R289 to R291): errors and successes move the counters of the CAN controller, a frame the filters pass fills the buffer posted
first, a frame sent leaves with its identifier; a UART fills and sends buffers, drives DE around what it sends and ignores what comes
meanwhile.

Vision triggers and strobes (R292, R293): the pulse scheduled first rises at its edge and falls after its width, on whole ticks before
VN_CAL; an enabled strobe waits out its filter and posts a record of its active edge's stamp, and the other edge does nothing.

The model's own choices and readings here: log entries 3, 4, 5, 50, 53, 124 and 136. -/
def Obligations.FieldPortsAndVision : Prop :=
  (∀ (s : State) (f : Fin 8) (t : Nat) (id : BitVec 29) (ide : Bool) (info : BitVec 8) (data : List Byte), s.m.held = [] →
     let u := s.m.until t
     let rx := 3329 + 2 * f.val
     let tx := 3328 + 2 * f.val
     (s.m.fldLive f.val false = true → s.m.flg OP_FLD_STAT.BOFF f.val = false →
       (s.Completes (.canFrameReceive f t id ide info data false) fun m =>
         m.fld OP_FLD_STAT.REC f.val = min (s.m.fld OP_FLD_STAT.REC f.val + 1) (2 ^ (OP_FLD_STAT.REC.hi - OP_FLD_STAT.REC.lo + 1) - 1) ∧
         m.now = max s.m.now t ∧ m.mem = s.m.mem) ∧
       (s.m.canAccepts f.val ide (if ide then id.toNat else id.toNat % 2048) = false →
         s.Completes (.canFrameReceive f t id ide info data true) fun m =>
           m.fld OP_FLD_STAT.REC f.val = s.m.fld OP_FLD_STAT.REC f.val - 1 ∧ m.mem = s.m.mem ∧ m.now = max s.m.now t) ∧
       (s.m.canAccepts f.val ide (if ide then id.toNat else id.toNat % 2048) = true →
         ∀ d m1, (u.setFld OP_FLD_STAT.REC f.val (u.fld OP_FLD_STAT.REC f.val - 1)).portTake rx (u.qFill rx) = (some d, m1) →
           s.Completes (.canFrameReceive f t id ide info data true) fun m =>
             m.qHead rx = (m1.qHead rx + 1) % 65536 ∧ m.now = max s.m.now t) ∧
       (∀ d bs m1, u.portFrame tx = (some (d, some bs), m1) →
         (s.Completes (.canFrameTransmit f t true) fun m =>
           m.sent = s.m.sent ++ [{
             port := 20 + f.val, dest := natOfBytes ((d.drop 16).take 4), info := natOfBytes ((d.drop 7).take 1), bytes := bs, stamp := t }] ∧
           m.tec f.val = s.m.tec f.val - 1 ∧ m.qHead tx = (m1.qHead tx + 1) % 65536) ∧
         (s.Completes (.canFrameTransmit f t false) fun m =>
           m.sent = s.m.sent ∧ m.tec f.val = s.m.tec f.val + 8 ∧ m.qHead tx = m1.qHead tx ∧
           (255 < s.m.tec f.val + 8 → m.flg OP_FLD_STAT.BOFF f.val = true)))) ∧
     (s.m.fldLive f.val true = true →
       (s.m.deHigh f.val t = true → ∀ ok, s.Completes (.uartReceiveEnd f t data ok) fun m => m = u) ∧
       (s.m.deHigh f.val t = false → ∀ d m1 ok, u.portTake rx (u.qFill rx) = (some d, m1) →
         s.Completes (.uartReceiveEnd f t data ok) fun m => m.qHead rx = (m1.qHead rx + 1) % 65536 ∧ m.now = max s.m.now t) ∧
       (∀ d bs m1, u.portFrame tx = (some (d, some bs), m1) → s.Completes (.uartTransmit f t) fun m =>
         m.sent = s.m.sent ++ [{ port := 20 + f.val, dest := 0, info := natOfBytes ((d.drop 7).take 1), bytes := bs, stamp := t }] ∧
         m.qHead tx = (m1.qHead tx + 1) % 65536 ∧
         ∀ x, m.deHigh f.val x = decide ((s.m.deWindow f.val t bs.length).1 ≤ x ∧ x < (s.m.deWindow f.val t bs.length).2)))) ∧
  (∀ (s : State) (o : Fin 16) (e : Edge), s.m.held = [] →
     let d := s.m.vis o.val
     (∀ p ps, d.pulses = p :: ps →
       (d.high = false → s.Completes (.visionTriggerEdge o true) fun m =>
         m.vis o.val = { d with high := true } ∧ m.now = max s.m.now (s.m.edgeAt false p.1)) ∧
       (d.high = true → s.Completes (.visionTriggerEdge o false) fun m =>
         m.vis o.val = { pulses := ps, high := false } ∧ m.now = max s.m.now (s.m.edgeAt false (p.1 + p.2)))) ∧
     (d.pulses = [] → ∀ b, s.Completes (.visionTriggerEdge o b) fun m => m = s.m) ∧
     (∀ rising, rising = bitOf (s.m.fld OP_VIS_SEN.EDGE 0) o.val → s.Completes (.strobeEdge o ⟨e, rising⟩) fun m => m = s.m) ∧
     (s.m.pdOn 0 = true → bitOf (s.m.fld OP_VIS_SEN.EN 0) o.val = true → ∀ rising,
         rising = !bitOf (s.m.fld OP_VIS_SEN.EDGE 0) o.val → s.Completes (.strobeEdge o ⟨e, rising⟩) fun m =>
       let st := s.m.stampEdge e
       m.now = max s.m.now (st.1 + s.m.fld OP_VIS_SFILT.V 0 * 64) ∧
       (s.m.flg OP_VIS_SQ.EN 0 = true → (∀ w < 64, s.m.flg TB_TW_CTRL.EN w = false) → ∃ p, m.posts = s.m.posts ++ [p] ∧
         p.queue = s.m.fld OP_VIS_SQ.QUEUE 0 ∧ p.bytes.take 10 = bytesOfNat 8 st.1 ++ bytesOfNat 1 o.val ++
           bytesOfNat 1 (bit st.2.1 + 2 * bit st.2.2))))

/-! ### Reed cores (R319 to R394) -/

/-- The integer units (R330): the ALUs, the multiplier and divider and the comparator leave the result of T and their operand latch in their
result socket; ADDV and SUBV raise OVF where the exact result does not fit, a division by zero raises DIVZ and gives 0, or T as remainder.

The floating-point unit (R333, R338): its result is the operation on T and its latch, and AXF gathers the conditions that are not enabled as
exceptions. FEQ finds a number equal to itself, and nothing equal to a
quiet NaN, without a condition.

The model's own choices and readings here: log entries 97 and 99. -/
def Obligations.ReedArithmetic : Prop :=
  (∀ (s : State) (c : Fin 16) (t : BitVec 64), s.m.held = [] →
     let n := s.m.coreIdx c.val
     let k := (s.m.reed n).core
     s.m.Issuing n → k.rep = none →
     (∀ u : Bool,
       let o := k.latchReg (bit u)
       let sh := o.toNat % 64
       ∀ e ∈ [((.reedAdd c u t : Instr), t + o), (.reedSub c u t, t - o), (.reedAnd c u t, t &&& o), (.reedOr c u t, t ||| o),
         (.reedXor c u t, t ^^^ o), (.reedAndn c u t, t &&& ~~~o), (.reedShl c u t, t <<< sh), (.reedShr c u t, t >>> sh),
         (.reedSar c u t, t.sshiftRight sh), (.reedMin c u t, if o.slt t then o else t), (.reedMax c u t, if t.slt o then o else t),
         (.reedMinu c u t, if o.ult t then o else t), (.reedMaxu c u t, if t.ult o then o else t)],
         s.Completes e.1 fun m => s.m.Computes n (bit u) e.2 0 m) ∧
     (∀ u : Bool,
       let o := k.latchReg (bit u)
       ∀ e ∈ [((.reedAddv c u t : Instr), t.toInt + o.toInt), (.reedSubv c u t, t.toInt - o.toInt)],
         let f := if e.2 < -(2 ^ 63) ∨ 2 ^ 63 ≤ e.2 then fOVF else 0
         f &&& (s.m.inForce n 6).toNat = 0 → s.Completes e.1 fun m => s.m.Computes n (bit u) (BitVec.ofInt 64 e.2) f m) ∧
     (let o := k.latchReg 2
      let f := if o = 0 then fDIVZ else 0
      (∀ e ∈ [((.reedMul c t : Instr), t * o), (.reedMulhs c t, BitVec.ofInt 64 (t.toInt * o.toInt / 2 ^ 64)),
         (.reedMulhu c t, BitVec.ofNat 64 (t.toNat * o.toNat / 2 ^ 64))], s.Completes e.1 fun m => s.m.Computes n 2 e.2 0 m) ∧
      (f &&& (s.m.inForce n 6).toNat = 0 →
       ∀ e ∈ [((.reedDiv c t : Instr), if o = 0 then 0 else t.sdiv o), (.reedDivu c t, if o = 0 then 0 else t / o),
         (.reedRem c t, if o = 0 then t else t.srem o), (.reedRemu c t, if o = 0 then t else t % o)],
         s.Completes e.1 fun m => s.m.Computes n 2 e.2 f m)) ∧
     (let o := k.latchReg 3
      ∀ e ∈ [((.reedEq c t : Instr), t == o), (.reedNe c t, t != o), (.reedLt c t, t.slt o), (.reedGe c t, !(t.slt o)),
         (.reedLtu c t, t.ult o), (.reedGeu c t, !(t.ult o))],
         s.Completes e.1 fun m => s.m.Computes n 3 (BitVec.ofNat 64 (bit e.2)) 0 m)) ∧
  (∀ (s : State) (c : Fin 16) (t : BitVec 64), s.m.held = [] →
     let n := s.m.coreIdx c.val
     let o := (s.m.reed n).core.latchReg 4
     s.m.Issuing n → (s.m.reed n).core.rep = none →
     (∀ e ∈ [((.reedFadd c t : Instr), 1), (.reedFsub c t, 2), (.reedFmul c t, 3), (.reedFdiv c t, 4), (.reedFsqrt c t, 5), (.reedFmin c t, 6),
         (.reedFmax c t, 7), (.reedFcvtif c t, 8), (.reedFcvtfi c t, 9), (.reedFeq c t, 10), (.reedFlt c t, 11), (.reedFle c t, 12)],
       (fpuOp e.2 t o).2 &&& (s.m.inForce n 6).toNat = 0 → s.Completes e.1 fun m =>
         s.m.Computes n 5 (fpuOp e.2 t o).1 (fpuOp e.2 t o).2 m) ∧
     (t = o → (F64.of t).isNan = false → s.Completes (.reedFeq c t) fun m => s.m.Computes n 5 1 0 m) ∧
     ((F64.of t).isNan = true → F64.of t ≠ .nan false → F64.of o ≠ .nan false → s.Completes (.reedFeq c t) fun m => s.m.Computes n 5 0 0 m))

/-! ### Statements of single rules (R45, R46, R338, R377) -/

/-- R338: a trigger that raises a condition sets its AXF bit. Where the matching AXE bit in force is 1 it also raises an arithmetic exception: with
PA = 0 it is made pending, with the bundle's address in AXADDR and the result in its socket; with PA = 1 the bundle enters vector 10, with
AXF in the frame.

The model's own choices and readings here: log entries 97, 98, 99 and 101. -/
def Obligations.ArithmeticConditions : Prop :=
  ∀ (s : State) (c : Fin 16) (t : BitVec 64) (u : Bool), s.m.held = [] →
    let n := s.m.coreIdx c.val
    let k := (s.m.reed n).core
    let a := k.latchReg (bit u)
    let d := k.latchReg 2
    let o := k.latchReg 4
    let ovf (i : Int) : Nat := if i < -(2 ^ 63) ∨ 2 ^ 63 ≤ i then fOVF else 0
    let divz : Nat := if d = 0 then fDIVZ else 0
    s.m.Issuing n → k.rep = none →
    ∀ e ∈ [((.reedAddv c u t : Instr), ovf (t.toInt + a.toInt)), (.reedSubv c u t, ovf (t.toInt - a.toInt)), (.reedDiv c t, divz),
        (.reedDivu c t, divz), (.reedRem c t, divz), (.reedRemu c t, divz), (.reedFadd c t, (fpuOp 1 t o).2), (.reedFsub c t, (fpuOp 2 t o).2),
        (.reedFmul c t, (fpuOp 3 t o).2), (.reedFdiv c t, (fpuOp 4 t o).2), (.reedFsqrt c t, (fpuOp 5 t o).2), (.reedFmin c t, (fpuOp 6 t o).2),
        (.reedFmax c t, (fpuOp 7 t o).2), (.reedFcvtif c t, (fpuOp 8 t o).2), (.reedFcvtfi c t, (fpuOp 9 t o).2), (.reedFeq c t, (fpuOp 10 t o).2),
        (.reedFlt c t, (fpuOp 11 t o).2), (.reedFle c t, (fpuOp 12 t o).2)],
      let axe := (s.m.inForce n 6).toNat
      let axf := s.m.rg (ctlAddr n 5) ||| BitVec.ofNat 32 e.2
      (e.2 &&& axe = 0 → s.Completes e.1 fun m => m.rg (ctlAddr n 5) = axf ∧ (m.reed n).core.axn = none) ∧
      (e.2 &&& axe ≠ 0 → ST.PA.of (s.m.inForce n 0) = 0 → s.Completes e.1 fun m =>
        m.rg (ctlAddr n 5) = axf ∧ (m.reed n).core.axn = some 0 ∧ m.flg ST.AXP n = true ∧ m.rg (ctlAddr n 7) = BitVec.ofNat 32 k.pc ∧
        (m.reed n).core.pc = (k.pc + 16) % 2 ^ 32) ∧
      (e.2 &&& axe ≠ 0 → ST.PA.of (s.m.inForce n 0) = 1 → ∀ handler pa sp, s.m.EntryFits n (s.m.inGuest n) 10 handler pa sp →
        s.Completes e.1 fun m => s.m.Entered n (s.m.inGuest n) k.pc (10 + 2 ^ 8) handler pa sp m ∧
          (((m.reed n).sb.drop (s.m.reed n).sb.length)[8]?).map (fun e => bitsOf (natOfBytes e.bytes) 25 16) = some (axf.toNat % 1024))

/-! ### Reed cores (R319 to R394) -/

/-- Bundles and repeats (R325, R341, R342): the moves of a bundle read what stands at its start; a REPEAT bundle latches its count and body, runs
the body that often, and with a count of 0 passes over it.

Branches (R332): JMP and CALL go to T, JREL and CALLR to T bundles on; a call writes the link; nothing else changes. A target that is not a
bundle's address is a fault of vector 4.

The model's own choices and readings here: log entries 99, 104, 105 and 140. -/
def Obligations.ReedBundlesRepeatsBranches : Prop :=
  (∀ (s : State) (c : Fin 16), s.m.held = [] →
     let n := s.m.coreIdx c.val
     let k := (s.m.reed n).core
     s.m.Issuing n →
     (∀ b m1, s.m.fetch n = (.ok b, m1) → encCause b k.rep.isSome = none → k.rep = none → bunFmt b ≠ 2 →
       (∀ mv ∈ movesOf k b, trigOf mv.1 = none) → ((movesOf k b).map Prod.fst).Nodup → s.Completes (.bundleExecute c 0) fun m =>
         m1.Retires n ((movesOf k b).foldl (fun k mv => k.put mv.1 mv.2) ((readUnits k b).foldl Core.ready k)) m ∧
         m.regs = m1.regs ∧ m.mem = s.m.mem) ∧
     (∀ f : BitVec 20, k.rep = none → bitsOf f.toNat 14 12 = 0 →
       let count := if bitOf f.toNat 15 then f.toNat % 4096 else (s.m.rg (ctlAddr n 1)).toNat
       let body := bitsOf f.toNat 19 16
       (count ≠ 0 → s.Completes (.reedRepeat c f) fun m => (m.reed n).core = { k with
         pc := (k.pc + 16) % 2 ^ 32, rep := some { count := count, left := count, first := (k.pc + 16) % 2 ^ 32, body := body } } ∧
         m.regs = s.m.regs ∧ m.mem = s.m.mem) ∧
       (count = 0 → s.Completes (.reedRepeat c f) fun m => (m.reed n).core = { k with pc := (k.pc + 16 * (body + 2)) % 2 ^ 32 } ∧
         m.regs = s.m.regs ∧ m.mem = s.m.mem)) ∧
     (∀ (p : Rep) (t : BitVec 64), k.rep = some p → s.Completes (.reedAdd c false t) fun m =>
       let k' := (m.reed n).core
       k'.resOf 0 = t + k.latchReg 0 ∧
       (p.pos < p.body → k'.pc = (k.pc + 16) % 2 ^ 32 ∧ k'.rep = some { p with pos := p.pos + 1 } ∧ m.regs = s.m.regs) ∧
       (p.body ≤ p.pos → 1 < p.left → k'.pc = p.first ∧ k'.rep = some { p with left := p.left - 1, pos := 0 } ∧ m.regs = s.m.regs) ∧
       (p.body ≤ p.pos → p.left ≤ 1 → k'.pc = (k.pc + 16) % 2 ^ 32 ∧ k'.rep = none ∧
         m.rg (ctlAddr n 1) = p.held.getD (s.m.rg (ctlAddr n 1))))) ∧
  (∀ (s : State) (c : Fin 16) (t : BitVec 64), s.m.held = [] →
     let n := s.m.coreIdx c.val
     let r := s.m.reed n
     let k := r.core
     s.m.Issuing n →
     (∀ e ∈ [((.reedJmp c t : Instr), t.toNat % 2 ^ 32, false), (.reedJrel c t, (k.pc + 16 * t.toNat) % 2 ^ 32, false),
         (.reedCall c t, t.toNat % 2 ^ 32, true), (.reedCallr c t, (k.pc + 16 * t.toNat) % 2 ^ 32, true)],
       (e.2.1 % 16 = 0 → s.Completes e.1 fun m =>
         (m.reed n).core = { k with pc := e.2.1, rep := none, lk := if e.2.2 then BitVec.ofNat 64 (k.pc + 16) else k.lk } ∧
         (k.rep = none → m.regs = s.m.regs) ∧ m.mem = s.m.mem ∧ (m.reed n).sb = r.sb) ∧
       (e.2.1 % 16 ≠ 0 → ∀ handler pa sp, s.m.EntryFits n (s.m.inGuest n) 4 handler pa sp → s.Completes e.1 fun m =>
         s.m.Entered n (s.m.inGuest n) k.pc 4 handler pa sp m)))

/-- Loads and stores (R331, R354, R357 to R359, R371 to R373): a load gives its bytes with the extension its name says, from memory, or from the
youngest buffered store that covers it; a store enters the store buffer and reaches memory when it is performed, there and nowhere else; LR64
holds a reservation, SC64 stores under it and tells whether it did.

The model's own choices and readings here: log entries 5, 99 and 100. -/
def Obligations.ReedMemory : Prop :=
  ∀ (s : State) (c : Fin 16) (t : BitVec 64), s.m.held = [] →
    let n := s.m.coreIdx c.val
    let r := s.m.reed n
    let k := r.core
    let a := (t + k.latchReg 6).toNat % 2 ^ 32
    let w := s.m.whoCore n
    (s.m.Issuing n → k.rep = none →
      (∀ e ∈ [((.reedLd8s c t : Instr), 1, fun v : Nat => (BitVec.ofNat 8 v).signExtend 64), (.reedLd8u c t, 1, fun v => BitVec.ofNat 64 v),
          (.reedLd16s c t, 2, fun v => (BitVec.ofNat 16 v).signExtend 64), (.reedLd16u c t, 2, fun v => BitVec.ofNat 64 v),
          (.reedLd32s c t, 4, fun v => (BitVec.ofNat 32 v).signExtend 64), (.reedLd32u c t, 4, fun v => BitVec.ofNat 64 v),
          (.reedLd64 c t, 8, fun v => BitVec.ofNat 64 v)],
        s.m.accessFault n w a e.2.1 0 = none → r.ldFence = 0 → ¬ (0x30000000 ≤ a ∧ a < 0x40000000) →
        (∀ key, s.m.memAt (some n) a e.2.1 = some key → s.m.GoodCode key e.2.1 → youngest r.sb a e.2.1 = none → s.Completes e.1 fun m =>
          let v := e.2.2 (natOfBytes (s.m.peek key e.2.1))
          (m.reed n).core.resOf 4 = v ∧ (m.reed n).core.pc = (k.pc + 16) % 2 ^ 32 ∧ (m.reed n).core.g = k.g ∧ (m.reed n).sb = r.sb ∧
          m.mem = s.m.mem ∧ m.ecc = s.m.ecc) ∧
        (∀ x, youngest r.sb a e.2.1 = some x → x.covers a e.2.1 = true → (halves a e.2.1).length = 1 → s.Completes e.1 fun m =>
          (m.reed n).core.resOf 4 = e.2.2 (natOfBytes ((x.bytes.drop (a - x.addr)).take e.2.1)) ∧ m.mem = s.m.mem)) ∧
      (∀ e ∈ [((.reedSt8 c t : Instr), 1), (.reedSt16 c t, 2), (.reedSt32 c t, 4), (.reedSt64 c t, 8)],
        s.m.accessFault n w a e.2 1 = none → s.m.sbRoom n a e.2 = true → s.Completes e.1 fun m =>
          (m.reed n).sb = r.sb ++ (halves a e.2).map (fun h =>
            { addr := h.1, bytes := ((bytesOfNat e.2 (k.latchReg 5).toNat).drop (h.1 - a)).take h.2, guest := w.guest, user := w.user }) ∧
          s.m.Retires n k m ∧ m.regs = s.m.regs ∧ m.mem = s.m.mem ∧ m.ecc = s.m.ecc) ∧
      (a % 8 = 0 → lockable a = true →
        (∀ key, s.m.accessFault n w a 8 0 = none → s.m.memAt (some n) a 8 = some key → s.m.GoodCode key 8 → r.ldFence = 0 →
          youngest r.sb a 8 = none → s.Completes (.reedLr64 c t) fun m =>
            (m.reed n).core.resOf 4 = BitVec.ofNat 64 (natOfBytes (s.m.peek key 8)) ∧ (m.reed n).resv = some key ∧ m.mem = s.m.mem) ∧
        (s.m.accessFault n w a 8 1 = none → r.sb = [] →
          (∀ key, r.resv = some key → memKey (some n) a = some key → s.Completes (.reedSc64 c t) fun m =>
            (m.reed n).core.resOf 4 = 0 ∧ (m.reed n).resv = none ∧ m.mem = (s.m.poke key (bytesOfNat 8 (k.latchReg 5).toNat)).mem) ∧
          (r.resv = none → s.Completes (.reedSc64 c t) fun m =>
            (m.reed n).core.resOf 4 = 1 ∧ (m.reed n).resv = none ∧ m.mem = s.m.mem ∧ m.ecc = s.m.ecc))) ∧
      (t.toNat % 4 = 0 → s.Completes (.reedFence c t) fun m => (m.reed n).ldFence = r.sb.length ∧ (m.reed n).sb = r.sb ∧ s.m.Retires n k m ∧
        m.mem = s.m.mem) ∧
      (t.toNat % 4 ≠ 0 → r.sb = [] → s.Completes (.reedFence c t) fun m =>
        (m.reed n).core.resOf 4 = BitVec.ofNat 64 (if r.fenced then r.lastStore else s.m.now / 64 * 64) ∧
        (m.reed n).lines = (if t.toNat % 4 = 2 then [] else r.lines) ∧ m.mem = s.m.mem) ∧
      (t.toNat % 4 ≠ 0 → r.sb ≠ [] → s.Completes (.reedFence c t) fun m =>
        m = s.m.setReed n { r with fenced := true, wfe := false })) ∧
    (r.sb = [] → s.Completes (.storePerformed c) fun m => m = s.m) ∧
    (∀ e rest, r.sb = e :: rest → s.m.sbStalled n e = false → ∀ key, s.m.memAt (some n) e.addr e.bytes.length = some key → e.bytes ≠ [] →
      (rest ≠ [] ∨ s.m.safePair (n / 2) = false ∨ s.m.pState (n / 2) ≠ 1) → s.Completes (.storePerformed c) fun m =>
        m.mem = (s.m.poke key e.bytes).mem ∧ (m.reed n).sb = rest ∧ (m.reed n).lastStore = s.m.now / 64 * 64) ∧
    (∀ e rest, r.sb = e :: rest → s.m.sbStalled n e = true → s.Completes (.storePerformed c) fun m => m = s.m) ∧
    (∀ u : RUnit, s.Completes (.unitResultReady c u) fun m => m = s.m.setReed n { r with core := k.ready (unitNo u) })

/-- Control registers, synchronisation and doorbells of a core (R334 to R337, R369, R401): CRD answers the register, CWR writes it by its access
codes and a synchronised one comes into force at SYNC; SYNC brings every result and value into force; MSTONE is a SYNC and, on a safe pair, a
milestone; a doorbell moves the index and answers 0, or answers 1 with the error shown.

The model's own choices and readings here: log entries 99, 100 and 111. -/
def Obligations.ReedControlRegisters : Prop :=
  ∀ (s : State) (c : Fin 16) (t : BitVec 64), s.m.held = [] →
    let n := s.m.coreIdx c.val
    let r := s.m.reed n
    let k := r.core
    s.m.Issuing n → k.rep = none →
    (crKnown t.toNat = true → s.m.crMay n t.toNat = true → s.Completes (.reedCrd c t) fun m =>
      (m.reed n).core.resOf 6 = BitVec.ofNat 64 (s.m.crRead n t.toNat).1 ∧
      (t = 4 → (m.reed n).core.resOf 6 = BitVec.ofNat 64 (s.m.now / 64 * 64)) ∧
      (t.toNat ∈ [0, 1, 3, 5, 6, 7] → (m.reed n).core.resOf 6 = (s.m.rg (ctlAddr n t.toNat)).setWidth 64) ∧
      m.mem = s.m.mem ∧ (m.reed n).core.pc = (k.pc + 16) % 2 ^ 32) ∧
    (∀ j : Nat, (k.latchReg 7).toNat = j → crKnown j = true → s.m.crMay n j = true → (j ≠ 0 ∨ s.m.atUser n = false) →
      s.Completes (.reedCwr c t) fun m =>
        m.mem = s.m.mem ∧ (m.reed n).core.g = k.g ∧ (m.reed n).core.pc = (k.pc + 16) % 2 ^ 32 ∧
        (j = 1 → m.rg (ctlAddr n 1) = t.setWidth 32) ∧
        (crSync j = true → m.inForce n j = s.m.inForce n j) ∧
        (j ≠ 1 → ∀ cd, cardAt (ctlAddr n j) = some cd → ∀ i < 32, (m.rg (ctlAddr n j)).getLsbD i =
          cd.wrote (t.setWidth 32) (s.m.rg (ctlAddr n j)) i)) ∧
    (s.Completes (.reedSync c) fun m => s.m.Retires n { k with old := [], busy := 0 } m ∧ m.regs = s.m.regs ∧ m.mem = s.m.mem ∧
      ∀ j, m.inForce n j = s.m.rg (ctlAddr n j)) ∧
    (s.m.safePair (n / 2) = false → s.Completes (.reedMstone c) fun m =>
      s.m.Retires n { k with old := [], busy := 0 } m ∧ m.regs = s.m.regs ∧ m.mem = s.m.mem) ∧
    (s.m.safePair (n / 2) = true → r.sb = [] → r.resv = none → s.Completes (.reedMstone c) fun m =>
      let p := n / 2
      m.fld MSSTAT.SLOT n = 1 - s.m.fld MSSTAT.SLOT n ∧ m.fld MSCNT.V n = (s.m.fld MSCNT.V n + 1) % 2 ^ 32 ∧
      (m.pair p).log = [] ∧ (m.pair p).undo = [] ∧ (m.pair p).due = none ∧ (m.pair p).count = 0 ∧ (m.pair p).msFrom = s.m.now ∧
      (m.reed n).core = { k with old := [], busy := 0, pc := (k.pc + 16) % 2 ^ 32 } ∧ m.mem = s.m.mem) ∧
    (∀ e ∈ [((.qpTailDoorbell c t : Instr), false), (.qpHeadDoorbell c t, true)],
      let q := (k.latchReg 8).toNat % 4096
      let i := t.toNat % 65536
      let own := (!s.m.inGuest n && !s.m.atUser n) || s.m.inGuest n = s.m.flg QM_CFG.OWNER q
      let ok := own && s.m.flg QM_CFG.EN q && sideMoves (s.m.fld QM_CFG.KIND q) e.2 && s.m.indexOk q e.2 i
      r.sb = [] →
      (ok = true → s.Completes e.1 fun m => (m.reed n).core.resOf 7 = 0 ∧ m.mem = s.m.mem ∧
        (e.2 = true → m.qHead q = i ∧ m.qTail q = s.m.qTail q) ∧ (e.2 = false → m.qTail q = i ∧ m.qHead q = s.m.qHead q)) ∧
      (ok = false → s.Completes e.1 fun m => (m.reed n).core.resOf 7 = 1 ∧ m.mem = s.m.mem ∧ m.qTail q = s.m.qTail q ∧
        m.qHead q = s.m.qHead q ∧ (own = true → m.flg QM_STAT.BAD_DB q = true) ∧ (own = false → m.flg QM_STAT.OWN_ERR q = true)))

/-- What a core enters, leaves and waits for (R334, R340, R362, R382 to R390, R502): SYSCALL enters vector 8 with its code; WFE goes on where an event
is pending and else waits; BRK halts the core or enters vector 9; ERET restores its frame, or at user level enters vector 5; a pending
arithmetic exception is delivered through vector 10, an asynchronous event through its own.

The model's own choices and readings here: log entries 98, 99, 100, 102 and 103. -/
def Obligations.ReedExceptions : Prop :=
  ∀ (s : State) (c : Fin 16) (t : BitVec 64), s.m.held = [] →
    let n := s.m.coreIdx c.val
    let r := s.m.reed n
    let k := r.core
    let g := s.m.inGuest n
    (s.m.Issuing n → k.rep = none →
      (∀ handler pa sp, s.m.EntryFits n g 8 handler pa sp → s.Completes (.reedSyscall c t) fun m =>
        s.m.Entered n g ((k.pc + 16) % 2 ^ 32) (8 + t.toNat % 65536 * 2 ^ 16) handler pa sp m) ∧
      (s.m.events n ≠ [] → s.Completes (.reedWfe c) fun m => (m.reed n).core.pc = (k.pc + 16) % 2 ^ 32 ∧ (m.reed n).core.g = k.g ∧
        m.mem = s.m.mem ∧ (r.wfe = false → s.m.Retires n k m ∧ m.regs = s.m.regs)) ∧
      (s.m.events n = [] → s.Completes (.reedWfe c) fun m => m = s.m.setReed n { r with wfe := true }) ∧
      (s.m.brkHalts n = true → r.sb = [] → s.Completes (.reedBrk c) fun m =>
        m.coreHalted n = true ∧ m.fld (DBG_CSTAT.WHY.sh (4 * n)) 0 = 2 ∧ (m.reed n).haltReq = none ∧ (m.reed n).resv = none ∧
        (m.reed n).core = { k with busy := 0, pc := (k.pc + 16) % 2 ^ 32 } ∧ m.mem = s.m.mem) ∧
      (s.m.brkHalts n = false → ∀ handler pa sp, s.m.EntryFits n g 9 handler pa sp → s.Completes (.reedBrk c) fun m =>
        s.m.Entered n g k.pc 9 handler pa sp m) ∧
      (∀ ws, s.m.atUser n = false → s.m.eretFrame n (k.gReg 62).toNat = (.ok ws, s.m) → s.Completes (.reedEret c) fun m =>
        let at_ (i : Nat) : Nat := ws.getD i 0
        let k' := (m.reed n).core
        k'.pc = at_ 0 % 2 ^ 32 / 16 * 16 ∧ k'.gReg 62 = BitVec.ofNat 64 (at_ 6) ∧ k'.lk = BitVec.ofNat 64 (at_ 7) ∧ k'.b = at_ 8 % 8 * 2 ∧
        k'.shadow = k.shadow.drop 1 ∧ k'.old = [] ∧ (∀ i < 9, k'.latchReg i = BitVec.ofNat 64 (at_ (13 + i))) ∧
        (∀ i < 8, k'.resOf i = BitVec.ofNat 64 (at_ (22 + i))) ∧ (∀ i < 64, i ≠ 62 → k'.gReg i = k.gReg i) ∧ (m.reed n).resv = none ∧
        m.rg (ctlAddr n 0) = BitVec.ofNat 32 (at_ 1) &&& 0xC0000030 ∧ m.mem = s.m.mem) ∧
      (s.m.atUser n = true → ∀ handler pa sp, s.m.EntryFits n g 5 handler pa sp → s.Completes (.reedEret c) fun m =>
        s.m.Entered n g k.pc 5 handler pa sp m)) ∧
    (s.m.issues n = true →
      (∀ b m1 handler pa sp, k.axn.isSome = true → s.m.fetch n = (.ok b, m1) → s.m.axDelivers n (movesOf k b) = true →
        s.m.EntryFits n g 10 handler pa sp → s.Completes (.arithExceptionDelivery c) fun m =>
          s.m.Entered n g k.pc (10 + 2 * 2 ^ 8) handler pa sp m) ∧
      (k.axn = none → s.Completes (.arithExceptionDelivery c) fun m => m = s.m) ∧
      (s.m.eventDue n = none → s.Completes (.asyncEventTaken c) fun m => m = s.m) ∧
      (∀ v gv handler pa sp, v ≠ 16 → s.m.eventDue n = some (v, gv) → s.m.EntryFits n gv v handler pa sp →
        s.Completes (.asyncEventTaken c) fun m => s.m.Entered n gv k.pc v handler pa sp m ∧ (v, gv) ∉ m.events n) ∧
      (∀ gv handler pa sp, s.m.eventDue n = some (16, gv) → s.m.EntryFits n gv 16 handler pa sp →
        s.Completes (.asyncEventTaken c) fun m =>
          s.m.Entered n gv k.pc (16 + ((s.m.qevs n gv).1.headD 0 + bit (s.m.qevs n gv).2 * 2 ^ 15) * 2 ^ 16) handler pa sp m ∧
          m.qevs n gv = ((s.m.qevs n gv).1.drop 1, false)))

/-! ### Pairs, memory (R395 to R435, R473) -/

/-- A mismatch and what follows it (R404 to R408): the first one of an interval rolls the safe pair back to its milestone and the replay brings it
on again; a second one, a replay that ends otherwise, rails that disagree, or a self-test that fails is a hard fault, which leaves the pair
reset and held.

The model's own choices and readings here: log entries 4, 5, 72, 73, 139 and 140. -/
def Obligations.PairRecovery : Prop :=
  ∀ (s : State) (p : Fin 8), s.m.held = [] → s.m.safePair p.val = true →
    let n := 2 * p.val
    let r := s.m.reed n
    let d := s.m.pair p.val
    let hard (cls : Nat) (m : Mach) : Prop := m.flg SYS_PAIR_STAT.HF p.val = true ∧ m.fld SYS_PAIR_STAT.CLASS p.val = cls ∧ m.pState p.val = 5 ∧
      m.flg SUP_FSTAT.HF 0 = true ∧ m.flg SUP_FSTAT.FAULT 0 = true ∧ m.reed n = {} ∧
      ∀ k, tcmKey n ≤ k → k < tcmKey n + 0x40000 → m.peek k 1 = [0]
    (s.m.Issuing n → ∀ c : Fin 16, c.val / 2 = p.val → s.Completes (.bundleExecute c 7) fun m => hard 5 m) ∧
    (s.m.Issuing n → ∀ (c : Fin 16) (item : Fin 8), c.val / 2 = p.val → item.val ≠ 0 → item.val ≠ 7 →
      (d.item = none → r.sb = [] → s.Completes (.bundleExecute c item) fun m =>
        (m.pair p.val).item = some item.val ∧ m.pState p.val = 2 ∧ m.fld SYS_PAIR_MMADDR.ADDR p.val = r.core.pc % 2 ^ 32 ∧ (m.reed n).resv = none ∧
        (∀ x, SMap.get (fun _ => none) d.slots (s.m.fld MSSTAT.SLOT n) = some x → (m.reed n).core = x.core)) ∧
      (d.item = none → r.sb ≠ [] → s.Completes (.bundleExecute c item) fun m =>
        (m.pair p.val).item = some item.val ∧ m.pState p.val = 1 ∧ m.mem = s.m.mem ∧ (m.reed n).core = r.core) ∧
      (d.item ≠ none → s.Completes (.bundleExecute c item) fun m => hard 1 m)) ∧
    (s.m.pState p.val ≠ 2 → ∀ out, s.Completes (.replayEnd p out) fun m => m = s.m) ∧
    (s.m.pState p.val = 2 → ∀ out : Fin 4, out.val ≠ 0 → s.Completes (.replayEnd p out) fun m => hard out.val m) ∧
    (∀ x ws, s.m.pState p.val = 2 → d.back = some (x, ws) → s.Completes (.replayEnd p 0) fun m =>
      m.pState p.val = 0 ∧ (m.pair p.val).back = none ∧ (m.reed n).core.pc = x.core.pc ∧ (m.reed n).core.g = x.core.g ∧
      (m.reed n).resv = r.resvLog ∧ (ws = [] → m.mem = s.m.mem)) ∧
    ((s.m.pState p.val = 0 ∨ s.m.pState p.val = 3) →
      (s.Completes (.comparatorSelfTest p true) fun m => m.now = max s.m.now (d.testFrom + 16000000) ∧
        m.fld SYS_PAIR_MMCNT.TESTS p.val = (s.m.fld SYS_PAIR_MMCNT.TESTS p.val + 1) % 2 ^ 16 ∧
        m.pair p.val = { d with testFrom := d.testFrom + 16000000 } ∧ m.mem = s.m.mem ∧ m.reeds = s.m.reeds) ∧
      (s.Completes (.comparatorSelfTest p false) fun m => hard 4 m))

/-- Milestones, restart and reset of a pair (R401, R402, R417, R473): a milestone timer takes the milestone of a pair at rest or leaves it due; a
reservation that holds it back is cleared after its wait; a restart starts a held pair; a reset clears both cores and their TCMs, takes over
SPLIT and touches no other pair.

The model's own choices and readings here: log entries 4, 5 and 73. -/
def Obligations.MilestonesAndPairCommands : Prop :=
  ∀ (s : State) (r : Req) (p : Fin 8), s.m.held = [] → s.m.HouseSup r →
    let n := 2 * p.val
    let d := s.m.pair p.val
    let taken (t : Nat) (m : Mach) : Prop := m.now = max s.m.now t ∧ (m.pair p.val).due = none ∧ (m.pair p.val).log = [] ∧
      (m.pair p.val).undo = [] ∧ (m.pair p.val).msFrom = m.now ∧ m.fld MSSTAT.SLOT n = 1 - s.m.fld MSSTAT.SLOT n ∧ m.mem = s.m.mem
    (s.m.safePair p.val = true → s.m.pState p.val ≤ 2 →
      let t := d.msFrom + s.m.mint p.val * 16000
      ((s.m.pState p.val = 0 ∧ (s.m.reed n).sb = [] ∧ (s.m.reed n).resv = none) → s.Completes (.milestoneTimer p) fun m => taken t m) ∧
      ((s.m.pState p.val ≠ 0 ∨ (s.m.reed n).sb ≠ [] ∨ (s.m.reed n).resv ≠ none) → s.Completes (.milestoneTimer p) fun m =>
        m.now = max s.m.now t ∧ m.pair p.val = { d with due := d.due.or (some m.now) } ∧ m.regs = s.m.regs ∧ m.mem = s.m.mem)) ∧
    (s.m.safePair p.val = false → s.Completes (.milestoneTimer p) fun m => m = s.m) ∧
    (∀ t, d.due = some t → s.m.safePair p.val = true → s.m.pState p.val = 0 → (s.m.reed n).resv ≠ none →
      ((s.m.reed n).sb = [] → s.Completes (.milestoneReservationWait p) fun m => taken (t + 48000) m ∧ (m.reed n).resv = none) ∧
      ((s.m.reed n).sb ≠ [] → s.Completes (.milestoneReservationWait p) fun m => m.pair p.val = d ∧ (m.reed n).resv = none ∧
        m.now = max s.m.now (t + 48000) ∧ m.mem = s.m.mem)) ∧
    (d.due = none → s.Completes (.milestoneReservationWait p) fun m => m = s.m) ∧
    (s.m.pState p.val = 5 → s.m.pdOn (5 + p.val) = true → s.Completes (.pairRestart r p) fun m =>
      m.pState p.val = 4 ∧ m.pair p.val = { d with start := true } ∧ m.reeds = s.m.reeds ∧ m.mem = s.m.mem) ∧
    (s.m.pState p.val ≠ 5 → s.Completes (.pairRestart r p) fun m => m = { s.m with resp := .written }) ∧
    (s.Completes (.pairResetRequest r p) fun m =>
      m.pState p.val = 4 ∧ m.pair p.val = { start := true } ∧ m.safePair p.val = !(s.m.flg SYS_PAIR_CTRL.SPLIT p.val) ∧ p.val ∈ m.power.wipes ∧
      (∀ c, c / 2 = p.val → m.reed c = {} ∧ ∀ k, tcmKey c ≤ k → k < tcmKey c + 0x40000 → m.peek k 1 = [0]) ∧
      (∀ c, c / 2 ≠ p.val → m.reed c = s.m.reed c))

/-- The scrubber and the wipes (R423, R426, R427, R434): a scrub reads one word with its code: a correctable word is corrected and counted, an
uncorrectable one reported with source 93; no byte changes. A completed wipe is under way no more.

The model's own choices and readings here: log entries 3, 5 and 138. -/
def Obligations.ScrubberAndWipes : Prop :=
  ∀ (s : State) (k : Nat) (u : Fin 3) (w : Fin 14), s.m.held = [] →
    let c := SMap.get eccGood s.m.ecc (k / 8)
    ((s.m.flg SYS_MEM_CTRL.SCRUB 0 = false ∨ s.m.memOn k = false) → s.Completes (.scrubRead k u) fun m => m = s.m) ∧
    (s.m.flg SYS_MEM_CTRL.SCRUB 0 = true → s.m.memOn k = true →
      (u.val = 0 → c = .good → s.Completes (.scrubRead k u) fun m => m = s.m) ∧
      (u.val ≠ 2 → (c = .correctable ∨ (u.val = 1 ∧ c = .good)) → s.Completes (.scrubRead k u) fun m =>
        SMap.get eccGood m.ecc (k / 8) = .good ∧ m.flg SYS_MEM_STAT.CE 0 = true ∧ m.mem = s.m.mem ∧ m.posts = s.m.posts ∧
        ∀ f, ceField (s.m.memOf (k / 8 * 8)).1 = some f →
          m.fld f 0 = min (s.m.fld f 0 + 1) (2 ^ (f.hi - f.lo + 1) - 1)) ∧
      ((u.val = 2 ∨ ∃ b, c = .bad b) → s.Completes (.scrubRead k u) fun m =>
        (∃ b, SMap.get eccGood m.ecc (k / 8) = .bad b) ∧ m.flg SYS_MEM_STAT.UE 0 = true ∧ m.flg SUP_FSTAT.UE 0 = true ∧
        m.fld SYS_MEM_ESRC.SRC 0 = 93 ∧ (m.flg SYS_MEM_ESRC.POISON 0 = true ↔ c = .bad true) ∧
        m.fld SYS_MEM_ESTAMP.STAMP 0 = s.m.now % 2 ^ 64 ∧
        m.mem = s.m.mem)) ∧
    (w.val ∉ s.m.power.wipes → s.Completes (.wipeComplete w) fun m => m = s.m) ∧
    (w.val ∈ s.m.power.wipes → s.Completes (.wipeComplete w) fun m =>
      w.val ∉ m.power.wipes ∧ (∀ v, v ≠ w.val → (v ∈ m.power.wipes ↔ v ∈ s.m.power.wipes)) ∧ m.mem = s.m.mem ∧
      (w.val < 8 → bitOf (m.fld SYS_MEM_STAT.WIPE_PAIR 0) w.val = false) ∧ (w.val = 8 → m.flg SYS_MEM_STAT.WIPE_ONDIE 0 = false) ∧
      (w.val = 9 → m.flg SYS_MEM_STAT.WIPE_DRAM 0 = false))

/-! ### Supervision (R436 to R456) -/

/-- Watchdogs (R441 to R446): the two kick words in turn restart the window; a wrong word, or a kick too early, expires it; so does the end of the
window, after a warning. An expiry of a pair's watchdog resets and holds the pair, one of the device starts last orders.

The model's own choices and readings here: log entries 4, 5 and 74. -/
def Obligations.Watchdogs : Prop :=
  ∀ (s : State) (c : Fin 16) (w : Fin 9) (v : BitVec 32), s.m.held = [] →
    let r : Req := .reed c
    let d := s.m.wd w.val
    let run := wdFld SUP_PWD_STAT.RUN SUP_DWD_STAT.RUN w.val
    let expired (m : Mach) : Prop := m.flg (wdFld SUP_PWD_STAT.EXP SUP_DWD_STAT.EXP w.val) 0 = true ∧ m.flg SUP_FSTAT.FAULT 0 = true ∧
      m.flg run 0 = false ∧
      (w.val < 8 → bitOf (m.fld SUP_FSTAT.PWD 0) w.val = true ∧ m.pState w.val = 5 ∧ ∀ k, k / 2 = w.val → m.reed k = {}) ∧
      (w.val = 8 → m.flg SUP_FSTAT.DWD 0 = true ∧ m.flg SUP_LO_STAT.ACT 0 = true)
    (s.m.HouseSup r → (w.val = 8 ∨ c.val / 2 = w.val) →
      ((s.m.wdEn w.val = false ∨ d.frozen ≠ none) → s.Completes (.watchdogKick r w v) fun m => m = { s.m with resp := .written }) ∧
      (s.m.wdEn w.val = true → d.frozen = none →
        (v = 0xC35A → d.half = false → s.Completes (.watchdogKick r w v) fun m =>
          m.wd w.val = { d with half := true } ∧ m = { s.m with wds := m.wds, resp := .written }) ∧
        (v = 0x3CA5 → d.half = true → (∀ t, d.kicked = some t → s.m.wdMin w.val * 160000 ≤ s.m.now - t) →
          s.Completes (.watchdogKick r w v) fun m => m.wd w.val = { from_ := s.m.now, kicked := some s.m.now } ∧ m.flg run 0 = true) ∧
        ((v ≠ 0xC35A ∧ v ≠ 0x3CA5) ∨ (v = 0x3CA5 ∧ d.half = false) ∨ (v = 0xC35A ∧ d.half = true) ∨
            (v = 0x3CA5 ∧ ∃ t, d.kicked = some t ∧ s.m.now - t < s.m.wdMin w.val * 160000) →
          s.Completes (.watchdogKick r w v) fun m => expired m ∧ m.flg (wdFld SUP_PWD_STAT.EARLY SUP_DWD_STAT.EARLY w.val) 0 = true))) ∧
    (s.m.HouseSup r → w.val ≠ 8 → c.val / 2 ≠ w.val → s.Completes (.watchdogKick r w v) fun m =>
      m.flg SUP_FSTAT.RSVW 0 = true ∧ s.m.OnlyWords m ∧ s.m.WordsBut [SUP_FSTAT.RSVW.addr 0] m) ∧
    (let n := s.m.fld (wdFld SUP_PWD_CTRL.WARN SUP_DWD_CTRL.WARN w.val) 0
     s.m.wdRuns w.val = true → d.warned = false → 0 < n → n < s.m.wdMax w.val → s.Completes (.watchdogWarn w) fun m =>
      m.wd w.val = { d with warned := true } ∧ m.flg (wdFld SUP_PWD_STAT.WARNED SUP_DWD_STAT.WARNED w.val) 0 = true ∧
      m.now = max s.m.now (d.from_ + (s.m.wdMax w.val - n) * 160000) ∧
      (s.m.safePair (s.m.wdPair w.val) = true → (m.reed (2 * s.m.wdPair w.val)).wdwarn = true) ∧ m.mem = s.m.mem) ∧
    (∀ p : Fin 8, w.val = p.val → s.m.wdRuns w.val = true → s.Completes (.pairWatchdogExpiry p) fun m =>
      expired m ∧ m.now = max s.m.now (d.from_ + s.m.wdMax w.val * 160000)) ∧
    (∀ p : Fin 8, w.val = p.val → s.m.wdRuns w.val = false → s.Completes (.pairWatchdogExpiry p) fun m => m = s.m) ∧
    (w.val = 8 → s.m.wdRuns 8 = true → s.Completes .deviceWatchdogExpiry fun m => expired m ∧
      m.now = max s.m.now (d.from_ + s.m.wdMax 8 * 160000)) ∧
    (s.m.sup.grace = none → s.Completes .dwdGraceEnd fun m => m = s.m) ∧
    (∀ t, s.m.sup.grace = some t → (t ≠ 0 ∨ s.m.sup.rec_ = none) → s.Completes .dwdGraceEnd fun m =>
      m.fld SYS_RST_STAT.CAUSE 0 = 4 ∧ m.flg SYS_RST_STAT.CLASS 0 = true ∧ m.sup.grace = none ∧ m.sup.warms = s.m.sup.warms + 1)

/-- Last orders (R447 to R453): a source that starts to detect and is enabled makes last orders active, once; END ends it where no enabled source
detects; records go into the buffer that does not hold the newest, and a committed one is valid. The external fault and the stop timeout.

The model's own choices and readings here: log entries 3, 4, 5, 44, 46, 47 and 48. -/
def Obligations.LastOrders : Prop :=
  ∀ (s : State) (r : Req) (e : Edge) (low : Bool), s.m.held = [] → s.m.HouseSup r →
    let stamp := (s.m.stampEdge e).1
    let active (src : Nat) (m : Mach) : Prop := m.loActive = true ∧ bitOf (m.fld SUP_LO_STAT.SRC 0) src = true ∧
      (s.m.loActive = false → m.flg SUP_FSTAT.LO 0 = true ∧ m.flg SUP_LO_STAT.DONE 0 = false ∧ (∃ b, m.sup.rec_ = some (b, 2)) ∧
        ∀ p < 8, s.m.safePair p = true → (m.reed (2 * p)).lorders = true) ∧
      (s.m.loActive = true → m.sup.rec_ = s.m.sup.rec_ ∧ m.reeds = s.m.reeds ∧ m.slices = s.m.slices)
    let input (i : Nat) (c : Instr) (t : Nat) : Prop :=
      (low = true → s.m.detects i = false → s.m.srcEnabled i = true → s.Completes c fun m => active i m ∧ m.detects i = true ∧
        m.now = max s.m.now t) ∧
      ((low = false ∨ s.m.detects i = true ∨ s.m.srcEnabled i = false) → s.Completes c fun m => m.detects i = low ∧ m.regs = s.m.regs ∧
        m.reeds = s.m.reeds ∧ m.slices = s.m.slices)
    input 0 (.pfWarnInput low e) (stamp + s.m.fld SUP_LO_CFG.PFFILT 0 * 64) ∧
    input 1 (.pfCritInput low e) stamp ∧
    (∀ i : Fin 3, input (2 + i.val) (.supplyMonitorTrip i low e) stamp) ∧
    (s.Completes (.loStartCmd r) fun m => active 6 m) ∧
    (s.m.loHolds = false → s.Completes (.loEndCmd r) fun m => m.loActive = false ∧ m.fld SUP_LO_STAT.SRC 0 = 0 ∧
      m.flg SUP_LO_STAT.DONE 0 = false ∧ m.reeds = s.m.reeds ∧ s.m.WordsBut [SUP_LO_STAT.ACT.addr 0] m) ∧
    (s.m.loHolds = true → s.Completes (.loEndCmd r) fun m => m.loActive = s.m.loActive ∧ m.flg SUP_FSTAT.RSVW 0 = true ∧ s.m.OnlyWords m) ∧
    ((s.m.loActive = true ∨ s.m.sup.rec_ ≠ none) → s.Completes (.loSnapCmd r) fun m => m = { s.m with resp := .written }) ∧
    (s.m.loActive = false → s.m.sup.rec_ = none →
      (s.Completes (.loSnapCmd r) fun m => ∃ b, m.sup.rec_ = some (b, 1) ∧ s.m.recNewest ≠ some b) ∧
      (s.m.fld SUP_LO_CFG.SNAP 0 ≠ 0 → s.Completes .snapshotTimer fun m =>
        let t := s.m.sup.snapFrom + s.m.fld SUP_LO_CFG.SNAP 0 * 16000000
        m.sup.snapFrom = t ∧ m.now = max s.m.now t ∧ ∃ b, m.sup.rec_ = some (b, 0) ∧ s.m.recNewest ≠ some b)) ∧
    (s.m.fld SUP_LO_CFG.SNAP 0 = 0 → s.Completes .snapshotTimer fun m => m = s.m) ∧
    (s.m.sup.rec_ = none → s.Completes .loRecordCommit fun m => m = s.m) ∧
    (∀ b kind, s.m.sup.rec_ = some (b, kind) → b < 2 → natOfBytes (s.m.retGet (recBuf b) 4) = 0x4C4F5244 → s.Completes .loRecordCommit fun m =>
      m.sup.rec_ = none ∧ m.recValid b = true ∧ m.retGet (recBuf b) 4088 = s.m.retGet (recBuf b) 4088 ∧
      (kind = 2 → m.flg SUP_LO_STAT.DONE 0 = true) ∧ m.mem = s.m.mem) ∧
    (low = true → s.m.detects 5 = false → s.Completes (.extfAssert low e) fun m =>
      m.detects 5 = true ∧ m.flg SUP_FSTAT.EXTF 0 = true ∧ m.now = max s.m.now (stamp + s.m.fld SUP_ESC.EXTF_FILT 0 * 64) ∧
      (s.m.fld SUP_ESC.EXTF_ACT 0 = 0 → m.slices = s.m.slices ∧ m.timers = s.m.timers)) ∧
    ((low = false ∨ s.m.detects 5 = true) → s.Completes (.extfAssert low e) fun m => m.detects 5 = low ∧ m.regs = s.m.regs ∧
      m.slices = s.m.slices) ∧
    (∀ (x : Fin 64) (t : Nat), (s.m.slice x.val).supStop = some t → s.m.fld SUP_ESC.STOPTMO 0 ≠ 0 → s.Completes (.stopTimeout x) fun m =>
      m.now = max s.m.now (t + s.m.fld SUP_ESC.STOPTMO 0 * 16000000) ∧
      (s.m.fld AX_LIM_STAT.PHASE x.val = 4 → m.slice x.val = { s.m.slice x.val with supStop := none } ∧ m.regs = s.m.regs) ∧
      (s.m.fld AX_LIM_STAT.PHASE x.val ≠ 4 → m.flg AX_GT_STAT.SHUT x.val = true ∧ bitOf (m.fld AX_GT_CAUSE.CAUSE x.val) 6 = true))

/-! ### Supplies, clock, power domains (R457 to R475) -/

/-- Cold and warm reset (R458 to R460, R470 to R475): what holds the part in reset and what lets go of it; a cold reset leaves every word but those
named at its reset value and every memory empty; a warm reset keeps the retention store.

The model's own choices and readings here: log entries 3, 75 and 76. -/
def Obligations.ResetsOfThePart : Prop :=
  ∀ (s : State) (r : Req) (straps : BitVec 4) (v : BitVec 32) (kept : Bool),
    let cold (cause : Nat) (m : Mach) : Prop := m.fld SYS_RST_STAT.CAUSE 0 = cause ∧ m.flg SYS_RST_STAT.CLASS 0 = false ∧ m.mem = [] ∧ m.ecc = [] ∧
      m.ret = [] ∧ m.slices = [] ∧ m.queues = [] ∧ m.reeds = [] ∧ m.pairs = Mach.reset.pairs ∧ m.now = 0 ∧ m.tap.ctxs = [] ∧ m.host = s.m.host ∧
      m.flash = s.m.flash ∧
      (∀ a, a ∉ [SYS_LC_STAT.STATE.addr 0, SYS_LC_FLOOR.IMG.addr 0, SYS_RST_STAT.CAUSE.addr 0, SYS_BOOT_STAT.MODE.addr 0,
          SUP_FSTAT.FAULT.addr 0, SUP_LO_STAT.V0.addr 0, SUP_LO_SEQ.SEQ.addr 0] →
        (∀ i < 8, a ≠ DBG_NONCE.V.addr 0 + 4 * i) → m.rg a = Mach.reset.rg a)
    let warm (cause : Nat) (m : Mach) : Prop := m.fld SYS_RST_STAT.CAUSE 0 = cause ∧ m.flg SYS_RST_STAT.CLASS 0 = true ∧ m.ret = s.m.ret ∧
      m.mem = [] ∧ m.sup.warms = s.m.sup.warms + 1 ∧ m.fld SYS_RST_STAT.WARMS 0 = min (s.m.sup.warms + 1) 65535 ∧ m.host = s.m.host ∧
      m.rg (SYS_MEM_EADDR.ADDR.addr 0) = s.m.rg (SYS_MEM_EADDR.ADDR.addr 0)
    (s.Completes .supplyLoss fun m => 0 ∈ m.held ∧ (∀ c, c ≠ 0 → (c ∈ m.held ↔ c ∈ s.m.held)) ∧ m.regs = s.m.regs ∧ m.mem = s.m.mem ∧
      m.power.loLoss = (s.m.loActive && s.m.outOfReset)) ∧
    (s.Completes .resetNAssert fun m => 1 ∈ m.held ∧ cold 1 m) ∧
    (s.Completes (.testEnAssert false) fun m => 2 ∈ m.held ∧ cold 2 m) ∧
    (s.Completes (.testEnAssert true) fun m => m.held = s.m.held.filter (fun c => c ≠ 2) ∧ m.mem = s.m.mem) ∧
    (s.Completes (.powerGood straps) fun m => m.held = s.m.held.filter (fun c => 1 < c) ∧ m.power.straps = straps.toNat ∧
      (0 ∈ s.m.held → cold 0 m ∧ (m.held = [] → m.secure.straps = straps.toNat % 8)) ∧
      (s.m.held = [] → m = { s.m with power := { s.m.power with straps := straps.toNat } })) ∧
    (0 ∉ s.m.held → s.Completes (.vcoreReturn kept) fun m => m = s.m) ∧
    (s.m.held = [0] → kept = true → s.m.power.loLoss = true → s.Completes (.vcoreReturn kept) fun m => m.held = [] ∧ warm 6 m) ∧
    (0 ∈ s.m.held → (kept = false ∨ s.m.power.loLoss = false) → s.Completes (.vcoreReturn kept) fun m =>
      m.held = s.m.held.filter (fun c => c ≠ 0) ∧ cold 0 m) ∧
    (s.m.held = [] → s.m.HouseSup r → SYS_RST_CMD.KEY.of v = 0x5752 → s.Completes (.warmResetCmd r v) fun m => warm 5 m) ∧
    (s.m.held = [] → s.m.HouseSup r → SYS_RST_CMD.KEY.of v ≠ 0x5752 → s.Completes (.warmResetCmd r v) fun m =>
      m.flg SYS_RST_STAT.RSVW 0 = true ∧ s.m.OnlyWords m ∧ s.m.WordsBut [SYS_RST_STAT.RSVW.addr 0] m)

/-- The timebase, power domains and voltage (R461 to R469): lock starts the count at 0; its loss goes to holdover and shutters the slices that are
live; a domain switches where R466 lets it and completes later; the step time is refreshed each 64,000 ticks.

A recalibration of the vernier changes no state software can see (R36): the block is as it was.

The model's own choices and readings here: log entries 3, 4, 5, 77, 78 and 123. -/
def Obligations.ClockAndPower : Prop :=
  (∀ (s : State) (r : Req) (d : BitVec 6) (step : BitVec 10), s.m.held = [] → s.m.HouseSup r →
     let lk := s.m.flg TB_STATUS.LOCK 0
     let ho := s.m.flg SYS_CLK_STAT.HOLD 0
     (lk = false → ho = false →
       (s.Completes .timebaseLock fun m => m.now = 0 ∧ m.flg TB_STATUS.LOCK 0 = true ∧ m.sup.snapFrom = 0 ∧
         s.m.WordsBut [TB_STATUS.LOCK.addr 0] m ∧ s.m.MemSame m) ∧
       (s.Completes .vernierCalibrated fun m => m = s.m) ∧ (s.Completes .lockLoss fun m => m = s.m) ∧
       (s.Completes .relock fun m => m = s.m)) ∧
     ((lk = true ∨ ho = true) →
       (s.Completes .timebaseLock fun m => m = s.m) ∧
       (s.Completes .vernierCalibrated fun m => m.flg TB_STATUS.VN_CAL 0 = true ∧ s.m.OnlyWords m ∧ s.m.WordsBut [TB_STATUS.VN_CAL.addr 0] m) ∧
       (s.Completes .lockLoss fun m => m.flg TB_STATUS.LOCK 0 = false ∧ m.flg SYS_CLK_STAT.HOLD 0 = true ∧ m.flg SYS_CLK_STAT.LOST 0 = true ∧
         m.fld SYS_CLK_STAT.LOSSES 0 = min (s.m.fld SYS_CLK_STAT.LOSSES 0 + 1) 255 ∧ m.now = s.m.now ∧
         ∀ x < 72, s.m.liveSlice x = true → m.flg AX_GT_STAT.SHUT x = true ∧ bitOf (m.fld AX_GT_CAUSE.CAUSE x) 10 = true)) ∧
     (ho = true → s.Completes .relock fun m => m.flg TB_STATUS.LOCK 0 = true ∧ m.flg SYS_CLK_STAT.HOLD 0 = false ∧ m.now = s.m.now ∧
       s.m.OnlyWords m) ∧
     (∀ e ∈ [((.pdSwitchOn r d : Instr), true), (.pdSwitchOff r d, false)],
       let ends (st : Nat) (m : Mach) : Prop := m.fld SYS_PD_RES.ST 0 = st ∧ m.fld SYS_PD_RES.DOMAIN 0 = d.toNat ∧ m.power = s.m.power ∧
         s.m.OnlyWords m
       (s.m.power.switch ≠ none → s.Completes e.1 fun m => ends 3 m) ∧
       (s.m.power.switch = none → 48 ≤ d.toNat → s.Completes e.1 fun m => ends 4 m) ∧
       (s.m.power.switch = none → d.toNat < 6 → e.2 = false → s.Completes e.1 fun m => ends 2 m) ∧
       (s.m.power.switch = none → 6 ≤ d.toNat → d.toNat < 48 → e.2 = false → s.m.pdOn d.toNat = true → s.m.domainInUse d.toNat = true →
         s.Completes e.1 fun m => ends 1 m) ∧
       (s.m.power.switch = none → d.toNat < 48 → e.2 = s.m.pdOn d.toNat → (e.2 = true ∨ 6 ≤ d.toNat) → s.Completes e.1 fun m => ends 0 m) ∧
       (s.m.power.switch = none → d.toNat < 48 → e.2 ≠ s.m.pdOn d.toNat → (e.2 = true ∨ (6 ≤ d.toNat ∧ s.m.domainInUse d.toNat = false)) →
         s.Completes e.1 fun m => m.power = { s.m.power with switch := some (d.toNat, e.2) } ∧ m.flg SYS_PD_RES.BUSY 0 = true ∧
           m.fld SYS_PD_RES.ST 0 = 0 ∧ m.fld SYS_PD_RES.DOMAIN 0 = d.toNat ∧ m.fld SYS_PD_STAT.ON 0 = s.m.fld SYS_PD_STAT.ON 0)) ∧
     (s.m.power.switch = none → s.Completes .pdSwitchComplete fun m => m = s.m) ∧
     (∀ n on, s.m.power.switch = some (n, on) → n < 48 → s.Completes .pdSwitchComplete fun m =>
       m.power.switch = none ∧ m.flg SYS_PD_RES.BUSY 0 = false ∧ m.pdOn n = on ∧ (∀ j < 48, j ≠ n → m.pdOn j = s.m.pdOn j) ∧
       (on = true → 42 ≤ n → n < 44 → ∀ k, 0x10000000 + 0x800000 * (n - 42) ≤ k → k < 0x10800000 + 0x800000 * (n - 42) → m.peek k 1 = [0])) ∧
     (s.Completes (.avsRefresh step) fun m => m.now = max s.m.now ((s.m.now / 4096000 + 1) * 4096000) ∧ m.fld SYS_AVS_STEP.STEP 0 = step.toNat ∧
       m.fld SYS_AVS_STEP.MAX 0 = max step.toNat (s.m.fld SYS_AVS_STEP.MAX 0) ∧
       m.flg SYS_AVS_STEP.SLOW 0 = (s.m.flg SYS_AVS_STEP.SLOW 0 || decide (710 < step.toNat)) ∧ s.m.MemSame m)) ∧
  (∀ s : State, s.m.held = [] → s.Completes .vernierRecalibration fun m => m = s.m)

/-! ### Boot, images, life cycle (R476 to R490) -/

/-- The boot ROM and the pair loaders (R478, R483, R486): the ROM waits for the wipe, runs once and gives up with the error R478 names, or has its
image; its end shows DONE and lets the pairs start; a loader latches the record and starts its pair at 0 with the image in its TCM where the
copy's hash is the one latched, and else leaves the pair held.

The image engine (R487, R488): VERIFY and PROGRAM are taken while it is free; its end gives the status of the first check that fails, and a
PROGRAM that fails any leaves the flash as it was.

The model's own choices and readings here: log entries 5, 64, 65, 68 and 142. -/
def Obligations.BootLoadersAndImages : Prop :=
  (∀ (s : State) (p : Fin 8) (a : Nat) (flash ok : Bool), s.m.held = [] →
     let gaveUp (err : Nat) (m : Mach) : Prop := m.secure.boot = 2 ∧ m.secure.err = err ∧ m.mem = s.m.mem ∧ m.regs = s.m.regs
     let ready : Prop := 8 ∉ s.m.power.wipes ∧ s.m.secure.boot = 0 ∧ s.m.recovery = false
     (¬ ready → s.Completes (.bootRom flash) fun m => m = s.m) ∧
     (ready → s.m.lcState = 4 → s.Completes (.bootRom flash) fun m => gaveUp 5 m) ∧
     (ready → s.m.lcState ≠ 4 → s.Completes (.bootRom false) fun m => gaveUp 4 m) ∧
     (ready → s.m.lcState ≠ 4 →
       (∀ b, s.m.headerErr (SMap.getRange Memory.unlisted s.m.flash (s.m.slotBase b) 1280) true ≠ 0) →
       s.Completes (.bootRom true) fun m => gaveUp 1 m) ∧
     (ready → s.m.lcState ≠ 4 → s.Completes (.bootRom flash) fun m => m.secure.boot = 1 ∨ m.secure.boot = 2) ∧
     ((s.m.lcState = 2 ∨ s.m.lcState = 4 ∨ 8 ∈ s.m.power.wipes ∨ s.m.secure.boot = 1 ∨ (s.m.secure.boot = 0 ∧ s.m.recovery = false)) →
       s.Completes (.recoveryImageBoot a) fun m => m = s.m) ∧
     (s.m.lcState ≠ 2 → s.m.lcState ≠ 4 → 8 ∉ s.m.power.wipes → s.m.secure.boot = 2 → 0x10000000 ≤ a → a + 1280 ≤ 0x11000000 →
       s.m.GoodCode a 1280 → s.m.headerErr (s.m.peek a 1280) true ≠ 0 → s.Completes (.recoveryImageBoot a) fun m => gaveUp 1 m) ∧
     (s.m.flg SYS_BOOT_STAT.DONE 0 = false →
       (s.m.secure.boot = 0 → s.Completes .bootComplete fun m => m = s.m) ∧
       (s.m.secure.boot = 2 → s.Completes .bootComplete fun m => m.fld SYS_BOOT_STAT.ERR 0 = s.m.secure.err % 16 ∧ s.m.OnlyWords m ∧
         s.m.WordsBut [SYS_BOOT_STAT.ERR.addr 0] m) ∧
       (s.m.secure.boot = 1 → s.Completes .bootComplete fun m => m.flg SYS_BOOT_STAT.DONE 0 = true ∧ m.fld SYS_BOOT_STAT.ERR 0 = 0 ∧
         (m.pair 0).start = true ∧ (∀ k, 0x10FF0000 ≤ k → k < 0x11000000 → m.peek k 1 = [0]) ∧
         (∀ k, (k < 0x10FF0000 ∨ 0x11000000 ≤ k) → m.peek k 1 = s.m.peek k 1))) ∧
     (s.m.flg SYS_BOOT_STAT.DONE 0 = true → s.Completes .bootComplete fun m => m = s.m) ∧
     (let d := s.m.pair p.val
      let rec_ := (s.m.rg (SYS_PFW_ST.VALID.addr 0 + 8 * p.val)).toNat
      (d.start = true → p.val ∉ s.m.power.wipes → s.m.pdOn (5 + p.val) = true →
        (bitOf rec_ 31 = true → s.Completes (.pairLoaderStart p) fun m =>
          m.pair p.val = { d with
            start := false, loading := true, pfw := s.m.fld (SYS_PFW.ADDR.sh (8 * p.val)) 0, pfwSt := rec_,
            hash := SMap.get (fun _ => []) s.m.secure.hashes p.val, loadAt := s.m.now } ∧
          m.fld (SYS_PFW_ST.PST.sh (8 * p.val)) 0 = 2) ∧
        (bitOf rec_ 31 = false → s.Completes (.pairLoaderStart p) fun m => m.pair p.val = { d with start := false } ∧ m.pState p.val = 5 ∧
          m.fld (SYS_PFW_ST.PST.sh (8 * p.val)) 0 = 5)) ∧
      (d.start = false → s.Completes (.pairLoaderStart p) fun m => m = s.m) ∧
      (d.loading = false → s.Completes (.pairLoaderEnd p ok) fun m => m = s.m) ∧
      (d.loading = true → s.Completes (.pairLoaderEnd p false) fun m => (m.pair p.val).loading = false ∧ m.pState p.val = 5 ∧
        m.fld (SYS_PFW_ST.PST.sh (8 * p.val)) 0 = 5 ∧ m.mem = s.m.mem) ∧
      (let n := 16 * (d.pfwSt % 2 ^ 15)
       d.loading = true → 0 < n → s.m.GoodCode d.pfw n → s.m.bufKey d.pfw n = some d.pfw →
        (Config.sha384 (s.m.peek d.pfw n) = d.hash → s.Completes (.pairLoaderEnd p true) fun m =>
          m.pState p.val = 0 ∧ (m.pair p.val).loading = false ∧ m.fld (SYS_PFW_ST.PST.sh (8 * p.val)) 0 = 4 ∧
          (s.m.safePair p.val = true → m.mem = (s.m.poke (tcmKey (2 * p.val)) (s.m.peek d.pfw n)).mem)) ∧
        (Config.sha384 (s.m.peek d.pfw n) ≠ d.hash → s.Completes (.pairLoaderEnd p true) fun m =>
          m.pState p.val = 5 ∧ (m.pair p.val).loading = false ∧ m.fld (SYS_PFW_ST.PST.sh (8 * p.val)) 0 = 5 ∧ m.mem = s.m.mem)))) ∧
  (∀ (s : State) (r : Req) (flash : Bool), s.m.held = [] → s.m.HouseSup r →
     (∀ e ∈ [((.imgVerify r : Instr), 1), (.imgProgram r, 2)],
       (s.m.flg SYS_IMG_RES.BUSY 0 = true → s.Completes e.1 fun m => m.fld SYS_IMG_RES.ST 0 = 8 ∧ m.secure = s.m.secure ∧ s.m.OnlyWords m) ∧
       (s.m.flg SYS_IMG_RES.BUSY 0 = false → s.Completes e.1 fun m => m.secure = { s.m.secure with imgOp := some e.2 } ∧
         m.flg SYS_IMG_RES.BUSY 0 = true ∧ m.flash = s.m.flash ∧ m.mem = s.m.mem)) ∧
     (s.m.secure.imgOp = none → s.Completes (.imageEngineComplete flash) fun m => m = s.m) ∧
     (∀ op, s.m.secure.imgOp = some op →
       let a := s.m.fld SYS_IMG_ADDR.ADDR 0
       let h := s.m.peek a 1280
       ((a % 64 ≠ 0 ∨ s.m.bufKey a 1280 = none) → s.Completes (.imageEngineComplete flash) fun m =>
         m.fld SYS_IMG_RES.ST 0 = 6 ∧ m.flg SYS_IMG_RES.BUSY 0 = false ∧ m.secure.imgOp = none ∧ m.flash = s.m.flash ∧ m.mem = s.m.mem) ∧
       (a % 64 = 0 → s.m.bufKey a 1280 = some a → s.m.GoodCode a 1280 → s.m.headerErr h false ≠ 0 → s.Completes (.imageEngineComplete flash) fun m =>
         m.fld SYS_IMG_RES.ST 0 = s.m.headerErr h false ∧ m.fld SYS_IMG_RES.SECT 0 = 0 ∧ m.flash = s.m.flash ∧ m.mem = s.m.mem ∧
         m.flg SYS_IMG_RES.BUSY 0 = false) ∧
       (op = 1 ∨ flash = false → s.Completes (.imageEngineComplete flash) fun m => m.flash = s.m.flash ∧ m.secure.imgOp = none ∧
         m.flg SYS_IMG_RES.BUSY 0 = false)))

/-- Life-cycle commands (R484, R485): a wrong KEY, an enabled slice or last orders end any of them; a transition the state allows moves the state
with a cold reset of cause 3; a key goes into a blank slot, a revocation leaves another valid, a floor only rises.

The model's own choices and readings here: log entries 66, 67 and 144. -/
def Obligations.LifeCycle : Prop :=
  ∀ (s : State) (r : Req) (v : BitVec 32), s.m.held = [] → s.m.HouseSup r →
    let p := SYS_LC_CMD.PARAM.of v
    let st := s.m.lcState
    let ends (c : Nat) (m : Mach) : Prop := m.fld SYS_LC_STAT.CST 0 = c ∧ s.m.OnlyWords m ∧ s.m.WordsBut [SYS_LC_STAT.CST.addr 0] m ∧ m.lcState = st
    let free : Prop := SYS_LC_CMD.KEY.of v = 0x4C43 ∧ (∀ x < 72, s.m.en x = false) ∧ s.m.loActive = false
    let moved (t : Nat) (m : Mach) : Prop := m.lcState = t ∧ m.fld SYS_RST_STAT.CAUSE 0 = 3 ∧ m.flg SYS_RST_STAT.CLASS 0 = false ∧ m.mem = []
    (∀ c ∈ [(.lcTransition r v : Instr), .lcKey r v, .lcRevoke r v, .lcFloor r v],
      (SYS_LC_CMD.KEY.of v ≠ 0x4C43 → s.Completes c fun m => ends 3 m) ∧
      (SYS_LC_CMD.KEY.of v = 0x4C43 → ((∃ x < 72, s.m.en x = true) ∨ s.m.loActive = true) → s.Completes c fun m => ends 2 m)) ∧
    (free →
      (p = 1 → st = 0 → s.m.slotState 0 = 1 → s.Completes (.lcTransition r v) fun m => moved 1 m) ∧
      (p = 2 → st = 1 → s.m.flg SYS_LC_STAT.KIMG 0 = true → s.Completes (.lcTransition r v) fun m => moved 2 m) ∧
      (p = 4 → st ≠ 4 → s.Completes (.lcTransition r v) fun m => moved 4 m ∧ ∀ k < 5, (m.fuseKey k).all (· = 0xFF) = true) ∧
      ((p = 1 ∧ (st ≠ 0 ∨ s.m.slotState 0 ≠ 1)) ∨ (p = 2 ∧ (st ≠ 1 ∨ s.m.flg SYS_LC_STAT.KIMG 0 = false)) ∨ (p = 3 ∧ st ≠ 2) ∨
          (p = 4 ∧ st = 4) → s.Completes (.lcTransition r v) fun m => ends 1 m) ∧
      (st ≠ 0 → st ≠ 1 → s.Completes (.lcKey r v) fun m => ends 1 m) ∧
      (st ≤ 1 → 4 < p → s.Completes (.lcKey r v) fun m => ends 3 m) ∧
      (st ≤ 1 → p < 4 → s.m.slotState p = 0 → (s.m.bufKey (s.m.fld SYS_LC_ARG.ADDR 0) 48).isSome = true →
        s.m.GoodCode (s.m.fld SYS_LC_ARG.ADDR 0) 48 →
        s.Completes (.lcKey r v) fun m => m.fuseKey p = s.m.peek (s.m.fld SYS_LC_ARG.ADDR 0) 48 ∧ m.slotState p = 1 ∧
          m.fld SYS_LC_STAT.CST 0 = 0 ∧ (∀ k < 4, k ≠ p → m.slotState k = s.m.slotState k ∧ m.fuseKey k = s.m.fuseKey k)) ∧
      (st ≤ 1 → p < 4 → s.m.slotState p = 3 → s.Completes (.lcKey r v) fun m => ends 4 m) ∧
      (st ≠ 1 → st ≠ 2 → s.Completes (.lcRevoke r v) fun m => ends 1 m) ∧
      ((st = 1 ∨ st = 2) → p < 4 → s.m.slotState p ≠ 3 → (s.m.flg SYS_BOOT_STAT.DONE 0 = false ∨ s.m.fld SYS_BOOT_STAT.KSLOT 0 ≠ p) →
        (∃ j < 4, j ≠ p ∧ s.m.slotState j = 1) → s.Completes (.lcRevoke r v) fun m => m.slotState p = 2 ∧ m.fld SYS_LC_STAT.CST 0 = 0 ∧
          s.m.OnlyWords m ∧ ∀ k < 4, k ≠ p → m.slotState k = s.m.slotState k) ∧
      ((st = 1 ∨ st = 2) → (3 < p ∨ ∀ j < 4, j ≠ p → s.m.slotState j ≠ 1) → s.Completes (.lcRevoke r v) fun m => ends 3 m) ∧
      (∀ e ∈ [(0, SYS_LC_FLOOR.IMG, min 32 s.m.secure.svn), (1, SYS_LC_FLOOR.MCV, 31), (2, SYS_LC_FLOOR.MCG, 31)], p / 64 = e.1 →
        ((s.m.fld e.2.1 0 < p % 64 ∧ p % 64 ≤ e.2.2) → s.Completes (.lcFloor r v) fun m => m.fld e.2.1 0 = p % 64 ∧
          m.fld SYS_LC_STAT.CST 0 = 0 ∧ s.m.OnlyWords m ∧ s.m.WordsBut [e.2.1.addr 0, SYS_LC_STAT.CST.addr 0] m) ∧
        (¬ (s.m.fld e.2.1 0 < p % 64 ∧ p % 64 ≤ e.2.2) → s.Completes (.lcFloor r v) fun m => ends 3 m)) ∧
      (p / 64 = 3 → s.Completes (.lcFloor r v) fun m => ends 3 m))

/-! ### Test access port, debug link and halts (R491 to R510) -/

/-- The TAP's instructions (R492): EXTEST, where the boundary scan is open, holds the part in cold reset; any other instruction lets go of that
hold and keeps the others; IDCODE answers the identification word.

Requests on the link (R25, R493 to R499, R504): a bad CRC is answered 3 and does nothing else; a request repeated is answered as before and
not executed again; a new one reads or writes and is answered with its status. While a write of the link waits at a mirror the link is idle.

The model's own choices and readings here: log entries 80, 109, 110, 117 and 143. -/
def Obligations.TapAndLink : Prop :=
  (∀ (s : State) (cells : List Bool),
     let scan := s.m.tapCode 0 = 0
     let other : List Nat := s.m.held.filter (fun c => c ≠ 7)
     (scan → s.Completes .extest fun m => m.held = 7 :: other ∧ m.fld SYS_RST_STAT.CAUSE 0 = 7 ∧ m.mem = [] ∧ m.dbg.ir = 0) ∧
     (¬ scan → s.Completes .extest fun m => m.held = other ∧ m.dbg = { s.m.dbg with ir := 0xFF } ∧ m.mem = s.m.mem) ∧
     (s.Completes .idcode fun m => m.held = other ∧ m.dbg = { s.m.dbg with ir := 1 } ∧ m.resp = .data 0x16450A53 ∧ m.mem = s.m.mem) ∧
     (s.Completes .bypass fun m => m.held = other ∧ m.dbg = { s.m.dbg with ir := 0xFF } ∧ m.mem = s.m.mem) ∧
     (scan → s.Completes (.samplePreload cells) fun m => m.held = other ∧ m.dbg = { s.m.dbg with ir := 2, cells := cells } ∧
       m.mem = s.m.mem) ∧
     (¬ scan → s.Completes (.samplePreload cells) fun m => m.held = other ∧ m.dbg = { s.m.dbg with ir := 0xFF } ∧ m.mem = s.m.mem)) ∧
  (∀ (s : State) (f : DmrFrame) (a v : BitVec 32), s.m.held = [] →
     let open_ (m : Mach) : Mach := if m.lcState = 2 then m else m.sessOpen
     let m0 := open_ { s.m with dbg := { s.m.dbg with lastGood := s.m.now } }
     let k := (s.m.reed f.core.val).core
     let rows : List (Instr × Nat × Nat) :=
       [(.dmrRd32 f a, 1, 0), (.dmrWr32 f a v, 2, v.toNat), (.dmrRd64 f a, 3, 0), (.dmrRegrd f a, 4, 0), (.dmrRegwr f a v, 5, v.toNat)]
     let taken (op d : Nat) : Prop := dmrCrcOk f op a.toNat d = true ∧ s.m.dbg.seq ≠ some f.seq.toNat ∧ bitsOf f.flags.toNat 3 2 = 0 ∧ f.zero = 0
     (s.m.reqWaits (.debug true) = true → ∀ e ∈ rows, s.Completes e.1 fun m => m = s.m) ∧
     (s.m.reqWaits (.debug true) = false →
       (∀ e ∈ rows,
         let crcOk := dmrCrcOk f e.2.1 a.toNat e.2.2
         (crcOk = false → s.Completes e.1 fun m => m = { s.m with resp := .link 3 0 }) ∧
         (crcOk = true → s.m.dbg.seq = some f.seq.toNat → s.Completes e.1 fun m =>
           m = { m0 with resp := .link s.m.dbg.resp.1 s.m.dbg.resp.2 }) ∧
         (crcOk = true → s.m.dbg.seq ≠ some f.seq.toNat → (bitsOf f.flags.toNat 3 2 ≠ 0 ∨ f.zero ≠ 0) → s.Completes e.1 fun m =>
           m = { m0 with dbg := { m0.dbg with seq := some f.seq.toNat, resp := (4, 0) }, resp := .link 4 0 })) ∧
       (dmrTcm f = false → ∀ key,
         let w := m0.who (.debug (dmrConsume f))
         (taken 1 0 → m0.accessErr w none a.toNat 4 0 = none → m0.memAt none a.toNat 4 = some key → m0.GoodCode key 4 →
           s.Completes (.dmrRd32 f a) fun m => m.resp = .link 0 (BitVec.ofNat 64 (s.m.peekNat key 4)) ∧ m.mem = s.m.mem) ∧
         (taken 3 0 → m0.accessErr w none a.toNat 8 0 = none → m0.memAt none a.toNat 8 = some key → m0.GoodCode key 8 →
           s.Completes (.dmrRd64 f a) fun m => m.resp = .link 0 (BitVec.ofNat 64 (s.m.peekNat key 8)) ∧ m.mem = s.m.mem) ∧
         (taken 2 v.toNat → m0.accessErr (m0.who (.debug true)) none a.toNat 4 1 = none → m0.memAt none a.toNat 4 = some key →
           m0.GoodCode key 4 → s.Completes (.dmrWr32 f a v) fun m => m.resp = .link 0 0 ∧
             m.mem = (s.m.poke key (bytesOfNat 4 v.toNat)).mem)) ∧
       (m0.regErr f.core.val = none →
         (taken 4 0 → a.toNat < 0x40 → s.Completes (.dmrRegrd f a) fun m => m.resp = .link 0 (k.gReg a.toNat) ∧ m.reeds = s.m.reeds) ∧
         (taken 4 0 → a.toNat = 0x2000 → s.Completes (.dmrRegrd f a) fun m => m.resp = .link 0 (BitVec.ofNat 64 k.pc)) ∧
         (taken 5 v.toNat → a.toNat < 0x40 → s.Completes (.dmrRegwr f a v) fun m => m.resp = .link 0 0 ∧
           (((m.reed f.core.val).core.gReg a.toNat).toNat % 2 ^ 32 = v.toNat) ∧
           ∀ j, j ≠ a.toNat → (m.reed f.core.val).core.gReg j = k.gReg j) ∧
         (taken 5 v.toNat → a.toNat = 0x2000 → k.rep = none → s.Completes (.dmrRegwr f a v) fun m =>
           (m.reed f.core.val).core = { k with pc := v.toNat / 16 * 16 })) ∧
       (∀ e, m0.regErr f.core.val = some e →
         (taken 4 0 → s.Completes (.dmrRegrd f a) fun m => m.resp = .link e 0 ∧ m.reeds = s.m.reeds) ∧
         (taken 5 v.toNat → s.Completes (.dmrRegwr f a v) fun m => m.resp = .link e 0 ∧ m.reeds = s.m.reeds))))

/-- Sessions (R496 to R498): open at a good frame in Blank, Development and Return, after the checks of R497 in Field, never in Scrapped; a close,
or 10 s without a good frame, ends one and lets the halts of the link go.

DBG_CMD and breakpoints (R502 to R509): a halt takes a core once its store buffer is empty, the Tapster at once and a slice at its commit fence; a
resume and a step release it; a target out of the session's scope sets ERR; a fed bundle runs at the halted core.

The model's own choices and readings here: log entries 2, 4, 5, 71, 107, 108 and 137. -/
def Obligations.SessionsHaltsSteps : Prop :=
  (∀ s : State, s.m.held = [] →
     let active := s.m.flg DBG_SESS.ACTIVE 0
     let closed (m : Mach) : Prop := m.flg DBG_SESS.ACTIVE 0 = false ∧ m.flg DBG_SESS.HOUSE 0 = false ∧ m.flg DBG_STAT.TAPH 0 = false ∧
       ∀ x < 72, (m.slice x).halted = false
     (s.m.lcState = 4 → s.Completes .sessionOpen fun m => m = s.m) ∧
     (s.m.lcState ≠ 2 → s.m.lcState ≠ 4 → active = false → s.Completes .sessionOpen fun m =>
       m.flg DBG_SESS.ACTIVE 0 = true ∧ m.flg DBG_SESS.HOUSE 0 = true ∧ m.flg DBG_SESS.BSCAN 0 = true ∧ s.m.OnlyWords m ∧
       s.m.WordsBut [DBG_SESS.ACTIVE.addr 0] m) ∧
     (s.m.lcState ≠ 2 → s.m.lcState ≠ 4 → active = true → s.Completes .sessionOpen fun m => m = s.m) ∧
     (s.m.lcState = 2 → ∀ k, k = (s.m.rg (DBG_AUTHBUF.V.addr 0 + 96)).toNat % 256 → (4 ≤ k ∨ s.m.slotState k ≠ 1) →
       s.Completes .sessionOpen fun m => m.fld DBG_SESS.AST 0 = 1 ∧ m.flg DBG_SESS.ACTIVE 0 = active ∧
         ∀ i < 8, m.rg (DBG_NONCE.V.addr 0 + 4 * i) = BitVec.ofNat 32 (Config.free (s.m.fresh + i))) ∧
     (s.m.lcState ≠ 4 → s.m.reqWaits (.debug true) = false →
       (active = true → s.Completes .sessionClose fun m => closed m) ∧
       (active = false → s.Completes .sessionClose fun m => m = { s.m with resp := .written })) ∧
     (active = true → s.Completes .sessionTimeout fun m => closed m ∧ m.now = max s.m.now (s.m.dbg.lastGood + 160000000000)) ∧
     (active = false → s.Completes .sessionTimeout fun m => m = s.m)) ∧
  (∀ (s : State) (t : BitVec 8) (c : Fin 16) (item : Fin 8), s.m.held = [] → s.m.lcState ≠ 4 → (s.m.lcState = 2 → s.m.flg DBG_SESS.ACTIVE 0 = true) →
     s.m.reqWaits (.debug true) = false →
     let n := t.toNat
     let x := n - 0x40
     let halted (i why : Nat) (m : Mach) : Prop := m.coreHalted i = true ∧ m.fld (DBG_CSTAT.WHY.sh (4 * i)) 0 = why ∧
       (m.reed i).haltReq = none ∧ (m.reed i).resv = none ∧ (m.reed i).core.busy = 0 ∧ m.mem = s.m.mem
     (s.m.dbgTarget n = false → ∀ e ∈ [(.debugHalt t : Instr), .debugResume t, .debugStep t], s.Completes e fun m =>
       m.flg DBG_STAT.ERR 0 = true ∧ s.m.OnlyWords m ∧ s.m.WordsBut [DBG_STAT.ERR.addr 0] m) ∧
     (s.m.dbgTarget n = true →
       (n < 16 → s.m.coreHalted n = false → s.m.pState (n / 2) = 0 →
         ((s.m.reed n).sb = [] → s.Completes (.debugHalt t) fun m => halted n 1 m ∧ (m.reed n).link = true) ∧
         ((s.m.reed n).sb ≠ [] → s.Completes (.debugHalt t) fun m =>
           m.reed n = { s.m.reed n with haltReq := some 1, link := true } ∧ m.regs = s.m.regs ∧ m.mem = s.m.mem)) ∧
       (n < 16 → s.m.coreHalted n = true → s.Completes (.debugResume t) fun m => m.coreHalted n = false ∧ (m.reed n).link = false ∧
         (m.reed n).past = true ∧ m.mem = s.m.mem) ∧
       (n < 16 → s.m.coreHalted n = true → s.Completes (.debugStep t) fun m =>
         m = { s.m with dbg := { s.m.dbg with step := some n }, resp := .written }) ∧
       (n = 16 → (s.Completes (.debugHalt t) fun m => m.flg DBG_STAT.TAPH 0 = true ∧ s.m.OnlyWords m) ∧
         (s.Completes (.debugResume t) fun m => m.flg DBG_STAT.TAPH 0 = false ∧ s.m.OnlyWords m)) ∧
       (0x40 ≤ n → (s.m.slice x).halted = false → s.m.flg TB_PG_STAT.RUN (s.m.pgOf x) = true → s.Completes (.debugHalt t) fun m =>
         m.slice x = { s.m.slice x with haltReq := true } ∧ m.regs = s.m.regs) ∧
       (0x40 ≤ n → (s.m.slice x).halted = true →
         (s.Completes (.debugResume t) fun m => (m.slice x).halted = false ∧ (m.slice x).stepping = false ∧
           (s.m.now + 63) / 64 + 16 ≤ (m.slice x).from_) ∧
         (s.Completes (.debugStep t) fun m => (m.slice x).halted = false ∧ (m.slice x).stepping = true ∧
           (s.m.now + 63) / 64 + 16 ≤ (m.slice x).from_))) ∧
     (let i := s.m.coreIdx c.val
      s.m.issues i = true →
       (s.m.bpMatch i = true → (s.m.reed i).sb = [] → s.Completes (.breakpointMatch c) fun m => halted i 3 m ∧ (m.reed i).core.pc = (s.m.reed i).core.pc) ∧
       (s.m.bpMatch i = false → s.Completes (.breakpointMatch c) fun m => m = s.m)) ∧
     (∀ i, s.m.feedable = [i] → s.m.dbg.step = none → s.m.flg DBG_STAT.TAPH 0 = true → item.val = 0 ∨ s.m.safePair (i / 2) = false →
       let k := (s.m.reed i).core
       let word (j : Nat) : Nat := (s.m.rg (DBG_FEED.V.addr 0 + 4 * j)).toNat
       let bits := word 0 + word 1 * 2 ^ 32 + word 2 * 2 ^ 64 + word 3 * 2 ^ 96
       (bunFmt bits = 2 → ∃ m, exec (.feedGo item) s = .next { s with m := m } ∧ m.flg DBG_FEED_ST.REFUSED 0 = true ∧ m.reeds = s.m.reeds) ∧
       (∀ d v, bits = limmBundle d v → d < 0x40 → k.axn = none → ∃ m, exec (.feedGo item) s = .next { s with m := m } ∧ m.flg DBG_FEED_ST.DONE 0 = true ∧
         m.fld DBG_FEED_ST.VEC 0 = 0 ∧ (m.reed i).core = k.setG d v ∧ m.mem = s.m.mem ∧ m.dbg.feed = false)))

/-! ### The Tapster (R243 to R268) -/

/-- Taking a packet (R243 to R246, R250): the packet at HEAD goes into the first free context as the 64 bytes read, in the world its queue and
header give, and HEAD moves on by one; a packet that fails a check of R246 ends at once with that check's status. Of a host ring it reads what the
host answers; a read the host aborts ends INTERNAL.

Starting a command (R244, R246, R250, R251): a command of another opcode, one that has started, one that waits at a BARRIER and any command
under a Tapster halt stay as they are; one whose PLEN is too short ends BAD_PARAM with DETAIL 56; a command that stages waits while its
set is taken.

The model's own choices and readings here: log entries 5, 86, 96 and 135. -/
def Obligations.TapsterTakesAndStarts : Prop :=
  (∀ (s : State) (q : Fin 4096) (host : Option (List Byte)), s.m.held = [] →
     let onHost := s.m.flg QM_CFG.SPACE q.val
     ((s.m.mayTake q.val = false ∨ ∀ i < 256, s.m.ctx i ≠ none) → s.Completes (.commandPacketTake ⟨q, host⟩) fun m => m = s.m) ∧
     ((∃ i < 256, s.m.ctx i = none) → s.m.mayTake q.val = true → onHost = true → host = none → s.Completes (.commandPacketTake ⟨q, host⟩) fun m =>
       m.qHead q.val = (s.m.qHead q.val + 1) % 65536 ∧ m.flg QM_STAT.MEM_ERR q.val = true ∧ m.tap.taken = s.m.tap.taken ∧
       m.tap.ctxs = s.m.tap.ctxs ∧ s.m.Replied q.val [({} : Ctx).reply 0x3F 0 true []] m) ∧
     (∀ j bs, j < 256 → s.m.ctx j = none → (∀ i < j, s.m.ctx i ≠ none) → s.m.mayTake q.val = true →
       ((onHost = true ∧ host = some bs) ∨ (onHost = false ∧ ∃ k, s.m.memAt none (s.m.qEntry q.val (s.m.qHead q.val)) 64 = some k ∧
         s.m.GoodCode k 64 ∧ bs = s.m.peek k 64)) →
       let h := natOfBytes (bs.take 8)
       let own := s.m.flg QM_CFG.OWNER q.val
       let c : Ctx := { q := q.val, guest := own || bitOf h 48, taken := s.m.tap.taken, pkt := packetWords bs, bank := s.m.mcActive,
                        rsvw := headReserved h }
       s.Completes (.commandPacketTake ⟨q, host⟩) fun m =>
         m.qHead q.val = (s.m.qHead q.val + 1) % 65536 ∧ m.qTail q.val = s.m.qTail q.val ∧ m.tap.taken = s.m.tap.taken + 1 ∧ s.m.UnitsSame m ∧
         (s.m.packetErr c (!own || bitOf h 48) = none → m.ctx j = some c ∧ m.tap.replies = s.m.tap.replies ∧ m.mem = s.m.mem) ∧
         (∀ st, s.m.packetErr c (!own || bitOf h 48) = some st → s.m.Ended j c [c.reply st 0 true []] m))) ∧
  (∀ (s : State) (n : Fin 256), s.m.held = [] → ∀ e ∈ tapRows n,
     (s.m.ctx n.val = none → s.Completes e.1 fun m => m = s.m) ∧
     (∀ c, s.m.ctx n.val = some c →
       ((c.started = true ∨ c.op ≠ e.2 ∨ s.m.flg DBG_STAT.TAPH 0 = true ∨ s.m.barred c = true) → s.Completes e.1 fun m => m = s.m) ∧
       (e.2 ∈ [0x104, 0x105, 0x200, 0x201, 0x202, 0x203, 0x204, 0x302, 0x303, 0x500, 0x502] → s.m.targetBusy n.val c = true →
         s.Completes e.1 fun m => m = s.m) ∧
       (c.op = e.2 → c.q < 4096 → c.started = false → c.final = false → c.micro = false → s.m.flg DBG_STAT.TAPH 0 = false →
         s.m.barred c = false → s.m.targetBusy n.val c = false → (∃ k, s.m.entryOf e.2 = some k ∧ c.plen < k.2.2) →
         s.Completes e.1 fun m => s.m.Ended n.val c (c.bad 56) m ∧ s.m.UnitsSame m)))

/-- Emulated and customer opcodes, held replies and the hold timeout (R249, R252, R257, R258, R308): an emulated command goes to the emulation queue as
two entries or ends BAD_OPCODE; a customer opcode starts its routine; a held reply is posted once its queue has room; a hold times out after
1,024 periods.

The model's own choices and readings here: log entries 4, 5, 59, 60 and 63. -/
def Obligations.TapsterEmulationRepliesHolds : Prop :=
  ∀ (s : State) (n : Fin 256) (g : Fin 16), s.m.held = [] →
    (s.m.ctx n.val = none → (s.Completes (.emulatedOpcode n) fun m => m = s.m) ∧ (s.Completes (.guestOpcode n) fun m => m = s.m)) ∧
    (∀ c, s.m.ctx n.val = some c → c.q < 4096 → c.final = false → c.micro = false →
      let may : Prop := c.started = false ∧ s.m.flg DBG_STAT.TAPH 0 = false ∧ s.m.barred c = false
      let eq := s.m.fld TAP_EMUQ.QUEUE 0
      let d := SMap.get noWord (s.m.mbank c.bank).disp c.op
      ((¬ may ∨ c.op < 0x900 ∨ 0xC00 ≤ c.op) → s.Completes (.emulatedOpcode n) fun m => m = s.m) ∧
      ((¬ may ∨ c.op < 0xC00) → s.Completes (.guestOpcode n) fun m => m = s.m) ∧
      (may → 0x900 ≤ c.op → c.op < 0xC00 →
        (s.m.flg TAP_EMUQ.EN 0 = false → s.Completes (.emulatedOpcode n) fun m => s.m.Ended n.val c [c.reply 0x10 0 true []] m) ∧
        (s.m.flg TAP_EMUQ.EN 0 = true → s.m.outReady eq 2 = false → s.Completes (.emulatedOpcode n) fun m =>
          s.m.Ended n.val c [c.reply 0x10 62 true []] m ∧ m.flg TAP_CSTAT.EDROP 0 = true) ∧
        (s.m.flg TAP_EMUQ.EN 0 = true → s.m.outReady eq 2 = true → s.Completes (.emulatedOpcode n) fun m =>
          m.ctx n.val = some { c with started := true } ∧ m.qTail eq = (s.m.qTail eq + 2) % 65536 ∧ m.tap.replies = s.m.tap.replies)) ∧
      (may → 0xC00 ≤ c.op →
        (c.plen < bitsOf d 29 24 → s.Completes (.guestOpcode n) fun m => s.m.Ended n.val c (c.bad 56) m) ∧
        (bitsOf d 29 24 ≤ c.plen → s.Completes (.guestOpcode n) fun m =>
          m.ctx n.val = some { c with started := true, micro := true, pc := bitsOf d 13 0 } ∧ s.m.UnitsSame m ∧ m.mem = s.m.mem))) ∧
    ((∀ r ∈ s.m.tap.replies, s.m.outReady r.1 1 = false ∧ (s.m.flg QM_CFG.SPACE r.1 = false ∨ s.m.flg OP_PCIE_STAT.UP 0 = true)) →
      s.Completes .heldReplyPost fun m => m = s.m) ∧
    (∀ r rs, s.m.tap.replies = r :: rs → r.1 < 4096 → r.2.length = 32 →
      (s.m.outReady r.1 1 = true → s.Completes .heldReplyPost fun m =>
        m.tap.replies = rs ∧ r.1 ∉ m.tap.rlost ∧ m.qTail r.1 = (s.m.qTail r.1 + 1) % 65536 ∧
        (∀ k, s.m.flg QM_CFG.SPACE r.1 = false → s.m.flg QM_CFG.WB r.1 = false → r.1 ∉ s.m.tap.rlost →
          s.m.memAt none (s.m.qEntry r.1 (s.m.qTail r.1)) 32 = some k → m.peek k 32 = r.2)) ∧
      (s.m.flg QM_CFG.SPACE r.1 = true → s.m.flg OP_PCIE_STAT.UP 0 = false → s.Completes .heldReplyPost fun m =>
        m.tap.replies = rs ∧ r.1 ∈ m.tap.rlost ∧ m.flg TAP_CSTAT.RDROP 0 = true ∧ m.host = s.m.host)) ∧
    (s.m.tapHold g.val = none → s.Completes (.tapsterHoldTimeout g) fun m => m = s.m) ∧
    (∀ t, s.m.tapHold g.val = some t → s.Completes (.tapsterHoldTimeout g) fun m =>
      m.now = max s.m.now (t + 1024 * s.m.pgP g.val * 64) ∧ m.flg TB_PG_CTRL.APPLY_HOLD g.val = false ∧ m.tapHold g.val = none ∧
      m.flg TAP_CSTAT.HOLDTMO 0 = true ∧
      ∀ i c, s.m.ctx i = some c → m.ctx i = some (if c.hold = some g.val then
        { c with hold := none, holdTmo := c.holdTmo || s.m.awaitsApply c } else c))

/-- The Tapster commands that read (R259, R261 to R266): each answers its RESULT at once and leaves every unit as it is; STICKY clears what it
reads (R152).

The model's own choices and readings here: log entries 58, 59, 86 and 87. -/
def Obligations.TapsterReads : Prop :=
  ∀ (s : State) (n : Fin 256) (c : Ctx), s.m.held = [] → c.target < 72 ∨ c.target = 1023 →
    let x := c.target
    let w (a : Nat) : List Byte := bytesOfNat 4 (s.m.rg a).toNat
    let answers (i : Instr) (res : List Byte) : Prop := s.Completes i fun m => s.m.Ended n.val c (c.doneReplies res) m ∧ s.m.UnitsSame m
    let ends (i : Instr) (bs : List (List Byte)) : Prop := s.Completes i fun m => s.m.Ended n.val c bs m ∧ s.m.UnitsSame m
    (s.m.Startable n.val 0x000 c → answers (.tapNop n)
      (w (SYS_IDENT.PART.addr 0) ++ bytesOfNat 2 (s.m.mbank s.m.mcActive).version ++ bytesOfNat 1 (bit s.m.mcActive))) ∧
    (s.m.Startable n.val 0x003 c → answers (.tapTime n) (bytesOfNat 8 (s.m.now / 64 * 64))) ∧
    (s.m.Startable n.val 0x20C c → x < 64 →
      let top (f : Fld) : List Byte := bytesOfNat 1 ((s.m.readReg (f.addr x)).toNat / 2 ^ 24)
      answers (.tapStatus n) (bytesOfNat 8 (s.m.fld AX_LIM_OUT_P.POS x) ++ bytesOfNat 2 (s.m.fld AX_LIM_TAG_A.ACTIVE x) ++
        bytesOfNat 2 (s.m.fld AX_LIM_TAG_A.DONE x) ++ top AX_LIM_STAT.PHASE ++ top AX_GT_STAT.SHUT ++ top AX_STATE.RUN ++ top AX_OUT_FLAGS.V)) ∧
    (s.m.Startable n.val 0x301 c → x < 72 →
      let o := c.param 0 2
      let k := c.param 3 1
      ((o % 4 ≠ 0 ∨ 0xFC < o) → ends (.tapBankRd n) (c.bad 0)) ∧
      (o % 4 = 0 → o ≤ 0xFC → (1 < c.param 2 1 ∨ 0x100 < o + 4 * k) → ends (.tapBankRd n) (c.bad 2)) ∧
      (o % 4 = 0 → o + 4 * k ≤ 0x100 → o ≤ 0xFC → c.param 2 1 ≤ 1 → (k = 0 ∨ 4 < k) → ends (.tapBankRd n) (c.bad 3)) ∧
      (o % 4 = 0 → o + 4 * k ≤ 0x100 → c.param 2 1 ≤ 1 → 0 < k → k ≤ 4 →
        answers (.tapBankRd n) ((List.range k).flatMap (fun j =>
          bytesOfNat 4 (s.m.readReg (bankAddr x ((s.m.activeBank x).xor (c.param 2 1 = 1)) (o + 4 * j))).toNat)))) ∧
    (s.m.Startable n.val 0x402 c → x < 72 → answers (.tapTrcStat n) (res24 (w (AX_TRC_STAT.DONE.addr x) ++ w (AX_TRC_WPTR.WPTR.addr x)))) ∧
    (s.m.Startable n.val 0x503 c → 64 ≤ x → x < 72 → answers (.tapBusStat n)
      (w (CV_BRK_STAT.RUN.addr x) ++ w (CV_PRED.MANT.addr x) ++ w (AX_OUT_IQ.MANT.addr x) ++ w (AX_OUT_ID.MANT.addr x))) ∧
    (s.m.Startable n.val 0x604 c → x < 64 →
      let k := c.param 0 1
      let d := 16 * (k - 1)
      (5 < k → ends (.tapCmResult n) (c.bad 0)) ∧
      (k = 0 → answers (.tapCmResult n)
        (w (AX_CM_J.MANT.addr x) ++ w (AX_CM_B.MANT.addr x) ++ w (AX_CM_C.MANT.addr x) ++ w (AX_CM_G.MANT.addr x))) ∧
      (1 ≤ k → k ≤ 4 → answers (.tapCmResult n)
        (w (AX_CM_RES_F.V.addr x + d) ++ w (AX_CM_RES_ZETA.MANT.addr x + d) ++ w (AX_CM_RES_PEAK.MANT.addr x + d))) ∧
      (k = 5 → answers (.tapCmResult n) (w (AX_CM_FV.V.addr x) ++ w (AX_CM_PM.MANT.addr x) ++ w (AX_CM_GM.MANT.addr x)))) ∧
    (s.m.Startable n.val 0x704 c → x < 72 → s.Completes (.tapSticky n) fun m =>
      s.m.Ended n.val c (c.doneReplies (res24 (bytesOfNat 4 (s.m.readReg (Blk.base .sl x + 0x8000)).toNat ++
        bytesOfNat 4 (s.m.readReg (Blk.base .sl x + 0x8084)).toNat))) m ∧ s.m.UnitsSame m ∧
      m.fld AX_DL_STAT.TOTAL x = 0 ∧ m.readReg (Blk.base .sl x + 0x8000) = 0) ∧
    (s.m.Startable n.val 0x001 c →
      let a := c.param 0 4
      let k := c.param 4 1
      (s.m.tapDenied c.guest a k 0 = true → ends (.tapRead n) [c.reply 0x13 0 true []]) ∧
      (s.m.tapDenied c.guest a k 0 = false → (a % 4 ≠ 0 ∨ a < 0x40000) → ends (.tapRead n) (c.bad 0)) ∧
      (s.m.tapDenied c.guest a k 0 = false → a % 4 = 0 → 0x40000 ≤ a → (k = 0 ∨ 4 < k) → ends (.tapRead n) (c.bad 4)) ∧
      (s.m.tapDenied c.guest a k 0 = false → k = 1 → devAt a 4 = true → a < 0x33000000 → rlPart a = .none →
        answers (.tapRead n) (bytesOfNat 4 (s.m.readReg a).toNat)) ∧
      (∀ j, s.m.tapDenied c.guest a k 0 = false → k = 1 → a % 4 = 0 → 0x40000 ≤ a → s.m.memAt none a 4 = some j → s.m.GoodCode j 4 →
        answers (.tapRead n) (s.m.peek j 4)))

/-- The Tapster commands that stage (R250, R252, R260 to R264): the words go, by their cards, into the closed group of the target's set under
the command's tag, and the command waits for its apply; MOVE, STREAM and SWAP turn away what R254, R261 and R262 name.

The model's own choices and readings here: log entries 59, 86, 96 and 132. -/
def Obligations.TapsterStages : Prop :=
  ∀ (s : State) (n : Fin 256) (c : Ctx), s.m.held = [] →
    let x := c.target
    let d := s.m.stage x
    ∀ e ∈ [((.tapChain n : Instr), 0x104), (.tapMap n, 0x105), (.tapMove n, 0x200), (.tapStream n, 0x201), (.tapLimits n, 0x202),
        (.tapStopCfg n, 0x203), (.tapLimmode n, 0x204), (.tapSwap n, 0x302), (.tapIref n, 0x303), (.tapBusSet n, 0x500), (.tapStore n, 0x502)],
      s.m.Startable n.val e.2 c → s.m.targetBusy n.val c = false → (if e.2 = 0x500 ∨ e.2 = 0x502 then 64 ≤ x ∧ x < 72 else x < 64) →
      let off : Bool := !s.m.en x
      let ph := s.m.fld AX_LIM_STAT.PHASE x
      let shut := s.m.flg AX_GT_STAT.SHUT x
      ((e.2 = 0x200 ∨ e.2 = 0x201) → off = true → s.Completes e.1 fun m => s.m.Ended n.val c (c.bad 62) m ∧ s.m.UnitsSame m) ∧
      (e.2 = 0x200 → off = false → shut = true → s.Completes e.1 fun m => s.m.Ended n.val c [c.reply 0x20 0 true []] m ∧ s.m.UnitsSame m) ∧
      (e.2 = 0x200 → off = false → shut = false → (ph = 3 ∨ ph = 4) → s.Completes e.1 fun m => s.m.UnitsSame m ∧
        s.m.Ended n.val c (if 2 ≤ c.ack then [c.reply 2 0 true (res24 (bytesOfNat 1 ph))] else []) m) ∧
      (e.2 = 0x302 → s.m.tuneBusy x = true → s.Completes e.1 fun m => s.m.Ended n.val c (c.bad 62) m ∧ s.m.UnitsSame m) ∧
      ((e.2 = 0x200 ∨ e.2 = 0x201 → off = false) → (e.2 = 0x200 → shut = false ∧ ph ≠ 3 ∧ ph ≠ 4) → (e.2 = 0x302 → s.m.tuneBusy x = false) →
        c.fence = 0 → (d.closed && d.locked) = false → SMap.wf unmarked d.openW = true → s.Completes e.1 fun m =>
          (m.stage x).closed = true ∧ (m.stage x).closedTag = c.tag ∧ (m.stage x).openW = [] ∧ m.flg AX_STAGE_STAT.PENDING x = true ∧
          (∀ w ∈ c.staged, ∀ k, findCard (cardsOf .sl x) (liveOff w.1) = some k →
            SMap.get unmarked (m.stage x).closedW w.1 = some (BitVec.ofNat 32 w.2 &&& k.rd)) ∧
          (∃ c', m.ctx n.val = some c' ∧ c' = { c with started := true, closed := true, gen := d.gen + 1, hold := c'.hold }) ∧
          m.tap.replies = s.m.tap.replies ∧ m.slices = s.m.slices ∧ s.m.MemSame m)

/-- The Tapster commands that write registers (R248, R259, R260, R262 to R265): the words named hold the parameters, in the bits their cards make
writable, and the command ends DONE; words of a slice that is enabled or runs are refused with its CFG_ERR.

The model's own choices and readings here: log entries 58, 59, 86 and 87. -/
def Obligations.TapsterWrites : Prop :=
  ∀ (s : State) (n : Fin 256) (c : Ctx), s.m.held = [] →
    let x := c.target
    let b := Blk.base .sl x
    let done (i : Instr) (P : Mach → Prop) : Prop := s.Completes i fun m => s.m.Ended n.val c (c.doneReplies []) m ∧ P m
    let refused (i : Instr) (code : Nat) : Prop := s.Completes i fun m => s.m.Ended n.val c (c.refusal code) m ∧ m.fld AX_STATE.CFG_ERR x = code ∧
      s.m.UnitsSame m
    (∀ e ∈ [((.tapGeometry n : Instr), 0x102, [(b + 8, c.param 0 4), (b + 0xC, c.param 4 4), (b + 0x10, c.param 8 1), (b + 0x14, c.param 12 4)]),
        (.tapScales n, 0x103, [(b + 0x18, c.param 0 4), (b + 0x1C, c.param 4 4)] ++ (if x < 64 then
          [(b + 0x20, c.param 8 4), (b + 0x24, c.param 12 4), (b + 0x2C, c.param 16 4)] else [])),
        (.tapTimer n, 0x106, [(b + 0x4000, c.param 0 4), (b + 0x4004, c.param 4 4), (b + 0x4008, c.param 8 4)] ++
          (if 64 ≤ x then [(b + 0x400C, c.param 12 4)] else [(b + 0x400C, c.param 12 4 % 64)]) ++
          (List.range (legsOf x)).map (fun l => (b + 0x4010 + 4 * l, c.param (16 + 4 * l) 4)))],
      s.m.Startable n.val e.2.1 c → x < (if e.2.1 = 0x102 then 64 else 72) →
        (s.m.liveSlice x = false → done e.1 fun m => m.Holds e.2.2 ∧ m.fld AX_STATE.CFG_ERR x = 0 ∧ (e.2.1 ≠ 0x106 → s.m.UnitsSame m) ∧
          m.slices = s.m.slices ∧ m.stages = s.m.stages ∧ m.groups = s.m.groups ∧ ∀ y, y ≠ x → m.timer y = s.m.timer y) ∧
        (s.m.liveSlice x = true → refused e.1 4)) ∧
    (s.m.Startable n.val 0x300 c → x < 72 →
      let o := c.param 0 2
      let k := c.param 2 1
      ((o % 4 ≠ 0 ∨ 0xFC < o) → s.Completes (.tapBankWr n) fun m => s.m.Ended n.val c (c.bad 0) m ∧ s.m.UnitsSame m) ∧
      (o % 4 = 0 → o ≤ 0xFC → (k = 0 ∨ 12 < k ∨ 0x100 < o + 4 * k) → s.Completes (.tapBankWr n) fun m =>
        s.m.Ended n.val c (c.bad 2) m ∧ s.m.UnitsSame m) ∧
      (o % 4 = 0 → o + 4 * k ≤ 0x100 → 0 < k → k ≤ 12 → 8 + 4 * k ≤ c.plen →
        (s.m.tuneBusy x = true → s.Completes (.tapBankWr n) fun m => s.m.Ended n.val c (c.bad 62) m ∧ s.m.UnitsSame m) ∧
        (s.m.tuneBusy x = false → done (.tapBankWr n) fun m => s.m.UnitsSame m ∧
          m.Holds ((List.range k).map (fun j => (bankAddr x (!s.m.activeBank x) (o + 4 * j), c.param (8 + 4 * j) 4))) ∧
          ∀ j < 64, m.rg (bankAddr x (s.m.activeBank x) (4 * j)) = s.m.rg (bankAddr x (s.m.activeBank x) (4 * j))))) ∧
    (s.m.Startable n.val 0x501 c → 64 ≤ x → x < 72 → done (.tapBroker n) fun m => s.m.UnitsSame m ∧
      m.Holds [(b + 0x6080, c.param 0 4), (b + 0x6084, c.param 4 4)]) ∧
    (s.m.Startable n.val 0x602 c → x < 64 → done (.tapCmPolicy n) fun m => s.m.UnitsSame m ∧
      m.Holds (c.words 0 [b + 0x6500, b + 0x6504, b + 0x6508, b + 0x650C, b + 0x6510, b + 0x6514, b + 0x6518, b + 0x651C, b + 0x6520, b + 0x6524,
        b + 0x6528, b + 0x652C, b + 0x6530])) ∧
    (s.m.Startable n.val 0x603 c → x < 64 → bitOf (c.param 0 4) 31 = false → done (.tapCmAdapt n) fun m => s.m.UnitsSame m ∧
      m.flg AX_CM_ADAPT.NT_EN x = false ∧ m.Holds [(b + 0x6544, c.param 4 4), (b + 0x6550, c.param 8 4)]) ∧
    (s.m.Startable n.val 0x400 c → x < 72 → done (.tapTrcCfg n) fun m =>
      m.rg (AX_TRC_SEL.N0.addr x) = BitVec.ofNat 32 (c.param 4 4) ∧ m.Holds [(b + 0xA008, c.param 8 4), (b + 0xA010, c.param 12 4)] ∧
      m.fld AX_TRC_CTRL.MODE x = AX_TRC_CTRL.MODE.of (BitVec.ofNat 32 (c.param 0 4)) ∧
      m.fld AX_TRC_STAT.SELGEN x = (s.m.fld AX_TRC_STAT.SELGEN x + 1) % 256 ∧ m.timers = s.m.timers) ∧
    (s.m.Startable n.val 0x107 c → 96 ≤ x → x < 112 →
      let g := x - 96
      let on := c.param 20 1 % 2 = 1
      (s.m.pgOn g = true → on → s.Completes (.tapGroup n) fun m => s.m.Ended n.val c (c.refusal 3) m ∧ m.pgOn g = true ∧ s.m.UnitsSame m) ∧
      (s.m.pgOn g = true → ¬ on → (∃ y ∈ s.m.members g, s.m.en y = true) → s.Completes (.tapGroup n) fun m =>
        s.m.Ended n.val c (c.refusal 4) m ∧ m.pgOn g = true ∧ s.m.UnitsSame m) ∧
      (s.m.pgOn g = false → s.Completes (.tapGroup n) fun m =>
        (∀ reg < 5, ∀ f ∈ timingFields reg, m.fld f g = f.of (BitVec.ofNat 32 (c.param (4 * reg) 4))) ∧
        (¬ on → m.pgOn g = false ∧ s.m.Ended n.val c (c.doneReplies (res24 [0])) m) ∧
        (on → m.groupErr g = 0 → m.pgOn g = true ∧ s.m.Ended n.val c (c.doneReplies (res24 [0])) m) ∧
        (on → m.groupErr g ≠ 0 → m.pgOn g = false ∧ s.m.Ended n.val c (c.refusal (m.groupErr g)) m))) ∧
    (s.m.Startable n.val 0x002 c →
      let a := c.param 0 4
      let k := c.param 4 1
      ((a % 4 ≠ 0 ∨ a < 0x40000) → s.Completes (.tapWrite n) fun m => s.m.Ended n.val c (c.bad 0) m ∧ s.m.UnitsSame m) ∧
      (a % 4 = 0 → 0x40000 ≤ a → (k = 0 ∨ 4 < k) → s.Completes (.tapWrite n) fun m => s.m.Ended n.val c (c.bad 4) m ∧ s.m.UnitsSame m) ∧
      (a % 4 = 0 → 0x40000 ≤ a → k = 1 → c.guest = true → (a < 0x33000000 ∨ 0x34000000 ≤ a) → devAt a 4 = true → 12 ≤ c.plen →
        s.Completes (.tapWrite n) fun m => s.m.Ended n.val c [c.reply 0x13 0 true []] m ∧ s.m.UnitsSame m) ∧
      (∀ blk i, k = 1 → c.guest = false → devAt a 4 = true → blkOf a = some (blk, i) → (blk = .sys ∨ blk = .tb ∨ blk = .cell ∨ blk = .vis) →
        12 ≤ c.plen → done (.tapWrite n) fun m => s.m.UnitsSame m ∧
          ∀ d, cardAt a = some d → d.w1c = 0 → d.w1s = 0 → m.Holds [(a, c.param 8 4)]))

/-- The Tapster commands that act on a slice or a group (R252, R254, R260, R261, R265, R266): what each does at once, and whether it ends, is refused or
goes on after ACCEPTED.

The Tapster commands that act on the device (R257, R266, R267, R317): calibration, injection, comparator checks, vision triggers, windows, the
completion of an emulated command and the microcode swap.

The model's own choices and readings here: log entries 58, 59, 86, 87, 88, 90, 91 and 133. -/
def Obligations.TapsterActs : Prop :=
  (∀ (s : State) (n : Fin 256) (c : Ctx), s.m.held = [] →
     let x := c.target
     let a := Blk.base .sl x
     let ends (i : Instr) (bs : List (List Byte)) (P : Mach → Prop) : Prop := s.Completes i fun m => s.m.Ended n.val c bs m ∧ P m
     let goesOn (i : Instr) (c' : Ctx) (P : Mach → Prop) : Prop := s.Completes i fun m => s.m.Accepts n.val c c' m ∧ P m
     (s.m.Startable n.val 0x100 c → x < 72 →
       let w := c.param 0 4 ||| 2 ^ 31
       let same : Prop := s.m.en x = true ∧ (s.m.rg a).toNat = w
       (same → ends (.tapEnable n) (c.doneReplies []) fun m => s.m.UnitsSame m) ∧
       (¬ same → s.m.liveSlice x = true → ends (.tapEnable n) (c.refusal 4) fun m => s.m.UnitsSame m) ∧
       (s.m.liveSlice x = false → s.Completes (.tapEnable n) fun m =>
         (m.fld AX_STATE.CFG_ERR x = 0 → m.en x = true ∧ s.m.Accepts n.val c c m ∧
           (m.slice x).from_ = (s.m.now + 63) / 64 + 16) ∧
         (m.fld AX_STATE.CFG_ERR x ≠ 0 → m.en x = false ∧ s.m.Ended n.val c (c.refusal (m.fld AX_STATE.CFG_ERR x)) m))) ∧
     (s.m.Startable n.val 0x101 c → x < 72 →
       (s.m.liveSlice x = false → ends (.tapDisable n) (c.doneReplies []) fun m => s.m.UnitsSame m) ∧
       (s.m.liveSlice x = true → (x < 64 ∨ s.m.companion x = none) → goesOn (.tapDisable n) c fun m => m.en x = false) ∧
       (s.m.en x = true → 64 ≤ x → (s.m.companion x).isSome = true → ends (.tapDisable n) (c.refusal 7) fun m => m.en x = true)) ∧
     (s.m.Startable n.val 0x208 c → x < 64 →
       let stands : Prop := s.m.servo x = true ∧ (s.m.fld AX_LIM_STAT.PHASE x = 3 ∨ s.m.fld AX_LIM_STAT.PHASE x = 4)
       (s.m.liveSlice x = false ∨ stands → goesOn (.tapStop n) c fun m => s.m.UnitsSame m) ∧
       (s.m.liveSlice x = true → ¬ stands →
         goesOn (.tapStop n) c fun m => m.slice x = { s.m.slice x with stopTrig := true })) ∧
     (s.m.Startable n.val 0x209 c → x < 64 →
       let ph := s.m.fld AX_LIM_STAT.PHASE x
       ends (.tapRelease n) (c.doneReplies (res24 (bytesOfNat 1 ph))) fun m =>
         m.slice x = (if ph = 4 ∧ s.m.flg AX_STATE.RUN x = true then { s.m.slice x with relTrig := true } else s.m.slice x)) ∧
     (s.m.Startable n.val 0x20A c → x < 72 →
       let st := if s.m.flg AX_GT_STAT.SHUT x then s.m.fld AX_GT_SHSTAMP.STAMP x else s.m.now % 2 ^ 64
       ends (.tapShut n) (c.doneReplies (bytesOfNat 8 st)) fun m =>
         m.flg AX_GT_STAT.SHUT x = true ∧ bitOf (m.fld AX_GT_CAUSE.CAUSE x) 0 = true ∧ m.fld AX_GT_SHSTAMP.STAMP x = st) ∧
     (s.m.Startable n.val 0x20B c → x < 72 →
       (s.m.flg AX_GT_STAT.SHUT x = false → ends (.tapUnshut n) (c.doneReplies []) fun m => s.m.UnitsSame m) ∧
       (s.m.flg AX_GT_STAT.SHUT x = true → s.m.releaseBlocked x = true →
         ends (.tapUnshut n) [c.reply 0x20 0 true (res24 (bytesOfNat 2 (s.m.fld AX_GT_CAUSE.CAUSE x)))] fun m =>
           m.flg AX_GT_STAT.SHUT x = true ∧ m.flg AX_GT_STAT.REL_REFUSED x = true) ∧
       (s.m.flg AX_GT_STAT.SHUT x = true → s.m.releaseBlocked x = false → goesOn (.tapUnshut n) c fun m => m.fld AX_GT_CAUSE.CAUSE x = 0)) ∧
     (s.m.Startable n.val 0x401 c → x < 72 →
       (c.param 0 1 % 2 = 0 → s.Completes (.tapTrcTrig n) fun m =>
         s.m.Ended n.val c (c.doneReplies (res24 (bytesOfNat 4 (m.rg (AX_TRC_WPTR.WPTR.addr x)).toNat))) m) ∧
       (c.param 0 1 % 2 = 1 → s.m.fld AX_TRC_CTRL.MODE x = 2 → (s.m.slice x).trace.left = none →
         goesOn (.tapTrcTrig n) c fun m => (m.slice x).trace.swtrig = true)) ∧
     (s.m.Startable n.val 0x600 c → x < 64 →
       let seq := c.param 0 1
       ((seq = 0 ∨ 6 < seq) → ends (.tapCmStart n) (c.bad 0) fun m => s.m.UnitsSame m) ∧
       (0 < seq → seq ≤ 6 → 7 < c.param 1 1 → ends (.tapCmStart n) (c.bad 1) fun m => s.m.UnitsSame m) ∧
       (0 < seq → seq ≤ 6 → c.param 1 1 ≤ 7 → 3 < c.param 2 1 → ends (.tapCmStart n) (c.bad 2) fun m => s.m.UnitsSame m) ∧
       (0 < seq → seq ≤ 6 → c.param 1 1 ≤ 7 → c.param 2 1 ≤ 3 → s.Completes (.tapCmStart n) fun m =>
         m.fld AX_CM_STAT.SEQ x = seq ∧
         (m.fld AX_CM_STAT.ST x = 6 → s.m.Ended n.val c (c.refusal (m.fld AX_CM_STAT.CAUSE x)) m ∧ m.comm x = s.m.comm x) ∧
         (m.fld AX_CM_STAT.ST x ≠ 6 → s.m.Accepts n.val c c m ∧ (m.comm x).seq = seq))) ∧
     (s.m.Startable n.val 0x601 c → x < 64 →
       ((s.m.comm x).part = 0 → ends (.tapCmAbort n) (c.doneReplies (res24 (bytesOfNat 1 (s.m.fld AX_CM_STAT.ST x)))) fun m => s.m.UnitsSame m) ∧
       ((s.m.comm x).part ≠ 0 → (s.m.liveSlice x && s.m.pgOn (s.m.pgOf x)) = true →
         ends (.tapCmAbort n) (c.doneReplies (res24 (bytesOfNat 1 (s.m.fld AX_CM_STAT.ST x)))) fun m =>
           m.comm x = { s.m.comm x with abort := 12 })) ∧
     (s.m.Startable n.val 0x703 c → x < 72 → goesOn (.tapSliceReset n) c fun m =>
       (m.slice x).dyn = { bank := (s.m.slice x).dyn.bank } ∧ (m.slice x).flight = none ∧ (m.stage x).openW = [] ∧ (m.stage x).closed = false ∧
       m.readReg (a + 0x8000) = 0) ∧
     (s.m.Startable n.val 0x802 c → 96 ≤ x → x < 112 →
       let g := x - 96
       (s.m.tapHold g = none → ends (.tapBatchRel n) (c.doneReplies []) fun m => s.m.UnitsSame m) ∧
       (∀ t, s.m.tapHold g = some t → goesOn (.tapBatchRel n) { c with note := (s.m.group g).kA } fun m =>
         m.flg TB_PG_CTRL.APPLY_HOLD g = false ∧ m.tapHold g = none))) ∧
  (∀ (s : State) (n : Fin 256) (c : Ctx), s.m.held = [] →
     let ends (i : Instr) (bs : List (List Byte)) : Prop := s.Completes i fun m => s.m.Ended n.val c bs m ∧ s.m.UnitsSame m
     let goesOn (i : Instr) (P : Mach → Prop) : Prop := s.Completes i fun m => s.m.Accepts n.val c c m ∧ P m
     (s.m.Startable n.val 0x700 c →
       let b := c.param 0 1
       let cmd := c.param 1 1
       (15 < b → ends (.tapCal n) (c.bad 0)) ∧
       (b ≤ 15 → (cmd = 0 ∨ 3 < cmd) → ends (.tapCal n) (c.bad 1)) ∧
       (b ≤ 15 → 1 ≤ cmd → cmd ≤ 3 → s.m.spareReady b = false → ends (.tapCal n) (c.bad 62)) ∧
       (b ≤ 15 → cmd = 3 → s.m.spareReady b = true → s.Completes (.tapCal n) fun m =>
         s.m.Ended n.val c (c.doneReplies (m.calRes b)) m ∧ (m.bank b).left = 0 ∧ m.flg CB_CAL_CTRL.AUTO b = false) ∧
       (b ≤ 15 → (cmd = 1 ∨ cmd = 2) → s.m.spareReady b = true → goesOn (.tapCal n) fun m =>
         (m.bank b).left = (s.m.bank b).left + (if cmd = 1 then 1 else 13) - (if s.m.fld CB_CAL_STAT.PHASE b = 0 then 1 else 0))) ∧
     (s.m.Startable n.val 0x701 c →
       let b := c.param 0 1
       let src := c.param 1 1
       (15 < b → ends (.tapInject n) (c.bad 0)) ∧
       (b ≤ 15 → 15 < src → ends (.tapInject n) (c.bad 1)) ∧
       (b ≤ 15 → src ≤ 15 → 15 < c.param 4 1 → ends (.tapInject n) (c.bad 4)) ∧
       (b ≤ 15 → src ≤ 7 → (src = 4 → c.param 2 1 / 16 = b) → c.param 4 1 ≤ 15 → c.param 3 1 % 2 = 0 → s.m.spareReady b = true →
         (s.m.bank b).reqs.length < 4 → goesOn (.tapInject n) fun m => ∃ q, (m.bank b).reqs = (s.m.bank b).reqs ++ [q] ∧
           q.src = src ∧ q.cmp = c.param 2 1 ∧ q.use = 16 + n.val ∧ q.arrive = s.m.now)) ∧
     (s.m.Startable n.val 0x702 c →
       let k := c.param 0 1
       let kind := c.param 1 1
       ((kind = 0 ∨ 3 < kind) → ends (.tapCmpChk n) (c.bad 1)) ∧
       (1 ≤ kind → kind ≤ 3 → 1 < c.param 2 1 → ends (.tapCmpChk n) (c.bad 2)) ∧
       (1 ≤ kind → kind ≤ 3 → c.param 2 1 ≤ 1 → 15 < c.param 3 1 → ends (.tapCmpChk n) (c.bad 3)) ∧
       (1 ≤ kind → kind ≤ 3 → c.param 2 1 ≤ 1 → c.param 3 1 ≤ 15 → (s.m.flg CMP_CTRL.EN k = false ∨ s.m.flg CMP_CHK_RES.BUSY k = true) →
         goesOn (.tapCmpChk n) fun m => m.fld CMP_CHK_RES.ST k = 10 ∧ m.flg CMP_CHK_RES.BUSY k = s.m.flg CMP_CHK_RES.BUSY k ∧
           m.cmps = s.m.cmps) ∧
       (1 ≤ kind → kind ≤ 2 → c.param 2 1 ≤ 1 → c.param 3 1 ≤ 15 → s.m.flg CMP_CTRL.EN k = true → s.m.flg CMP_CHK_RES.BUSY k = false →
         s.m.inWindow k = false → goesOn (.tapCmpChk n) fun m => m.flg CMP_CHK_RES.BUSY k = true ∧
           (m.cmp k).check.isSome = true)) ∧
     (s.m.Startable n.val 0x800 c →
       let o := c.param 0 1
       let t := c.param 8 8
       let w := c.param 16 2
       let free : Prop := (s.m.vis o).pulses.length < 8 ∧ ∀ p ∈ (s.m.vis o).pulses, p.1 + p.2 ≤ t ∨ t + 16 * w ≤ p.1
       (15 < o → ends (.tapTrigAt n) (c.bad 0)) ∧
       (o ≤ 15 → t < s.m.now + 16000 → ends (.tapTrigAt n) (c.bad 8)) ∧
       (o ≤ 15 → s.m.now + 16000 ≤ t → w < 8 → ends (.tapTrigAt n) (c.bad 16)) ∧
       (o ≤ 15 → s.m.now + 16000 ≤ t → 8 ≤ w → ¬ free → ends (.tapTrigAt n) (c.bad 62)) ∧
       (o ≤ 15 → s.m.now + 16000 ≤ t → 8 ≤ w → free → goesOn (.tapTrigAt n) fun m =>
         (t, 16 * w) ∈ (m.vis o).pulses ∧ (m.vis o).pulses.length = (s.m.vis o).pulses.length + 1)) ∧
     (s.m.Startable n.val 0x801 c →
       let w := c.param 0 1
       let v : BitVec 32 := BitVec.ofNat 32 (c.param 4 4)
       let guestTrip : Prop := c.guest = true ∧ TB_TW_CTRL.ACT.of v = 2
       (guestTrip → ends (.tapWindow n) [c.reply 0x13 0 true []]) ∧
       (¬ guestTrip → 63 < w → ends (.tapWindow n) (c.bad 0)) ∧
       (¬ guestTrip → w ≤ 63 → s.m.flg TB_TW_CTRL.EN w = false → goesOn (.tapWindow n) fun m =>
         m.fld TB_TW_OPEN.BOUND w = c.param 8 8 ∧ m.fld TB_TW_CLOSE.BOUND w = c.param 16 8 ∧
         (c.param 16 8 ≤ c.param 8 8 → m.flg TB_TW_CTRL.EN w = false ∧ m.fld TB_TW_RESULT.VERDICT w = 4) ∧
         (c.param 8 8 < c.param 16 8 → TB_TW_CTRL.MODE.of v = 0 → s.m.now ≤ c.param 16 8 + 128 →
           m.flg TB_TW_CTRL.EN w = true ∧ (m.win w).open_ = c.param 8 8 ∧ (m.win w).close = c.param 16 8))) ∧
     (s.m.Startable n.val 0x00F c →
       ((∀ j d, s.m.ctx j = some d → c.names d = false) → SMap.wf (fun _ => none) s.m.tap.ctxs = true → ends (.tapEmuDone n) (c.bad 0)) ∧
       (∀ j d, j < 256 → s.m.ctx j = some d → c.names d = true → d.q < 4096 → d.micro = false → d.ack = 3 → c.ack = 3 → c.accepted = false →
         SMap.wf (fun _ => none) s.m.tap.ctxs = true → (∀ i e, s.m.ctx i = some e → c.names e = true → i = j) →
         let st := c.param 8 1
         let sent := if (0x10 ≤ st ∧ st ≤ 0x21) ∨ st = 0x3F then st else 0x30
         s.Completes (.tapEmuDone n) fun m => m.ctx j = none ∧ m.ctx n.val = none ∧ s.m.UnitsSame m ∧
           (s.m.flg QM_CFG.SPACE (s.m.fld QM_LINK.RQ d.q) = false → s.m.outReady (s.m.fld QM_LINK.RQ d.q) 1 = false → d.q = c.q →
             s.m.tap.replies.length + 3 ≤ 256 → m.tap.replies = s.m.tap.replies ++
               ([d.reply sent 0 true (bytesOfNat 16 (c.param 16 16)), c.reply 1 0 false [], c.reply 0 0 true []]).map
                 (fun b => (s.m.fld QM_LINK.RQ d.q, b))))) ∧
     (s.m.Startable n.val 0x010 c →
       let swst (m : Mach) : List Byte := bytesOfNat 8 0 ++ bytesOfNat 1 (m.fld TAP_MC_STAT.LDST 0) ++ bytesOfNat 1 (m.fld TAP_MC_STAT.SWST 0)
       (s.m.mcBusy = true → ends (.tapMcSwap n) (c.bad 62)) ∧
       (s.m.mcBusy = false → c.param 0 1 % 2 = 0 → (s.m.mbank (!s.m.mcActive)).valid = false → s.Completes (.tapMcSwap n) fun m =>
         s.m.Ended n.val c [c.reply 0x12 63 true (swst m)] m ∧ m.fld TAP_MC_STAT.SWST 0 = 1 ∧ m.mcActive = s.m.mcActive) ∧
       (s.m.mcBusy = false → c.param 0 1 % 2 = 0 → (s.m.mbank (!s.m.mcActive)).valid = true → s.Completes (.tapMcSwap n) fun m =>
         m.tap.mc = some n.val ∧ m.flg TAP_MC_STAT.SWAP 0 = true ∧
         (s.m.cmHolds = true → m.mcActive = s.m.mcActive ∧ m.tap.swapFrom = some s.m.now) ∧
         (s.m.cmHolds = false → m.mcActive = !s.m.mcActive ∧ m.tap.swapFrom = none ∧
           m.ctx 256 = some { bank := !s.m.mcActive, started := true, micro := true })) ∧
       (s.m.mcBusy = false → c.param 0 1 % 2 = 1 → s.m.oldRuns = true → s.Completes (.tapMcSwap n) fun m =>
         s.m.Ended n.val c [c.reply 0x12 63 true (swst m)] m ∧ m.fld TAP_MC_STAT.LDST 0 = 5) ∧
       (s.m.mcBusy = false → c.param 0 1 % 2 = 1 → s.m.oldRuns = false → s.Completes (.tapMcSwap n) fun m =>
         m.tap.mc = some n.val ∧ m.flg TAP_MC_STAT.LOAD 0 = true ∧ m.tap.load = some (true, c.param 4 4, c.param 8 4) ∧
         (m.mbank (!m.mcActive)).valid = false ∧ m.mcActive = s.m.mcActive)))

/-! ### The micro-sequencer and its stores (R299 to R318) -/

/-- A micro-step that starts no external operation (R301 to R304, R307), of the context whose turn it is: D, the flags and the reply word are written
where the guard lets them be, and the sequencer goes on as SEQ says; END after the final reply frees the context.

Faults, waits and what does not step (R301, R302, R306, R307, R309, R310): a context whose turn it is not stays; a fault records its cause,
opcode and address, ends the command INTERNAL and frees its context; a context that waits goes on once its event has occurred.

The model's own choices and readings here: log entries 4, 5, 92, 93, 94 and 134. -/
def Obligations.MicroSteps : Prop :=
  (∀ (s : State) (n : Fin 272) (c : Ctx) (u : Micro), s.m.held = [] → s.m.Stepping n.val c u → c.starting u = 0 →
     let acts := c.acts u
     let r := c.alu u
     let op := u.f 72 69
     let a := c.opA u
     let b := c.opB u
     let seqN := (c.pc + 1) % 0x4000
     let disp := (((c.pc : Int) + signed 10 u.arg) % 0x4000).toNat
     let tgt := u.f 49 36
     let ok (p : Nat) : Prop := c.pc < 0x3000 ∨ 0x3000 ≤ p
     let worked (c' : Ctx) : Prop :=
       (∀ k < 32, c'.tr k = if acts = true ∧ u.f 80 80 = 1 ∧ k = u.f 85 81 then r else c.tr k) ∧
       (∀ k < 8, SMap.get (fun _ => 0) c'.y k = if acts = true ∧ u.f 58 58 = 1 ∧ k = u.f 57 55 then r else SMap.get (fun _ => 0) c.y k) ∧
       ((acts = false ∨ u.f 68 68 = 0) → (c'.z, c'.n, c'.c, c'.v) = (c.z, c.n, c.c, c.v)) ∧
       (acts = true → u.f 68 68 = 1 →
         (op ≠ 13 → c'.z = decide (r = 0) ∧ c'.n = r.msb) ∧ (op = 13 → c'.z = decide (a = b) ∧ c'.n = (a - b).msb) ∧
         (op = 2 → c'.c = decide (2 ^ 32 ≤ a.toNat + b.toNat)) ∧ ((op = 3 ∨ op = 13) → c'.c = decide (b.toNat ≤ a.toNat)))
     let goes (p : Ctx → Nat → List Nat → Prop) : Prop := s.Completes (.microStep n) fun m => s.m.UnitsSame m ∧ s.m.MemSame m ∧
       m.tap.replies = s.m.tap.replies ∧ m.tap.last = n.val ∧
       m.tap.run = (if n.val = s.m.tap.last ∧ s.m.tap.run < 16 then s.m.tap.run + 1 else 1) ∧
       ∃ c', m.ctx n.val = some c' ∧ worked c' ∧ p c' c'.pc c'.stack ∧ c'.final = c.final ∧ c'.accepted = c.accepted ∧
         c'.steps = (if u.seq = 6 then 0 else c.steps + 1) ∧ c'.wev = (if u.seq = 6 then some (u.f 54 50) else none)
     c.steps + 1 < 65536 →
     ((u.seq = 0 ∨ u.seq = 6) → goes fun _ pc st => pc = seqN ∧ st = c.stack) ∧
     (u.seq = 1 → ok disp → goes fun _ pc st => pc = disp ∧ st = c.stack) ∧
     (u.seq = 2 → ok disp → ok seqN → goes fun c' pc st => pc = (if c'.cond (u.f 67 64) then disp else seqN) ∧ st = c.stack) ∧
     (u.seq = 3 → (ok tgt ∨ tgt < 0x100) → c.stack.length < 4 → goes fun _ pc st => pc = tgt ∧ st = seqN :: c.stack) ∧
     (∀ p ps, u.seq = 4 → c.stack = p :: ps → ok p → goes fun _ pc st => pc = p ∧ st = ps) ∧
     (u.seq = 5 → ok tgt → ok seqN → goes fun c' pc st => pc = (if c'.cond (u.f 67 64) then tgt else seqN) ∧ st = c.stack) ∧
     (u.seq = 7 → n.val < 256 → c.final = true → s.Completes (.microStep n) fun m => m.ctx n.val = none ∧ m.slices = s.m.slices ∧
       m.tap.replies = s.m.tap.replies ∧ ∀ x, (m.stage x).tapLock = (if c.lock = some x then false else (s.m.stage x).tapLock))) ∧
  (∀ (s : State) (n : Fin 272), s.m.held = [] →
     let rows : List Instr := [.microStep n, .xopLd n, .xopSt n, .xopLdp n, .xopStp n, .xopStage n, .xopClose n, .xopReply n, .xopPost n]
     (s.m.hasTurn n.val = false → s.m.vendorXop n.val = false → ∀ i ∈ rows, s.Completes i fun m => m = s.m) ∧
     (∀ c, s.m.ctx n.val = some c → s.m.stepping c = false → s.m.hasTurn n.val = false ∧ s.m.vendorXop n.val = false) ∧
     (∀ c, s.m.ctx n.val = some c → n.val < 256 → c.q < 4096 → c.final = false → s.m.hasTurn n.val = true →
       let u := s.m.microOf c
       let faults (cause : Nat) : Prop := s.Completes (.microStep n) fun m => s.m.Ended n.val c [c.reply 0x3F 0 true []] m ∧
         m.fld TAP_MC_FAULT.CAUSE 0 = cause ∧ m.fld TAP_MC_FAULT.OPCODE 0 = c.op ∧ m.fld TAP_MC_FAULT.UADDR 0 = c.pc % 0x4000 ∧
         m.flg TAP_MC_STAT.UFAULT 0 = true ∧ m.slices = s.m.slices ∧ ∀ x, (m.stage x).tapLock = (if c.lock = some x then false else (s.m.stage x).tapLock)
       (wordFault c u ≠ 0 → faults (wordFault c u)) ∧
       (wordFault c u = 0 → c.starting u = 0 →
         (u.seq = 3 → (c.pc < 0x3000 ∨ 0x3000 ≤ u.f 49 36 ∨ u.f 49 36 < 0x100) → 4 ≤ c.stack.length → faults 3) ∧
         (u.seq = 4 → c.stack = [] → faults 3) ∧
         (u.seq = 3 → 0x3000 ≤ c.pc → 0x100 ≤ u.f 49 36 → u.f 49 36 < 0x3000 → faults 4) ∧
         (u.seq = 7 → faults 6) ∧
         (u.seq = 0 → 0xC00 ≤ c.op → 65535 ≤ c.steps → faults 5))) ∧
     (∀ c, s.m.ctx n.val = some c →
       let woken (x : Bool) (v : W32) (t : Stamp) : Ctx :=
         { ((c.setT 29 v).setT 30 (BitVec.ofNat 32 t)).setT 31 (BitVec.ofNat 32 (t / 2 ^ 32)) with wev := none, ready := none, xerr := x }
       ((s.m.flg DBG_STAT.TAPH 0 = true ∨ c.wev = none ∨ (c.ready = none ∧ c.wev ≠ some 3)) → s.Completes (.contextResume n) fun m => m = s.m) ∧
       (∀ x v t, s.m.flg DBG_STAT.TAPH 0 = false → c.wev ≠ none → c.ready = some (x, v, t) → s.Completes (.contextResume n) fun m =>
         m.ctx n.val = some (woken x v t) ∧ s.m.UnitsSame m ∧ m.now = s.m.now) ∧
       (s.m.flg DBG_STAT.TAPH 0 = false → c.wev = some 3 → c.ready = none →
         let t := (c.tr 30).toNat + 2 ^ 32 * (c.tr 31).toNat
         s.Completes (.contextResume n) fun m => m.ctx n.val = some (woken false 0 t) ∧ m.now = max s.m.now t)))

/-- The external operations of a micro-step (R305, R307, R311), shown for steps that write nothing else: a load answers into D, a store writes its
bytes, STAGE marks a mirror word under the interlock, CLOSE closes the group, REPLY answers the command, POST appends to a queue.

The model's own choices and readings here: log entries 59 and 94. -/
def Obligations.MicroExternalOperations : Prop :=
  ∀ (s : State) (n : Fin 272) (c : Ctx) (u : Micro), s.m.held = [] → s.m.Stepping n.val c u → c.plain u →
    let r := (c.alu u).toNat
    let d := u.f 85 81
    let x := c.target
    let next : Ctx := { c with steps := c.steps + 1, pc := (c.pc + 1) % 0x4000 }
    let may (a : Nat) (len acc k : Nat) : Prop := s.m.accessErr (tapWho c.guest) none a len acc = none ∧ s.m.memAt none a len = some k ∧ s.m.GoodCode k len
    let denied (acc len : Nat) (i : Instr) : Prop := s.m.accessErr (tapWho c.guest) none r len acc = some .denied → n.val < 256 → c.final = false →
      s.Completes i fun m => s.m.Ended n.val c [c.reply 0x13 0 true []] m ∧ m.slices = s.m.slices ∧ m.timers = s.m.timers
    (u.xop = 1 →
      (∀ k, may r 4 0 k → s.Completes (.xopLd n) fun m => s.m.UnitsSame m ∧ s.m.MemSame m ∧
        m.ctx n.val = some (next.setT d (BitVec.ofNat 32 (natOfBytes (s.m.peek k 4))))) ∧ denied 0 4 (.xopLd n)) ∧
    (u.xop = 2 →
      (∀ k, may r 4 1 k → s.Completes (.xopSt n) fun m => m.slices = s.m.slices ∧ m.stages = s.m.stages ∧ m.mem = (s.m.poke k (bytesOfNat 4 (c.tr d).toNat)).mem ∧
        m.ctx n.val = some { next with note := r }) ∧ denied 1 4 (.xopSt n)) ∧
    (u.xop = 3 →
      (∀ k, may r 8 0 k → s.Completes (.xopLdp n) fun m => s.m.UnitsSame m ∧ s.m.MemSame m ∧
        m.ctx n.val = some ((next.setT d (BitVec.ofNat 32 (natOfBytes (s.m.peek k 4)))).setT (d + 1)
          (BitVec.ofNat 32 (natOfBytes (s.m.peek (k + 4) 4))))) ∧ denied 0 8 (.xopLdp n)) ∧
    (u.xop = 4 →
      (∀ k, may r 8 1 k → s.Completes (.xopStp n) fun m => m.slices = s.m.slices ∧
        m.mem = (s.m.poke k (bytesOfNat 4 (c.tr d).toNat ++ bytesOfNat 4 (c.tr (d + 1)).toNat)).mem ∧
        m.ctx n.val = some { next with note := r }) ∧ denied 1 8 (.xopStp n)) ∧
    (∀ o k, u.xop = 5 → n.val < 256 → x < 72 → c.guest = false → r = Blk.base .sl x + o → 0xC000 ≤ o → o < 0xFF80 →
      findCard (cardsOf .sl x) (liveOff o) = some k → k.staged = true → ¬ (64 ≤ x ∧ liveOff o = CV_FFB.MANT.off) → o % 4 = 0 →
      s.Completes (.xopStage n) fun m =>
        (m.stage x).tapLock = ((s.m.stage x).tapLock || c.lock.isNone) ∧
        SMap.get unmarked (m.stage x).openW o = some (c.tr d &&& k.rd) ∧ (m.stage x).closedW = (s.m.stage x).closedW ∧
        m.ctx n.val = some { next with lock := some x, wrote := o :: c.wrote }) ∧
    (∀ o, u.xop = 5 → n.val < 256 → x < 72 → c.guest = false → c.final = false → r = Blk.base .sl x + o → 0xC000 ≤ o → o < 0xFF80 → o % 4 ≠ 0 →
      s.Completes (.xopStage n) fun m => s.m.Ended n.val c [c.reply 0x3F 0 true []] m ∧ m.slices = s.m.slices) ∧
    (u.xop = 6 → n.val < 256 → x < 72 → c.guest = false → c.fence = 0 → (s.m.stage x).closed = false → s.Completes (.xopClose n) fun m =>
        m.stage x = { s.m.stage x with
          openW := [], closedW := overlay (s.m.stage x).openW (s.m.stage x).closedW, closed := true, closedTag := c.tag, tapLock := false } ∧
        ∃ c', m.ctx n.val = some c' ∧
          c' = { next with lock := none, wrote := [], closed := true, gen := (s.m.stage x).gen + 1, need := none, hold := c'.hold }) ∧
    (u.xop = 7 → n.val < 256 → c.final = false →
      let st := r % 256
      let det := bitsOf r 13 8
      (st = 1 → s.Completes (.xopReply n) fun m =>
        m.ctx n.val = some { next with accepted := true, status := 1, detail := det } ∧
        s.m.Replied c.q (if c.ack % 2 = 1 then [c.reply 1 det false c.result] else []) m) ∧
      (statusKnown st = true → st ≠ 1 → s.Completes (.xopReply n) fun m =>
        m.ctx n.val = some { next with final := true, status := st, detail := det } ∧
        s.m.Replied c.q (if 0x10 ≤ st ∨ 2 ≤ c.ack then [c.reply st det true c.result] else []) m) ∧
      (statusKnown st = false → s.Completes (.xopReply n) fun m => s.m.Ended n.val c [c.reply 0x3F 0 true c.result] m ∧
        m.fld TAP_MC_FAULT.CAUSE 0 = 10)) ∧
    (u.xop = 7 → n.val < 256 → c.final = true → s.Completes (.xopReply n) fun m => m.ctx n.val = none ∧ m.fld TAP_MC_FAULT.CAUSE 0 = 7 ∧
      m.tap.replies = s.m.tap.replies) ∧
    (u.xop = 8 → c.guest = false →
      let q := r % 4096
      (s.m.outReady q 1 = true → s.Completes (.xopPost n) fun m => m.ctx n.val = some { next with xerr := false } ∧
        m.qTail q = (s.m.qTail q + 1) % 65536 ∧
        ∀ k, s.m.flg QM_CFG.SPACE q = false → s.m.flg QM_CFG.WB q = false → s.m.memAt none (s.m.qEntry q (s.m.qTail q)) 32 = some k →
          m.peek k 32 = c.reply c.status c.detail c.final c.result) ∧
      (s.m.outReady q 1 = false → s.Completes (.xopPost n) fun m => m.ctx n.val = some { next with xerr := true } ∧ s.m.MemSame m ∧
        m.qTail q = s.m.qTail q ∧ (s.m.fld QM_CFG.KIND q = 1 → m.flg QM_STAT.DROP q = true ∧
          m.fld QM_STAT.DROPS q = min (s.m.fld QM_STAT.DROPS q + 1) (2 ^ (QM_STAT.DROPS.hi - QM_STAT.DROPS.lo + 1) - 1))))

/-- Loads and swaps of the microcode (R312 to R318): a load makes the inactive bank invalid and ends with the code of R314; a swap makes the inactive
bank active and runs its INIT, or waits for commissioning; INIT's end makes the bank good or takes the swap back.

The model's own choices and readings here: log entries 5, 61, 62 and 141. -/
def Obligations.MicrocodeLoads : Prop :=
  ∀ (s : State) (r : Req) (ok : Bool), s.m.held = [] → s.m.HouseSup r → s.m.tap.mc = none →
    let old := s.m.mcActive
    let addr := s.m.fld TAP_MC_ADDR.ADDR 0
    let len := s.m.fld TAP_MC_LEN.LEN 0
    let init (b : Bool) : Ctx := { bank := b, started := true, micro := true }
    (∀ e ∈ [((.mcCmdLoad r : Instr), false), (.mcCmdLoadSwap r, true)],
      ((s.m.mcBusy = true ∨ s.m.oldRuns = true) → s.Completes e.1 fun m => m.fld TAP_MC_STAT.LDST 0 = 5 ∧ s.m.OnlyWords m) ∧
      (s.m.mcBusy = false → s.m.oldRuns = false → s.Completes e.1 fun m =>
        m.tap.load = some (e.2, addr, len) ∧ m.flg TAP_MC_STAT.LOAD 0 = true ∧ (m.mbank (!old)).valid = false ∧ m.mbank old = s.m.mbank old ∧
        m.mcActive = old ∧ m.mem = s.m.mem)) ∧
    ((s.m.mcBusy = true → s.Completes (.mcCmdSwap r) fun m => m.flg TAP_MC_STAT.RSVW 0 = true ∧ s.m.OnlyWords m ∧
        s.m.WordsBut [TAP_MC_STAT.RSVW.addr 0] m) ∧
     (s.m.mcBusy = false → (s.m.mbank (!old)).valid = false → s.Completes (.mcCmdSwap r) fun m =>
        m.fld TAP_MC_STAT.SWST 0 = 1 ∧ s.m.OnlyWords m ∧ m.mcActive = old) ∧
     (s.m.mcBusy = false → (s.m.mbank (!old)).valid = true → s.Completes (.mcCmdSwap r) fun m =>
        m.flg TAP_MC_STAT.SWAP 0 = true ∧
        (s.m.cmHolds = true → m.mcActive = old ∧ m.tap.swapFrom = some s.m.now ∧ m.tap.ctxs = s.m.tap.ctxs) ∧
        (s.m.cmHolds = false → m.mcActive = !old ∧ m.tap.swapFrom = none ∧ m.ctx 256 = some (init (!old))))) ∧
    (s.m.tap.load = none → s.Completes .mcLoadComplete fun m => m = s.m) ∧
    (∀ swap a l, s.m.tap.load = some (swap, a, l) →
      (s.m.bufKey a l = none → s.Completes .mcLoadComplete fun m => m.fld TAP_MC_STAT.LDST 0 = 6 ∧ m.tap.load = none ∧
        m.flg TAP_MC_STAT.LOAD 0 = false ∧ m.tap.banks = s.m.tap.banks ∧ m.mcActive = old) ∧
      (s.m.bufKey a l = some a → s.m.GoodCode a l →
        let k := s.m.container (s.m.peek a l) l
        (k.1 ≠ 0 → s.Completes .mcLoadComplete fun m => m.fld TAP_MC_STAT.LDST 0 = k.1 % 8 ∧ m.tap.load = none ∧
          m.flg TAP_MC_STAT.LOAD 0 = false ∧ m.tap.banks = s.m.tap.banks ∧ m.mcActive = old) ∧
        (k.1 = 0 → swap = false → s.Completes .mcLoadComplete fun m => m.fld TAP_MC_STAT.LDST 0 = 0 ∧ m.tap.load = none ∧
          m.flg TAP_MC_STAT.LOAD 0 = false ∧ m.mcActive = old ∧ m.mbank old = s.m.mbank old ∧
          m.mbank (!old) = { (s.m.mbank old).write k.2.2 with version := k.2.1, valid := true } ∧ m.flg TAP_MC_STAT.IVALID 0 = true))) ∧
    (s.m.tap.swapFrom = none → s.Completes .mcSwapBlocked fun m => m = s.m) ∧
    (∀ t, s.m.tap.swapFrom = some t → s.Completes .mcSwapBlocked fun m => m.tap.swapFrom = none ∧ m.flg TAP_MC_STAT.SWAP 0 = false ∧
      m.fld TAP_MC_STAT.SWST 0 = 2 ∧ m.mcActive = old ∧ m.now = max s.m.now (t + 16000000000)) ∧
    (s.m.ctx 256 = none → s.Completes (.mcInitEnd ok) fun m => m = s.m) ∧
    (s.m.ctx 256 ≠ none → s.m.flg TAP_MC_STAT.SWAP 0 = true → s.Completes (.mcInitEnd ok) fun m =>
      m.ctx 256 = none ∧ m.flg TAP_MC_STAT.SWAP 0 = false ∧
      (ok = true → m.mcActive = old ∧ m.flg TAP_MC_STAT.READY 0 = true ∧ m.fld TAP_MC_STAT.SWST 0 = 0) ∧
      (ok = false → m.mcActive = !old ∧ m.fld TAP_MC_STAT.SWST 0 = 3)) ∧
    (s.m.ctx 256 ≠ none → s.m.flg TAP_MC_STAT.SWAP 0 = false → s.Completes (.mcInitEnd ok) fun m =>
      m.ctx 256 = none ∧ m.mcActive = old ∧ (ok = true → m.flg TAP_MC_STAT.READY 0 = true) ∧ (ok = false → s.m.OnlyWords { m with tap := s.m.tap }))
end

