-- ==== Sys2Proof/Laws/State.lean ====
section
/-! SUPPORT. One lemma per field of the part and per named update: what the update leaves as it was. -/

namespace Sys2Proof.Machine

@[simp] theorem Mach.setRg_now (m : Mach) (a : Nat) (v : W32) : (m.setRg a v).now = m.now := rfl
@[simp] theorem Mach.setRg_fresh (m : Mach) (a : Nat) (v : W32) : (m.setRg a v).fresh = m.fresh := rfl
@[simp] theorem Mach.setRg_held (m : Mach) (a : Nat) (v : W32) : (m.setRg a v).held = m.held := rfl
@[simp] theorem Mach.setRg_shadow (m : Mach) (a : Nat) (v : W32) : (m.setRg a v).shadow = m.shadow := rfl
@[simp] theorem Mach.setRg_resp (m : Mach) (a : Nat) (v : W32) : (m.setRg a v).resp = m.resp := rfl
@[simp] theorem Mach.setRg_mem (m : Mach) (a : Nat) (v : W32) : (m.setRg a v).mem = m.mem := rfl
@[simp] theorem Mach.setRg_ecc (m : Mach) (a : Nat) (v : W32) : (m.setRg a v).ecc = m.ecc := rfl
@[simp] theorem Mach.setRg_flash (m : Mach) (a : Nat) (v : W32) : (m.setRg a v).flash = m.flash := rfl
@[simp] theorem Mach.setRg_host (m : Mach) (a : Nat) (v : W32) : (m.setRg a v).host = m.host := rfl
@[simp] theorem Mach.setRg_msix (m : Mach) (a : Nat) (v : W32) : (m.setRg a v).msix = m.msix := rfl
@[simp] theorem Mach.setRg_posts (m : Mach) (a : Nat) (v : W32) : (m.setRg a v).posts = m.posts := rfl
@[simp] theorem Mach.setRg_queues (m : Mach) (a : Nat) (v : W32) : (m.setRg a v).queues = m.queues := rfl
@[simp] theorem Mach.setRg_qevents (m : Mach) (a : Nat) (v : W32) : (m.setRg a v).qevents = m.qevents := rfl
@[simp] theorem Mach.setRg_stages (m : Mach) (a : Nat) (v : W32) : (m.setRg a v).stages = m.stages := rfl
@[simp] theorem Mach.setRg_behind (m : Mach) (a : Nat) (v : W32) : (m.setRg a v).behind = m.behind := rfl
@[simp] theorem Mach.setRg_groups (m : Mach) (a : Nat) (v : W32) : (m.setRg a v).groups = m.groups := rfl
@[simp] theorem Mach.setRg_wins (m : Mach) (a : Nat) (v : W32) : (m.setRg a v).wins = m.wins := rfl
@[simp] theorem Mach.setRg_slices (m : Mach) (a : Nat) (v : W32) : (m.setRg a v).slices = m.slices := rfl
@[simp] theorem Mach.setRg_timers (m : Mach) (a : Nat) (v : W32) : (m.setRg a v).timers = m.timers := rfl
@[simp] theorem Mach.setRg_banks (m : Mach) (a : Nat) (v : W32) : (m.setRg a v).banks = m.banks := rfl
@[simp] theorem Mach.setRg_slots (m : Mach) (a : Nat) (v : W32) : (m.setRg a v).slots = m.slots := rfl
@[simp] theorem Mach.setRg_cells (m : Mach) (a : Nat) (v : W32) : (m.setRg a v).cells = m.cells := rfl
@[simp] theorem Mach.setRg_cmps (m : Mach) (a : Nat) (v : W32) : (m.setRg a v).cmps = m.cmps := rfl
@[simp] theorem Mach.setRg_ports (m : Mach) (a : Nat) (v : W32) : (m.setRg a v).ports = m.ports := rfl
@[simp] theorem Mach.setRg_eths (m : Mach) (a : Nat) (v : W32) : (m.setRg a v).eths = m.eths := rfl
@[simp] theorem Mach.setRg_tecs (m : Mach) (a : Nat) (v : W32) : (m.setRg a v).tecs = m.tecs := rfl
@[simp] theorem Mach.setRg_des (m : Mach) (a : Nat) (v : W32) : (m.setRg a v).des = m.des := rfl
@[simp] theorem Mach.setRg_viss (m : Mach) (a : Nat) (v : W32) : (m.setRg a v).viss = m.viss := rfl
@[simp] theorem Mach.setRg_stos (m : Mach) (a : Nat) (v : W32) : (m.setRg a v).stos = m.stos := rfl
@[simp] theorem Mach.setRg_sent (m : Mach) (a : Nat) (v : W32) : (m.setRg a v).sent = m.sent := rfl
@[simp] theorem Mach.setRg_tunnel (m : Mach) (a : Nat) (v : W32) : (m.setRg a v).tunnel = m.tunnel := rfl
@[simp] theorem Mach.setRg_wds (m : Mach) (a : Nat) (v : W32) : (m.setRg a v).wds = m.wds := rfl
@[simp] theorem Mach.setRg_sup (m : Mach) (a : Nat) (v : W32) : (m.setRg a v).sup = m.sup := rfl
@[simp] theorem Mach.setRg_reeds (m : Mach) (a : Nat) (v : W32) : (m.setRg a v).reeds = m.reeds := rfl
@[simp] theorem Mach.setRg_pairs (m : Mach) (a : Nat) (v : W32) : (m.setRg a v).pairs = m.pairs := rfl
@[simp] theorem Mach.setRg_secure (m : Mach) (a : Nat) (v : W32) : (m.setRg a v).secure = m.secure := rfl
@[simp] theorem Mach.setRg_power (m : Mach) (a : Nat) (v : W32) : (m.setRg a v).power = m.power := rfl
@[simp] theorem Mach.setRg_dbg (m : Mach) (a : Nat) (v : W32) : (m.setRg a v).dbg = m.dbg := rfl
@[simp] theorem Mach.setRg_tap (m : Mach) (a : Nat) (v : W32) : (m.setRg a v).tap = m.tap := rfl
@[simp] theorem Mach.setRg_ret (m : Mach) (a : Nat) (v : W32) : (m.setRg a v).ret = m.ret := rfl

@[simp] theorem Mach.until_fresh (m : Mach) (t : Stamp) : (m.until t).fresh = m.fresh := rfl
@[simp] theorem Mach.until_held (m : Mach) (t : Stamp) : (m.until t).held = m.held := rfl
@[simp] theorem Mach.until_regs (m : Mach) (t : Stamp) : (m.until t).regs = m.regs := rfl
@[simp] theorem Mach.until_shadow (m : Mach) (t : Stamp) : (m.until t).shadow = m.shadow := rfl
@[simp] theorem Mach.until_resp (m : Mach) (t : Stamp) : (m.until t).resp = m.resp := rfl
@[simp] theorem Mach.until_mem (m : Mach) (t : Stamp) : (m.until t).mem = m.mem := rfl
@[simp] theorem Mach.until_ecc (m : Mach) (t : Stamp) : (m.until t).ecc = m.ecc := rfl
@[simp] theorem Mach.until_flash (m : Mach) (t : Stamp) : (m.until t).flash = m.flash := rfl
@[simp] theorem Mach.until_host (m : Mach) (t : Stamp) : (m.until t).host = m.host := rfl
@[simp] theorem Mach.until_msix (m : Mach) (t : Stamp) : (m.until t).msix = m.msix := rfl
@[simp] theorem Mach.until_posts (m : Mach) (t : Stamp) : (m.until t).posts = m.posts := rfl
@[simp] theorem Mach.until_queues (m : Mach) (t : Stamp) : (m.until t).queues = m.queues := rfl
@[simp] theorem Mach.until_qevents (m : Mach) (t : Stamp) : (m.until t).qevents = m.qevents := rfl
@[simp] theorem Mach.until_stages (m : Mach) (t : Stamp) : (m.until t).stages = m.stages := rfl
@[simp] theorem Mach.until_behind (m : Mach) (t : Stamp) : (m.until t).behind = m.behind := rfl
@[simp] theorem Mach.until_groups (m : Mach) (t : Stamp) : (m.until t).groups = m.groups := rfl
@[simp] theorem Mach.until_wins (m : Mach) (t : Stamp) : (m.until t).wins = m.wins := rfl
@[simp] theorem Mach.until_slices (m : Mach) (t : Stamp) : (m.until t).slices = m.slices := rfl
@[simp] theorem Mach.until_timers (m : Mach) (t : Stamp) : (m.until t).timers = m.timers := rfl
@[simp] theorem Mach.until_banks (m : Mach) (t : Stamp) : (m.until t).banks = m.banks := rfl
@[simp] theorem Mach.until_slots (m : Mach) (t : Stamp) : (m.until t).slots = m.slots := rfl
@[simp] theorem Mach.until_cells (m : Mach) (t : Stamp) : (m.until t).cells = m.cells := rfl
@[simp] theorem Mach.until_cmps (m : Mach) (t : Stamp) : (m.until t).cmps = m.cmps := rfl
@[simp] theorem Mach.until_ports (m : Mach) (t : Stamp) : (m.until t).ports = m.ports := rfl
@[simp] theorem Mach.until_eths (m : Mach) (t : Stamp) : (m.until t).eths = m.eths := rfl
@[simp] theorem Mach.until_tecs (m : Mach) (t : Stamp) : (m.until t).tecs = m.tecs := rfl
@[simp] theorem Mach.until_des (m : Mach) (t : Stamp) : (m.until t).des = m.des := rfl
@[simp] theorem Mach.until_viss (m : Mach) (t : Stamp) : (m.until t).viss = m.viss := rfl
@[simp] theorem Mach.until_stos (m : Mach) (t : Stamp) : (m.until t).stos = m.stos := rfl
@[simp] theorem Mach.until_sent (m : Mach) (t : Stamp) : (m.until t).sent = m.sent := rfl
@[simp] theorem Mach.until_tunnel (m : Mach) (t : Stamp) : (m.until t).tunnel = m.tunnel := rfl
@[simp] theorem Mach.until_wds (m : Mach) (t : Stamp) : (m.until t).wds = m.wds := rfl
@[simp] theorem Mach.until_sup (m : Mach) (t : Stamp) : (m.until t).sup = m.sup := rfl
@[simp] theorem Mach.until_reeds (m : Mach) (t : Stamp) : (m.until t).reeds = m.reeds := rfl
@[simp] theorem Mach.until_pairs (m : Mach) (t : Stamp) : (m.until t).pairs = m.pairs := rfl
@[simp] theorem Mach.until_secure (m : Mach) (t : Stamp) : (m.until t).secure = m.secure := rfl
@[simp] theorem Mach.until_power (m : Mach) (t : Stamp) : (m.until t).power = m.power := rfl
@[simp] theorem Mach.until_dbg (m : Mach) (t : Stamp) : (m.until t).dbg = m.dbg := rfl
@[simp] theorem Mach.until_tap (m : Mach) (t : Stamp) : (m.until t).tap = m.tap := rfl
@[simp] theorem Mach.until_ret (m : Mach) (t : Stamp) : (m.until t).ret = m.ret := rfl

@[simp] theorem Mach.poke_now (m : Mach) (k : Nat) (bs : List Byte) : (m.poke k bs).now = m.now := rfl
@[simp] theorem Mach.poke_fresh (m : Mach) (k : Nat) (bs : List Byte) : (m.poke k bs).fresh = m.fresh := rfl
@[simp] theorem Mach.poke_held (m : Mach) (k : Nat) (bs : List Byte) : (m.poke k bs).held = m.held := rfl
@[simp] theorem Mach.poke_regs (m : Mach) (k : Nat) (bs : List Byte) : (m.poke k bs).regs = m.regs := rfl
@[simp] theorem Mach.poke_shadow (m : Mach) (k : Nat) (bs : List Byte) : (m.poke k bs).shadow = m.shadow := rfl
@[simp] theorem Mach.poke_resp (m : Mach) (k : Nat) (bs : List Byte) : (m.poke k bs).resp = m.resp := rfl
@[simp] theorem Mach.poke_ecc (m : Mach) (k : Nat) (bs : List Byte) : (m.poke k bs).ecc = m.ecc := rfl
@[simp] theorem Mach.poke_flash (m : Mach) (k : Nat) (bs : List Byte) : (m.poke k bs).flash = m.flash := rfl
@[simp] theorem Mach.poke_host (m : Mach) (k : Nat) (bs : List Byte) : (m.poke k bs).host = m.host := rfl
@[simp] theorem Mach.poke_msix (m : Mach) (k : Nat) (bs : List Byte) : (m.poke k bs).msix = m.msix := rfl
@[simp] theorem Mach.poke_posts (m : Mach) (k : Nat) (bs : List Byte) : (m.poke k bs).posts = m.posts := rfl
@[simp] theorem Mach.poke_queues (m : Mach) (k : Nat) (bs : List Byte) : (m.poke k bs).queues = m.queues := rfl
@[simp] theorem Mach.poke_qevents (m : Mach) (k : Nat) (bs : List Byte) : (m.poke k bs).qevents = m.qevents := rfl
@[simp] theorem Mach.poke_stages (m : Mach) (k : Nat) (bs : List Byte) : (m.poke k bs).stages = m.stages := rfl
@[simp] theorem Mach.poke_behind (m : Mach) (k : Nat) (bs : List Byte) : (m.poke k bs).behind = m.behind := rfl
@[simp] theorem Mach.poke_groups (m : Mach) (k : Nat) (bs : List Byte) : (m.poke k bs).groups = m.groups := rfl
@[simp] theorem Mach.poke_wins (m : Mach) (k : Nat) (bs : List Byte) : (m.poke k bs).wins = m.wins := rfl
@[simp] theorem Mach.poke_slices (m : Mach) (k : Nat) (bs : List Byte) : (m.poke k bs).slices = m.slices := rfl
@[simp] theorem Mach.poke_timers (m : Mach) (k : Nat) (bs : List Byte) : (m.poke k bs).timers = m.timers := rfl
@[simp] theorem Mach.poke_banks (m : Mach) (k : Nat) (bs : List Byte) : (m.poke k bs).banks = m.banks := rfl
@[simp] theorem Mach.poke_slots (m : Mach) (k : Nat) (bs : List Byte) : (m.poke k bs).slots = m.slots := rfl
@[simp] theorem Mach.poke_cells (m : Mach) (k : Nat) (bs : List Byte) : (m.poke k bs).cells = m.cells := rfl
@[simp] theorem Mach.poke_cmps (m : Mach) (k : Nat) (bs : List Byte) : (m.poke k bs).cmps = m.cmps := rfl
@[simp] theorem Mach.poke_ports (m : Mach) (k : Nat) (bs : List Byte) : (m.poke k bs).ports = m.ports := rfl
@[simp] theorem Mach.poke_eths (m : Mach) (k : Nat) (bs : List Byte) : (m.poke k bs).eths = m.eths := rfl
@[simp] theorem Mach.poke_tecs (m : Mach) (k : Nat) (bs : List Byte) : (m.poke k bs).tecs = m.tecs := rfl
@[simp] theorem Mach.poke_des (m : Mach) (k : Nat) (bs : List Byte) : (m.poke k bs).des = m.des := rfl
@[simp] theorem Mach.poke_viss (m : Mach) (k : Nat) (bs : List Byte) : (m.poke k bs).viss = m.viss := rfl
@[simp] theorem Mach.poke_stos (m : Mach) (k : Nat) (bs : List Byte) : (m.poke k bs).stos = m.stos := rfl
@[simp] theorem Mach.poke_sent (m : Mach) (k : Nat) (bs : List Byte) : (m.poke k bs).sent = m.sent := rfl
@[simp] theorem Mach.poke_tunnel (m : Mach) (k : Nat) (bs : List Byte) : (m.poke k bs).tunnel = m.tunnel := rfl
@[simp] theorem Mach.poke_wds (m : Mach) (k : Nat) (bs : List Byte) : (m.poke k bs).wds = m.wds := rfl
@[simp] theorem Mach.poke_sup (m : Mach) (k : Nat) (bs : List Byte) : (m.poke k bs).sup = m.sup := rfl
@[simp] theorem Mach.poke_reeds (m : Mach) (k : Nat) (bs : List Byte) : (m.poke k bs).reeds = m.reeds := rfl
@[simp] theorem Mach.poke_pairs (m : Mach) (k : Nat) (bs : List Byte) : (m.poke k bs).pairs = m.pairs := rfl
@[simp] theorem Mach.poke_secure (m : Mach) (k : Nat) (bs : List Byte) : (m.poke k bs).secure = m.secure := rfl
@[simp] theorem Mach.poke_power (m : Mach) (k : Nat) (bs : List Byte) : (m.poke k bs).power = m.power := rfl
@[simp] theorem Mach.poke_dbg (m : Mach) (k : Nat) (bs : List Byte) : (m.poke k bs).dbg = m.dbg := rfl
@[simp] theorem Mach.poke_tap (m : Mach) (k : Nat) (bs : List Byte) : (m.poke k bs).tap = m.tap := rfl
@[simp] theorem Mach.poke_ret (m : Mach) (k : Nat) (bs : List Byte) : (m.poke k bs).ret = m.ret := rfl

@[simp] theorem Mach.unreserve_now (m : Mach) (k n : Nat) : (m.unreserve k n).now = m.now := rfl
@[simp] theorem Mach.unreserve_fresh (m : Mach) (k n : Nat) : (m.unreserve k n).fresh = m.fresh := rfl
@[simp] theorem Mach.unreserve_held (m : Mach) (k n : Nat) : (m.unreserve k n).held = m.held := rfl
@[simp] theorem Mach.unreserve_regs (m : Mach) (k n : Nat) : (m.unreserve k n).regs = m.regs := rfl
@[simp] theorem Mach.unreserve_shadow (m : Mach) (k n : Nat) : (m.unreserve k n).shadow = m.shadow := rfl
@[simp] theorem Mach.unreserve_resp (m : Mach) (k n : Nat) : (m.unreserve k n).resp = m.resp := rfl
@[simp] theorem Mach.unreserve_mem (m : Mach) (k n : Nat) : (m.unreserve k n).mem = m.mem := rfl
@[simp] theorem Mach.unreserve_ecc (m : Mach) (k n : Nat) : (m.unreserve k n).ecc = m.ecc := rfl
@[simp] theorem Mach.unreserve_flash (m : Mach) (k n : Nat) : (m.unreserve k n).flash = m.flash := rfl
@[simp] theorem Mach.unreserve_host (m : Mach) (k n : Nat) : (m.unreserve k n).host = m.host := rfl
@[simp] theorem Mach.unreserve_msix (m : Mach) (k n : Nat) : (m.unreserve k n).msix = m.msix := rfl
@[simp] theorem Mach.unreserve_posts (m : Mach) (k n : Nat) : (m.unreserve k n).posts = m.posts := rfl
@[simp] theorem Mach.unreserve_queues (m : Mach) (k n : Nat) : (m.unreserve k n).queues = m.queues := rfl
@[simp] theorem Mach.unreserve_qevents (m : Mach) (k n : Nat) : (m.unreserve k n).qevents = m.qevents := rfl
@[simp] theorem Mach.unreserve_stages (m : Mach) (k n : Nat) : (m.unreserve k n).stages = m.stages := rfl
@[simp] theorem Mach.unreserve_behind (m : Mach) (k n : Nat) : (m.unreserve k n).behind = m.behind := rfl
@[simp] theorem Mach.unreserve_groups (m : Mach) (k n : Nat) : (m.unreserve k n).groups = m.groups := rfl
@[simp] theorem Mach.unreserve_wins (m : Mach) (k n : Nat) : (m.unreserve k n).wins = m.wins := rfl
@[simp] theorem Mach.unreserve_slices (m : Mach) (k n : Nat) : (m.unreserve k n).slices = m.slices := rfl
@[simp] theorem Mach.unreserve_timers (m : Mach) (k n : Nat) : (m.unreserve k n).timers = m.timers := rfl
@[simp] theorem Mach.unreserve_banks (m : Mach) (k n : Nat) : (m.unreserve k n).banks = m.banks := rfl
@[simp] theorem Mach.unreserve_slots (m : Mach) (k n : Nat) : (m.unreserve k n).slots = m.slots := rfl
@[simp] theorem Mach.unreserve_cells (m : Mach) (k n : Nat) : (m.unreserve k n).cells = m.cells := rfl
@[simp] theorem Mach.unreserve_cmps (m : Mach) (k n : Nat) : (m.unreserve k n).cmps = m.cmps := rfl
@[simp] theorem Mach.unreserve_ports (m : Mach) (k n : Nat) : (m.unreserve k n).ports = m.ports := rfl
@[simp] theorem Mach.unreserve_eths (m : Mach) (k n : Nat) : (m.unreserve k n).eths = m.eths := rfl
@[simp] theorem Mach.unreserve_tecs (m : Mach) (k n : Nat) : (m.unreserve k n).tecs = m.tecs := rfl
@[simp] theorem Mach.unreserve_des (m : Mach) (k n : Nat) : (m.unreserve k n).des = m.des := rfl
@[simp] theorem Mach.unreserve_viss (m : Mach) (k n : Nat) : (m.unreserve k n).viss = m.viss := rfl
@[simp] theorem Mach.unreserve_stos (m : Mach) (k n : Nat) : (m.unreserve k n).stos = m.stos := rfl
@[simp] theorem Mach.unreserve_sent (m : Mach) (k n : Nat) : (m.unreserve k n).sent = m.sent := rfl
@[simp] theorem Mach.unreserve_tunnel (m : Mach) (k n : Nat) : (m.unreserve k n).tunnel = m.tunnel := rfl
@[simp] theorem Mach.unreserve_wds (m : Mach) (k n : Nat) : (m.unreserve k n).wds = m.wds := rfl
@[simp] theorem Mach.unreserve_sup (m : Mach) (k n : Nat) : (m.unreserve k n).sup = m.sup := rfl
@[simp] theorem Mach.unreserve_pairs (m : Mach) (k n : Nat) : (m.unreserve k n).pairs = m.pairs := rfl
@[simp] theorem Mach.unreserve_secure (m : Mach) (k n : Nat) : (m.unreserve k n).secure = m.secure := rfl
@[simp] theorem Mach.unreserve_power (m : Mach) (k n : Nat) : (m.unreserve k n).power = m.power := rfl
@[simp] theorem Mach.unreserve_dbg (m : Mach) (k n : Nat) : (m.unreserve k n).dbg = m.dbg := rfl
@[simp] theorem Mach.unreserve_tap (m : Mach) (k n : Nat) : (m.unreserve k n).tap = m.tap := rfl
@[simp] theorem Mach.unreserve_ret (m : Mach) (k n : Nat) : (m.unreserve k n).ret = m.ret := rfl

@[simp] theorem Mach.post_now (m : Mach) (q : Nat) (b : List Byte) (d : Option (Fld × Nat)) : (m.post q b d).now = m.now := rfl
@[simp] theorem Mach.post_fresh (m : Mach) (q : Nat) (b : List Byte) (d : Option (Fld × Nat)) : (m.post q b d).fresh = m.fresh := rfl
@[simp] theorem Mach.post_held (m : Mach) (q : Nat) (b : List Byte) (d : Option (Fld × Nat)) : (m.post q b d).held = m.held := rfl
@[simp] theorem Mach.post_regs (m : Mach) (q : Nat) (b : List Byte) (d : Option (Fld × Nat)) : (m.post q b d).regs = m.regs := rfl
@[simp] theorem Mach.post_shadow (m : Mach) (q : Nat) (b : List Byte) (d : Option (Fld × Nat)) : (m.post q b d).shadow = m.shadow := rfl
@[simp] theorem Mach.post_resp (m : Mach) (q : Nat) (b : List Byte) (d : Option (Fld × Nat)) : (m.post q b d).resp = m.resp := rfl
@[simp] theorem Mach.post_mem (m : Mach) (q : Nat) (b : List Byte) (d : Option (Fld × Nat)) : (m.post q b d).mem = m.mem := rfl
@[simp] theorem Mach.post_ecc (m : Mach) (q : Nat) (b : List Byte) (d : Option (Fld × Nat)) : (m.post q b d).ecc = m.ecc := rfl
@[simp] theorem Mach.post_flash (m : Mach) (q : Nat) (b : List Byte) (d : Option (Fld × Nat)) : (m.post q b d).flash = m.flash := rfl
@[simp] theorem Mach.post_host (m : Mach) (q : Nat) (b : List Byte) (d : Option (Fld × Nat)) : (m.post q b d).host = m.host := rfl
@[simp] theorem Mach.post_msix (m : Mach) (q : Nat) (b : List Byte) (d : Option (Fld × Nat)) : (m.post q b d).msix = m.msix := rfl
@[simp] theorem Mach.post_queues (m : Mach) (q : Nat) (b : List Byte) (d : Option (Fld × Nat)) : (m.post q b d).queues = m.queues := rfl
@[simp] theorem Mach.post_qevents (m : Mach) (q : Nat) (b : List Byte) (d : Option (Fld × Nat)) : (m.post q b d).qevents = m.qevents := rfl
@[simp] theorem Mach.post_stages (m : Mach) (q : Nat) (b : List Byte) (d : Option (Fld × Nat)) : (m.post q b d).stages = m.stages := rfl
@[simp] theorem Mach.post_behind (m : Mach) (q : Nat) (b : List Byte) (d : Option (Fld × Nat)) : (m.post q b d).behind = m.behind := rfl
@[simp] theorem Mach.post_groups (m : Mach) (q : Nat) (b : List Byte) (d : Option (Fld × Nat)) : (m.post q b d).groups = m.groups := rfl
@[simp] theorem Mach.post_wins (m : Mach) (q : Nat) (b : List Byte) (d : Option (Fld × Nat)) : (m.post q b d).wins = m.wins := rfl
@[simp] theorem Mach.post_slices (m : Mach) (q : Nat) (b : List Byte) (d : Option (Fld × Nat)) : (m.post q b d).slices = m.slices := rfl
@[simp] theorem Mach.post_timers (m : Mach) (q : Nat) (b : List Byte) (d : Option (Fld × Nat)) : (m.post q b d).timers = m.timers := rfl
@[simp] theorem Mach.post_banks (m : Mach) (q : Nat) (b : List Byte) (d : Option (Fld × Nat)) : (m.post q b d).banks = m.banks := rfl
@[simp] theorem Mach.post_slots (m : Mach) (q : Nat) (b : List Byte) (d : Option (Fld × Nat)) : (m.post q b d).slots = m.slots := rfl
@[simp] theorem Mach.post_cells (m : Mach) (q : Nat) (b : List Byte) (d : Option (Fld × Nat)) : (m.post q b d).cells = m.cells := rfl
@[simp] theorem Mach.post_cmps (m : Mach) (q : Nat) (b : List Byte) (d : Option (Fld × Nat)) : (m.post q b d).cmps = m.cmps := rfl
@[simp] theorem Mach.post_ports (m : Mach) (q : Nat) (b : List Byte) (d : Option (Fld × Nat)) : (m.post q b d).ports = m.ports := rfl
@[simp] theorem Mach.post_eths (m : Mach) (q : Nat) (b : List Byte) (d : Option (Fld × Nat)) : (m.post q b d).eths = m.eths := rfl
@[simp] theorem Mach.post_tecs (m : Mach) (q : Nat) (b : List Byte) (d : Option (Fld × Nat)) : (m.post q b d).tecs = m.tecs := rfl
@[simp] theorem Mach.post_des (m : Mach) (q : Nat) (b : List Byte) (d : Option (Fld × Nat)) : (m.post q b d).des = m.des := rfl
@[simp] theorem Mach.post_viss (m : Mach) (q : Nat) (b : List Byte) (d : Option (Fld × Nat)) : (m.post q b d).viss = m.viss := rfl
@[simp] theorem Mach.post_stos (m : Mach) (q : Nat) (b : List Byte) (d : Option (Fld × Nat)) : (m.post q b d).stos = m.stos := rfl
@[simp] theorem Mach.post_sent (m : Mach) (q : Nat) (b : List Byte) (d : Option (Fld × Nat)) : (m.post q b d).sent = m.sent := rfl
@[simp] theorem Mach.post_tunnel (m : Mach) (q : Nat) (b : List Byte) (d : Option (Fld × Nat)) : (m.post q b d).tunnel = m.tunnel := rfl
@[simp] theorem Mach.post_wds (m : Mach) (q : Nat) (b : List Byte) (d : Option (Fld × Nat)) : (m.post q b d).wds = m.wds := rfl
@[simp] theorem Mach.post_sup (m : Mach) (q : Nat) (b : List Byte) (d : Option (Fld × Nat)) : (m.post q b d).sup = m.sup := rfl
@[simp] theorem Mach.post_reeds (m : Mach) (q : Nat) (b : List Byte) (d : Option (Fld × Nat)) : (m.post q b d).reeds = m.reeds := rfl
@[simp] theorem Mach.post_pairs (m : Mach) (q : Nat) (b : List Byte) (d : Option (Fld × Nat)) : (m.post q b d).pairs = m.pairs := rfl
@[simp] theorem Mach.post_secure (m : Mach) (q : Nat) (b : List Byte) (d : Option (Fld × Nat)) : (m.post q b d).secure = m.secure := rfl
@[simp] theorem Mach.post_power (m : Mach) (q : Nat) (b : List Byte) (d : Option (Fld × Nat)) : (m.post q b d).power = m.power := rfl
@[simp] theorem Mach.post_dbg (m : Mach) (q : Nat) (b : List Byte) (d : Option (Fld × Nat)) : (m.post q b d).dbg = m.dbg := rfl
@[simp] theorem Mach.post_tap (m : Mach) (q : Nat) (b : List Byte) (d : Option (Fld × Nat)) : (m.post q b d).tap = m.tap := rfl
@[simp] theorem Mach.post_ret (m : Mach) (q : Nat) (b : List Byte) (d : Option (Fld × Nat)) : (m.post q b d).ret = m.ret := rfl

@[simp] theorem Mach.setSlice_now (m : Mach) (x : Nat) (d : Slice) : (m.setSlice x d).now = m.now := rfl
@[simp] theorem Mach.setSlice_fresh (m : Mach) (x : Nat) (d : Slice) : (m.setSlice x d).fresh = m.fresh := rfl
@[simp] theorem Mach.setSlice_held (m : Mach) (x : Nat) (d : Slice) : (m.setSlice x d).held = m.held := rfl
@[simp] theorem Mach.setSlice_regs (m : Mach) (x : Nat) (d : Slice) : (m.setSlice x d).regs = m.regs := rfl
@[simp] theorem Mach.setSlice_shadow (m : Mach) (x : Nat) (d : Slice) : (m.setSlice x d).shadow = m.shadow := rfl
@[simp] theorem Mach.setSlice_resp (m : Mach) (x : Nat) (d : Slice) : (m.setSlice x d).resp = m.resp := rfl
@[simp] theorem Mach.setSlice_mem (m : Mach) (x : Nat) (d : Slice) : (m.setSlice x d).mem = m.mem := rfl
@[simp] theorem Mach.setSlice_ecc (m : Mach) (x : Nat) (d : Slice) : (m.setSlice x d).ecc = m.ecc := rfl
@[simp] theorem Mach.setSlice_flash (m : Mach) (x : Nat) (d : Slice) : (m.setSlice x d).flash = m.flash := rfl
@[simp] theorem Mach.setSlice_host (m : Mach) (x : Nat) (d : Slice) : (m.setSlice x d).host = m.host := rfl
@[simp] theorem Mach.setSlice_msix (m : Mach) (x : Nat) (d : Slice) : (m.setSlice x d).msix = m.msix := rfl
@[simp] theorem Mach.setSlice_posts (m : Mach) (x : Nat) (d : Slice) : (m.setSlice x d).posts = m.posts := rfl
@[simp] theorem Mach.setSlice_queues (m : Mach) (x : Nat) (d : Slice) : (m.setSlice x d).queues = m.queues := rfl
@[simp] theorem Mach.setSlice_qevents (m : Mach) (x : Nat) (d : Slice) : (m.setSlice x d).qevents = m.qevents := rfl
@[simp] theorem Mach.setSlice_stages (m : Mach) (x : Nat) (d : Slice) : (m.setSlice x d).stages = m.stages := rfl
@[simp] theorem Mach.setSlice_behind (m : Mach) (x : Nat) (d : Slice) : (m.setSlice x d).behind = m.behind := rfl
@[simp] theorem Mach.setSlice_groups (m : Mach) (x : Nat) (d : Slice) : (m.setSlice x d).groups = m.groups := rfl
@[simp] theorem Mach.setSlice_wins (m : Mach) (x : Nat) (d : Slice) : (m.setSlice x d).wins = m.wins := rfl
@[simp] theorem Mach.setSlice_timers (m : Mach) (x : Nat) (d : Slice) : (m.setSlice x d).timers = m.timers := rfl
@[simp] theorem Mach.setSlice_banks (m : Mach) (x : Nat) (d : Slice) : (m.setSlice x d).banks = m.banks := rfl
@[simp] theorem Mach.setSlice_slots (m : Mach) (x : Nat) (d : Slice) : (m.setSlice x d).slots = m.slots := rfl
@[simp] theorem Mach.setSlice_cells (m : Mach) (x : Nat) (d : Slice) : (m.setSlice x d).cells = m.cells := rfl
@[simp] theorem Mach.setSlice_cmps (m : Mach) (x : Nat) (d : Slice) : (m.setSlice x d).cmps = m.cmps := rfl
@[simp] theorem Mach.setSlice_ports (m : Mach) (x : Nat) (d : Slice) : (m.setSlice x d).ports = m.ports := rfl
@[simp] theorem Mach.setSlice_eths (m : Mach) (x : Nat) (d : Slice) : (m.setSlice x d).eths = m.eths := rfl
@[simp] theorem Mach.setSlice_tecs (m : Mach) (x : Nat) (d : Slice) : (m.setSlice x d).tecs = m.tecs := rfl
@[simp] theorem Mach.setSlice_des (m : Mach) (x : Nat) (d : Slice) : (m.setSlice x d).des = m.des := rfl
@[simp] theorem Mach.setSlice_viss (m : Mach) (x : Nat) (d : Slice) : (m.setSlice x d).viss = m.viss := rfl
@[simp] theorem Mach.setSlice_stos (m : Mach) (x : Nat) (d : Slice) : (m.setSlice x d).stos = m.stos := rfl
@[simp] theorem Mach.setSlice_sent (m : Mach) (x : Nat) (d : Slice) : (m.setSlice x d).sent = m.sent := rfl
@[simp] theorem Mach.setSlice_tunnel (m : Mach) (x : Nat) (d : Slice) : (m.setSlice x d).tunnel = m.tunnel := rfl
@[simp] theorem Mach.setSlice_wds (m : Mach) (x : Nat) (d : Slice) : (m.setSlice x d).wds = m.wds := rfl
@[simp] theorem Mach.setSlice_sup (m : Mach) (x : Nat) (d : Slice) : (m.setSlice x d).sup = m.sup := rfl
@[simp] theorem Mach.setSlice_reeds (m : Mach) (x : Nat) (d : Slice) : (m.setSlice x d).reeds = m.reeds := rfl
@[simp] theorem Mach.setSlice_pairs (m : Mach) (x : Nat) (d : Slice) : (m.setSlice x d).pairs = m.pairs := rfl
@[simp] theorem Mach.setSlice_secure (m : Mach) (x : Nat) (d : Slice) : (m.setSlice x d).secure = m.secure := rfl
@[simp] theorem Mach.setSlice_power (m : Mach) (x : Nat) (d : Slice) : (m.setSlice x d).power = m.power := rfl
@[simp] theorem Mach.setSlice_dbg (m : Mach) (x : Nat) (d : Slice) : (m.setSlice x d).dbg = m.dbg := rfl
@[simp] theorem Mach.setSlice_tap (m : Mach) (x : Nat) (d : Slice) : (m.setSlice x d).tap = m.tap := rfl
@[simp] theorem Mach.setSlice_ret (m : Mach) (x : Nat) (d : Slice) : (m.setSlice x d).ret = m.ret := rfl

@[simp] theorem Mach.setTimer_now (m : Mach) (x : Nat) (d : Timer) : (m.setTimer x d).now = m.now := rfl
@[simp] theorem Mach.setTimer_fresh (m : Mach) (x : Nat) (d : Timer) : (m.setTimer x d).fresh = m.fresh := rfl
@[simp] theorem Mach.setTimer_held (m : Mach) (x : Nat) (d : Timer) : (m.setTimer x d).held = m.held := rfl
@[simp] theorem Mach.setTimer_regs (m : Mach) (x : Nat) (d : Timer) : (m.setTimer x d).regs = m.regs := rfl
@[simp] theorem Mach.setTimer_shadow (m : Mach) (x : Nat) (d : Timer) : (m.setTimer x d).shadow = m.shadow := rfl
@[simp] theorem Mach.setTimer_resp (m : Mach) (x : Nat) (d : Timer) : (m.setTimer x d).resp = m.resp := rfl
@[simp] theorem Mach.setTimer_mem (m : Mach) (x : Nat) (d : Timer) : (m.setTimer x d).mem = m.mem := rfl
@[simp] theorem Mach.setTimer_ecc (m : Mach) (x : Nat) (d : Timer) : (m.setTimer x d).ecc = m.ecc := rfl
@[simp] theorem Mach.setTimer_flash (m : Mach) (x : Nat) (d : Timer) : (m.setTimer x d).flash = m.flash := rfl
@[simp] theorem Mach.setTimer_host (m : Mach) (x : Nat) (d : Timer) : (m.setTimer x d).host = m.host := rfl
@[simp] theorem Mach.setTimer_msix (m : Mach) (x : Nat) (d : Timer) : (m.setTimer x d).msix = m.msix := rfl
@[simp] theorem Mach.setTimer_posts (m : Mach) (x : Nat) (d : Timer) : (m.setTimer x d).posts = m.posts := rfl
@[simp] theorem Mach.setTimer_queues (m : Mach) (x : Nat) (d : Timer) : (m.setTimer x d).queues = m.queues := rfl
@[simp] theorem Mach.setTimer_qevents (m : Mach) (x : Nat) (d : Timer) : (m.setTimer x d).qevents = m.qevents := rfl
@[simp] theorem Mach.setTimer_stages (m : Mach) (x : Nat) (d : Timer) : (m.setTimer x d).stages = m.stages := rfl
@[simp] theorem Mach.setTimer_behind (m : Mach) (x : Nat) (d : Timer) : (m.setTimer x d).behind = m.behind := rfl
@[simp] theorem Mach.setTimer_groups (m : Mach) (x : Nat) (d : Timer) : (m.setTimer x d).groups = m.groups := rfl
@[simp] theorem Mach.setTimer_wins (m : Mach) (x : Nat) (d : Timer) : (m.setTimer x d).wins = m.wins := rfl
@[simp] theorem Mach.setTimer_slices (m : Mach) (x : Nat) (d : Timer) : (m.setTimer x d).slices = m.slices := rfl
@[simp] theorem Mach.setTimer_banks (m : Mach) (x : Nat) (d : Timer) : (m.setTimer x d).banks = m.banks := rfl
@[simp] theorem Mach.setTimer_slots (m : Mach) (x : Nat) (d : Timer) : (m.setTimer x d).slots = m.slots := rfl
@[simp] theorem Mach.setTimer_cells (m : Mach) (x : Nat) (d : Timer) : (m.setTimer x d).cells = m.cells := rfl
@[simp] theorem Mach.setTimer_cmps (m : Mach) (x : Nat) (d : Timer) : (m.setTimer x d).cmps = m.cmps := rfl
@[simp] theorem Mach.setTimer_ports (m : Mach) (x : Nat) (d : Timer) : (m.setTimer x d).ports = m.ports := rfl
@[simp] theorem Mach.setTimer_eths (m : Mach) (x : Nat) (d : Timer) : (m.setTimer x d).eths = m.eths := rfl
@[simp] theorem Mach.setTimer_tecs (m : Mach) (x : Nat) (d : Timer) : (m.setTimer x d).tecs = m.tecs := rfl
@[simp] theorem Mach.setTimer_des (m : Mach) (x : Nat) (d : Timer) : (m.setTimer x d).des = m.des := rfl
@[simp] theorem Mach.setTimer_viss (m : Mach) (x : Nat) (d : Timer) : (m.setTimer x d).viss = m.viss := rfl
@[simp] theorem Mach.setTimer_stos (m : Mach) (x : Nat) (d : Timer) : (m.setTimer x d).stos = m.stos := rfl
@[simp] theorem Mach.setTimer_sent (m : Mach) (x : Nat) (d : Timer) : (m.setTimer x d).sent = m.sent := rfl
@[simp] theorem Mach.setTimer_tunnel (m : Mach) (x : Nat) (d : Timer) : (m.setTimer x d).tunnel = m.tunnel := rfl
@[simp] theorem Mach.setTimer_wds (m : Mach) (x : Nat) (d : Timer) : (m.setTimer x d).wds = m.wds := rfl
@[simp] theorem Mach.setTimer_sup (m : Mach) (x : Nat) (d : Timer) : (m.setTimer x d).sup = m.sup := rfl
@[simp] theorem Mach.setTimer_reeds (m : Mach) (x : Nat) (d : Timer) : (m.setTimer x d).reeds = m.reeds := rfl
@[simp] theorem Mach.setTimer_pairs (m : Mach) (x : Nat) (d : Timer) : (m.setTimer x d).pairs = m.pairs := rfl
@[simp] theorem Mach.setTimer_secure (m : Mach) (x : Nat) (d : Timer) : (m.setTimer x d).secure = m.secure := rfl
@[simp] theorem Mach.setTimer_power (m : Mach) (x : Nat) (d : Timer) : (m.setTimer x d).power = m.power := rfl
@[simp] theorem Mach.setTimer_dbg (m : Mach) (x : Nat) (d : Timer) : (m.setTimer x d).dbg = m.dbg := rfl
@[simp] theorem Mach.setTimer_tap (m : Mach) (x : Nat) (d : Timer) : (m.setTimer x d).tap = m.tap := rfl
@[simp] theorem Mach.setTimer_ret (m : Mach) (x : Nat) (d : Timer) : (m.setTimer x d).ret = m.ret := rfl

@[simp] theorem Mach.setGroup_now (m : Mach) (g : Nat) (d : Group) : (m.setGroup g d).now = m.now := rfl
@[simp] theorem Mach.setGroup_fresh (m : Mach) (g : Nat) (d : Group) : (m.setGroup g d).fresh = m.fresh := rfl
@[simp] theorem Mach.setGroup_held (m : Mach) (g : Nat) (d : Group) : (m.setGroup g d).held = m.held := rfl
@[simp] theorem Mach.setGroup_regs (m : Mach) (g : Nat) (d : Group) : (m.setGroup g d).regs = m.regs := rfl
@[simp] theorem Mach.setGroup_shadow (m : Mach) (g : Nat) (d : Group) : (m.setGroup g d).shadow = m.shadow := rfl
@[simp] theorem Mach.setGroup_resp (m : Mach) (g : Nat) (d : Group) : (m.setGroup g d).resp = m.resp := rfl
@[simp] theorem Mach.setGroup_mem (m : Mach) (g : Nat) (d : Group) : (m.setGroup g d).mem = m.mem := rfl
@[simp] theorem Mach.setGroup_ecc (m : Mach) (g : Nat) (d : Group) : (m.setGroup g d).ecc = m.ecc := rfl
@[simp] theorem Mach.setGroup_flash (m : Mach) (g : Nat) (d : Group) : (m.setGroup g d).flash = m.flash := rfl
@[simp] theorem Mach.setGroup_host (m : Mach) (g : Nat) (d : Group) : (m.setGroup g d).host = m.host := rfl
@[simp] theorem Mach.setGroup_msix (m : Mach) (g : Nat) (d : Group) : (m.setGroup g d).msix = m.msix := rfl
@[simp] theorem Mach.setGroup_posts (m : Mach) (g : Nat) (d : Group) : (m.setGroup g d).posts = m.posts := rfl
@[simp] theorem Mach.setGroup_queues (m : Mach) (g : Nat) (d : Group) : (m.setGroup g d).queues = m.queues := rfl
@[simp] theorem Mach.setGroup_qevents (m : Mach) (g : Nat) (d : Group) : (m.setGroup g d).qevents = m.qevents := rfl
@[simp] theorem Mach.setGroup_stages (m : Mach) (g : Nat) (d : Group) : (m.setGroup g d).stages = m.stages := rfl
@[simp] theorem Mach.setGroup_behind (m : Mach) (g : Nat) (d : Group) : (m.setGroup g d).behind = m.behind := rfl
@[simp] theorem Mach.setGroup_wins (m : Mach) (g : Nat) (d : Group) : (m.setGroup g d).wins = m.wins := rfl
@[simp] theorem Mach.setGroup_slices (m : Mach) (g : Nat) (d : Group) : (m.setGroup g d).slices = m.slices := rfl
@[simp] theorem Mach.setGroup_timers (m : Mach) (g : Nat) (d : Group) : (m.setGroup g d).timers = m.timers := rfl
@[simp] theorem Mach.setGroup_banks (m : Mach) (g : Nat) (d : Group) : (m.setGroup g d).banks = m.banks := rfl
@[simp] theorem Mach.setGroup_slots (m : Mach) (g : Nat) (d : Group) : (m.setGroup g d).slots = m.slots := rfl
@[simp] theorem Mach.setGroup_cells (m : Mach) (g : Nat) (d : Group) : (m.setGroup g d).cells = m.cells := rfl
@[simp] theorem Mach.setGroup_cmps (m : Mach) (g : Nat) (d : Group) : (m.setGroup g d).cmps = m.cmps := rfl
@[simp] theorem Mach.setGroup_ports (m : Mach) (g : Nat) (d : Group) : (m.setGroup g d).ports = m.ports := rfl
@[simp] theorem Mach.setGroup_eths (m : Mach) (g : Nat) (d : Group) : (m.setGroup g d).eths = m.eths := rfl
@[simp] theorem Mach.setGroup_tecs (m : Mach) (g : Nat) (d : Group) : (m.setGroup g d).tecs = m.tecs := rfl
@[simp] theorem Mach.setGroup_des (m : Mach) (g : Nat) (d : Group) : (m.setGroup g d).des = m.des := rfl
@[simp] theorem Mach.setGroup_viss (m : Mach) (g : Nat) (d : Group) : (m.setGroup g d).viss = m.viss := rfl
@[simp] theorem Mach.setGroup_stos (m : Mach) (g : Nat) (d : Group) : (m.setGroup g d).stos = m.stos := rfl
@[simp] theorem Mach.setGroup_sent (m : Mach) (g : Nat) (d : Group) : (m.setGroup g d).sent = m.sent := rfl
@[simp] theorem Mach.setGroup_tunnel (m : Mach) (g : Nat) (d : Group) : (m.setGroup g d).tunnel = m.tunnel := rfl
@[simp] theorem Mach.setGroup_wds (m : Mach) (g : Nat) (d : Group) : (m.setGroup g d).wds = m.wds := rfl
@[simp] theorem Mach.setGroup_sup (m : Mach) (g : Nat) (d : Group) : (m.setGroup g d).sup = m.sup := rfl
@[simp] theorem Mach.setGroup_reeds (m : Mach) (g : Nat) (d : Group) : (m.setGroup g d).reeds = m.reeds := rfl
@[simp] theorem Mach.setGroup_pairs (m : Mach) (g : Nat) (d : Group) : (m.setGroup g d).pairs = m.pairs := rfl
@[simp] theorem Mach.setGroup_secure (m : Mach) (g : Nat) (d : Group) : (m.setGroup g d).secure = m.secure := rfl
@[simp] theorem Mach.setGroup_power (m : Mach) (g : Nat) (d : Group) : (m.setGroup g d).power = m.power := rfl
@[simp] theorem Mach.setGroup_dbg (m : Mach) (g : Nat) (d : Group) : (m.setGroup g d).dbg = m.dbg := rfl
@[simp] theorem Mach.setGroup_tap (m : Mach) (g : Nat) (d : Group) : (m.setGroup g d).tap = m.tap := rfl
@[simp] theorem Mach.setGroup_ret (m : Mach) (g : Nat) (d : Group) : (m.setGroup g d).ret = m.ret := rfl

@[simp] theorem Mach.setWin_now (m : Mach) (w : Nat) (d : Win) : (m.setWin w d).now = m.now := rfl
@[simp] theorem Mach.setWin_fresh (m : Mach) (w : Nat) (d : Win) : (m.setWin w d).fresh = m.fresh := rfl
@[simp] theorem Mach.setWin_held (m : Mach) (w : Nat) (d : Win) : (m.setWin w d).held = m.held := rfl
@[simp] theorem Mach.setWin_regs (m : Mach) (w : Nat) (d : Win) : (m.setWin w d).regs = m.regs := rfl
@[simp] theorem Mach.setWin_shadow (m : Mach) (w : Nat) (d : Win) : (m.setWin w d).shadow = m.shadow := rfl
@[simp] theorem Mach.setWin_resp (m : Mach) (w : Nat) (d : Win) : (m.setWin w d).resp = m.resp := rfl
@[simp] theorem Mach.setWin_mem (m : Mach) (w : Nat) (d : Win) : (m.setWin w d).mem = m.mem := rfl
@[simp] theorem Mach.setWin_ecc (m : Mach) (w : Nat) (d : Win) : (m.setWin w d).ecc = m.ecc := rfl
@[simp] theorem Mach.setWin_flash (m : Mach) (w : Nat) (d : Win) : (m.setWin w d).flash = m.flash := rfl
@[simp] theorem Mach.setWin_host (m : Mach) (w : Nat) (d : Win) : (m.setWin w d).host = m.host := rfl
@[simp] theorem Mach.setWin_msix (m : Mach) (w : Nat) (d : Win) : (m.setWin w d).msix = m.msix := rfl
@[simp] theorem Mach.setWin_posts (m : Mach) (w : Nat) (d : Win) : (m.setWin w d).posts = m.posts := rfl
@[simp] theorem Mach.setWin_queues (m : Mach) (w : Nat) (d : Win) : (m.setWin w d).queues = m.queues := rfl
@[simp] theorem Mach.setWin_qevents (m : Mach) (w : Nat) (d : Win) : (m.setWin w d).qevents = m.qevents := rfl
@[simp] theorem Mach.setWin_stages (m : Mach) (w : Nat) (d : Win) : (m.setWin w d).stages = m.stages := rfl
@[simp] theorem Mach.setWin_behind (m : Mach) (w : Nat) (d : Win) : (m.setWin w d).behind = m.behind := rfl
@[simp] theorem Mach.setWin_groups (m : Mach) (w : Nat) (d : Win) : (m.setWin w d).groups = m.groups := rfl
@[simp] theorem Mach.setWin_slices (m : Mach) (w : Nat) (d : Win) : (m.setWin w d).slices = m.slices := rfl
@[simp] theorem Mach.setWin_timers (m : Mach) (w : Nat) (d : Win) : (m.setWin w d).timers = m.timers := rfl
@[simp] theorem Mach.setWin_banks (m : Mach) (w : Nat) (d : Win) : (m.setWin w d).banks = m.banks := rfl
@[simp] theorem Mach.setWin_slots (m : Mach) (w : Nat) (d : Win) : (m.setWin w d).slots = m.slots := rfl
@[simp] theorem Mach.setWin_cells (m : Mach) (w : Nat) (d : Win) : (m.setWin w d).cells = m.cells := rfl
@[simp] theorem Mach.setWin_cmps (m : Mach) (w : Nat) (d : Win) : (m.setWin w d).cmps = m.cmps := rfl
@[simp] theorem Mach.setWin_ports (m : Mach) (w : Nat) (d : Win) : (m.setWin w d).ports = m.ports := rfl
@[simp] theorem Mach.setWin_eths (m : Mach) (w : Nat) (d : Win) : (m.setWin w d).eths = m.eths := rfl
@[simp] theorem Mach.setWin_tecs (m : Mach) (w : Nat) (d : Win) : (m.setWin w d).tecs = m.tecs := rfl
@[simp] theorem Mach.setWin_des (m : Mach) (w : Nat) (d : Win) : (m.setWin w d).des = m.des := rfl
@[simp] theorem Mach.setWin_viss (m : Mach) (w : Nat) (d : Win) : (m.setWin w d).viss = m.viss := rfl
@[simp] theorem Mach.setWin_stos (m : Mach) (w : Nat) (d : Win) : (m.setWin w d).stos = m.stos := rfl
@[simp] theorem Mach.setWin_sent (m : Mach) (w : Nat) (d : Win) : (m.setWin w d).sent = m.sent := rfl
@[simp] theorem Mach.setWin_tunnel (m : Mach) (w : Nat) (d : Win) : (m.setWin w d).tunnel = m.tunnel := rfl
@[simp] theorem Mach.setWin_wds (m : Mach) (w : Nat) (d : Win) : (m.setWin w d).wds = m.wds := rfl
@[simp] theorem Mach.setWin_sup (m : Mach) (w : Nat) (d : Win) : (m.setWin w d).sup = m.sup := rfl
@[simp] theorem Mach.setWin_reeds (m : Mach) (w : Nat) (d : Win) : (m.setWin w d).reeds = m.reeds := rfl
@[simp] theorem Mach.setWin_pairs (m : Mach) (w : Nat) (d : Win) : (m.setWin w d).pairs = m.pairs := rfl
@[simp] theorem Mach.setWin_secure (m : Mach) (w : Nat) (d : Win) : (m.setWin w d).secure = m.secure := rfl
@[simp] theorem Mach.setWin_power (m : Mach) (w : Nat) (d : Win) : (m.setWin w d).power = m.power := rfl
@[simp] theorem Mach.setWin_dbg (m : Mach) (w : Nat) (d : Win) : (m.setWin w d).dbg = m.dbg := rfl
@[simp] theorem Mach.setWin_tap (m : Mach) (w : Nat) (d : Win) : (m.setWin w d).tap = m.tap := rfl
@[simp] theorem Mach.setWin_ret (m : Mach) (w : Nat) (d : Win) : (m.setWin w d).ret = m.ret := rfl

@[simp] theorem Mach.setBank_now (m : Mach) (b : Nat) (d : Bank) : (m.setBank b d).now = m.now := rfl
@[simp] theorem Mach.setBank_fresh (m : Mach) (b : Nat) (d : Bank) : (m.setBank b d).fresh = m.fresh := rfl
@[simp] theorem Mach.setBank_held (m : Mach) (b : Nat) (d : Bank) : (m.setBank b d).held = m.held := rfl
@[simp] theorem Mach.setBank_regs (m : Mach) (b : Nat) (d : Bank) : (m.setBank b d).regs = m.regs := rfl
@[simp] theorem Mach.setBank_shadow (m : Mach) (b : Nat) (d : Bank) : (m.setBank b d).shadow = m.shadow := rfl
@[simp] theorem Mach.setBank_resp (m : Mach) (b : Nat) (d : Bank) : (m.setBank b d).resp = m.resp := rfl
@[simp] theorem Mach.setBank_mem (m : Mach) (b : Nat) (d : Bank) : (m.setBank b d).mem = m.mem := rfl
@[simp] theorem Mach.setBank_ecc (m : Mach) (b : Nat) (d : Bank) : (m.setBank b d).ecc = m.ecc := rfl
@[simp] theorem Mach.setBank_flash (m : Mach) (b : Nat) (d : Bank) : (m.setBank b d).flash = m.flash := rfl
@[simp] theorem Mach.setBank_host (m : Mach) (b : Nat) (d : Bank) : (m.setBank b d).host = m.host := rfl
@[simp] theorem Mach.setBank_msix (m : Mach) (b : Nat) (d : Bank) : (m.setBank b d).msix = m.msix := rfl
@[simp] theorem Mach.setBank_posts (m : Mach) (b : Nat) (d : Bank) : (m.setBank b d).posts = m.posts := rfl
@[simp] theorem Mach.setBank_queues (m : Mach) (b : Nat) (d : Bank) : (m.setBank b d).queues = m.queues := rfl
@[simp] theorem Mach.setBank_qevents (m : Mach) (b : Nat) (d : Bank) : (m.setBank b d).qevents = m.qevents := rfl
@[simp] theorem Mach.setBank_stages (m : Mach) (b : Nat) (d : Bank) : (m.setBank b d).stages = m.stages := rfl
@[simp] theorem Mach.setBank_behind (m : Mach) (b : Nat) (d : Bank) : (m.setBank b d).behind = m.behind := rfl
@[simp] theorem Mach.setBank_groups (m : Mach) (b : Nat) (d : Bank) : (m.setBank b d).groups = m.groups := rfl
@[simp] theorem Mach.setBank_wins (m : Mach) (b : Nat) (d : Bank) : (m.setBank b d).wins = m.wins := rfl
@[simp] theorem Mach.setBank_slices (m : Mach) (b : Nat) (d : Bank) : (m.setBank b d).slices = m.slices := rfl
@[simp] theorem Mach.setBank_timers (m : Mach) (b : Nat) (d : Bank) : (m.setBank b d).timers = m.timers := rfl
@[simp] theorem Mach.setBank_slots (m : Mach) (b : Nat) (d : Bank) : (m.setBank b d).slots = m.slots := rfl
@[simp] theorem Mach.setBank_cells (m : Mach) (b : Nat) (d : Bank) : (m.setBank b d).cells = m.cells := rfl
@[simp] theorem Mach.setBank_cmps (m : Mach) (b : Nat) (d : Bank) : (m.setBank b d).cmps = m.cmps := rfl
@[simp] theorem Mach.setBank_ports (m : Mach) (b : Nat) (d : Bank) : (m.setBank b d).ports = m.ports := rfl
@[simp] theorem Mach.setBank_eths (m : Mach) (b : Nat) (d : Bank) : (m.setBank b d).eths = m.eths := rfl
@[simp] theorem Mach.setBank_tecs (m : Mach) (b : Nat) (d : Bank) : (m.setBank b d).tecs = m.tecs := rfl
@[simp] theorem Mach.setBank_des (m : Mach) (b : Nat) (d : Bank) : (m.setBank b d).des = m.des := rfl
@[simp] theorem Mach.setBank_viss (m : Mach) (b : Nat) (d : Bank) : (m.setBank b d).viss = m.viss := rfl
@[simp] theorem Mach.setBank_stos (m : Mach) (b : Nat) (d : Bank) : (m.setBank b d).stos = m.stos := rfl
@[simp] theorem Mach.setBank_sent (m : Mach) (b : Nat) (d : Bank) : (m.setBank b d).sent = m.sent := rfl
@[simp] theorem Mach.setBank_tunnel (m : Mach) (b : Nat) (d : Bank) : (m.setBank b d).tunnel = m.tunnel := rfl
@[simp] theorem Mach.setBank_wds (m : Mach) (b : Nat) (d : Bank) : (m.setBank b d).wds = m.wds := rfl
@[simp] theorem Mach.setBank_sup (m : Mach) (b : Nat) (d : Bank) : (m.setBank b d).sup = m.sup := rfl
@[simp] theorem Mach.setBank_reeds (m : Mach) (b : Nat) (d : Bank) : (m.setBank b d).reeds = m.reeds := rfl
@[simp] theorem Mach.setBank_pairs (m : Mach) (b : Nat) (d : Bank) : (m.setBank b d).pairs = m.pairs := rfl
@[simp] theorem Mach.setBank_secure (m : Mach) (b : Nat) (d : Bank) : (m.setBank b d).secure = m.secure := rfl
@[simp] theorem Mach.setBank_power (m : Mach) (b : Nat) (d : Bank) : (m.setBank b d).power = m.power := rfl
@[simp] theorem Mach.setBank_dbg (m : Mach) (b : Nat) (d : Bank) : (m.setBank b d).dbg = m.dbg := rfl
@[simp] theorem Mach.setBank_tap (m : Mach) (b : Nat) (d : Bank) : (m.setBank b d).tap = m.tap := rfl
@[simp] theorem Mach.setBank_ret (m : Mach) (b : Nat) (d : Bank) : (m.setBank b d).ret = m.ret := rfl

@[simp] theorem Mach.setSlot_now (m : Mach) (i : Nat) (d : Slot) : (m.setSlot i d).now = m.now := rfl
@[simp] theorem Mach.setSlot_fresh (m : Mach) (i : Nat) (d : Slot) : (m.setSlot i d).fresh = m.fresh := rfl
@[simp] theorem Mach.setSlot_held (m : Mach) (i : Nat) (d : Slot) : (m.setSlot i d).held = m.held := rfl
@[simp] theorem Mach.setSlot_regs (m : Mach) (i : Nat) (d : Slot) : (m.setSlot i d).regs = m.regs := rfl
@[simp] theorem Mach.setSlot_shadow (m : Mach) (i : Nat) (d : Slot) : (m.setSlot i d).shadow = m.shadow := rfl
@[simp] theorem Mach.setSlot_resp (m : Mach) (i : Nat) (d : Slot) : (m.setSlot i d).resp = m.resp := rfl
@[simp] theorem Mach.setSlot_mem (m : Mach) (i : Nat) (d : Slot) : (m.setSlot i d).mem = m.mem := rfl
@[simp] theorem Mach.setSlot_ecc (m : Mach) (i : Nat) (d : Slot) : (m.setSlot i d).ecc = m.ecc := rfl
@[simp] theorem Mach.setSlot_flash (m : Mach) (i : Nat) (d : Slot) : (m.setSlot i d).flash = m.flash := rfl
@[simp] theorem Mach.setSlot_host (m : Mach) (i : Nat) (d : Slot) : (m.setSlot i d).host = m.host := rfl
@[simp] theorem Mach.setSlot_msix (m : Mach) (i : Nat) (d : Slot) : (m.setSlot i d).msix = m.msix := rfl
@[simp] theorem Mach.setSlot_posts (m : Mach) (i : Nat) (d : Slot) : (m.setSlot i d).posts = m.posts := rfl
@[simp] theorem Mach.setSlot_queues (m : Mach) (i : Nat) (d : Slot) : (m.setSlot i d).queues = m.queues := rfl
@[simp] theorem Mach.setSlot_qevents (m : Mach) (i : Nat) (d : Slot) : (m.setSlot i d).qevents = m.qevents := rfl
@[simp] theorem Mach.setSlot_stages (m : Mach) (i : Nat) (d : Slot) : (m.setSlot i d).stages = m.stages := rfl
@[simp] theorem Mach.setSlot_behind (m : Mach) (i : Nat) (d : Slot) : (m.setSlot i d).behind = m.behind := rfl
@[simp] theorem Mach.setSlot_groups (m : Mach) (i : Nat) (d : Slot) : (m.setSlot i d).groups = m.groups := rfl
@[simp] theorem Mach.setSlot_wins (m : Mach) (i : Nat) (d : Slot) : (m.setSlot i d).wins = m.wins := rfl
@[simp] theorem Mach.setSlot_slices (m : Mach) (i : Nat) (d : Slot) : (m.setSlot i d).slices = m.slices := rfl
@[simp] theorem Mach.setSlot_timers (m : Mach) (i : Nat) (d : Slot) : (m.setSlot i d).timers = m.timers := rfl
@[simp] theorem Mach.setSlot_banks (m : Mach) (i : Nat) (d : Slot) : (m.setSlot i d).banks = m.banks := rfl
@[simp] theorem Mach.setSlot_cells (m : Mach) (i : Nat) (d : Slot) : (m.setSlot i d).cells = m.cells := rfl
@[simp] theorem Mach.setSlot_cmps (m : Mach) (i : Nat) (d : Slot) : (m.setSlot i d).cmps = m.cmps := rfl
@[simp] theorem Mach.setSlot_ports (m : Mach) (i : Nat) (d : Slot) : (m.setSlot i d).ports = m.ports := rfl
@[simp] theorem Mach.setSlot_eths (m : Mach) (i : Nat) (d : Slot) : (m.setSlot i d).eths = m.eths := rfl
@[simp] theorem Mach.setSlot_tecs (m : Mach) (i : Nat) (d : Slot) : (m.setSlot i d).tecs = m.tecs := rfl
@[simp] theorem Mach.setSlot_des (m : Mach) (i : Nat) (d : Slot) : (m.setSlot i d).des = m.des := rfl
@[simp] theorem Mach.setSlot_viss (m : Mach) (i : Nat) (d : Slot) : (m.setSlot i d).viss = m.viss := rfl
@[simp] theorem Mach.setSlot_stos (m : Mach) (i : Nat) (d : Slot) : (m.setSlot i d).stos = m.stos := rfl
@[simp] theorem Mach.setSlot_sent (m : Mach) (i : Nat) (d : Slot) : (m.setSlot i d).sent = m.sent := rfl
@[simp] theorem Mach.setSlot_tunnel (m : Mach) (i : Nat) (d : Slot) : (m.setSlot i d).tunnel = m.tunnel := rfl
@[simp] theorem Mach.setSlot_wds (m : Mach) (i : Nat) (d : Slot) : (m.setSlot i d).wds = m.wds := rfl
@[simp] theorem Mach.setSlot_sup (m : Mach) (i : Nat) (d : Slot) : (m.setSlot i d).sup = m.sup := rfl
@[simp] theorem Mach.setSlot_reeds (m : Mach) (i : Nat) (d : Slot) : (m.setSlot i d).reeds = m.reeds := rfl
@[simp] theorem Mach.setSlot_pairs (m : Mach) (i : Nat) (d : Slot) : (m.setSlot i d).pairs = m.pairs := rfl
@[simp] theorem Mach.setSlot_secure (m : Mach) (i : Nat) (d : Slot) : (m.setSlot i d).secure = m.secure := rfl
@[simp] theorem Mach.setSlot_power (m : Mach) (i : Nat) (d : Slot) : (m.setSlot i d).power = m.power := rfl
@[simp] theorem Mach.setSlot_dbg (m : Mach) (i : Nat) (d : Slot) : (m.setSlot i d).dbg = m.dbg := rfl
@[simp] theorem Mach.setSlot_tap (m : Mach) (i : Nat) (d : Slot) : (m.setSlot i d).tap = m.tap := rfl
@[simp] theorem Mach.setSlot_ret (m : Mach) (i : Nat) (d : Slot) : (m.setSlot i d).ret = m.ret := rfl

@[simp] theorem Mach.setCell_now (m : Mach) (i : Nat) (d : Cell) : (m.setCell i d).now = m.now := rfl
@[simp] theorem Mach.setCell_fresh (m : Mach) (i : Nat) (d : Cell) : (m.setCell i d).fresh = m.fresh := rfl
@[simp] theorem Mach.setCell_held (m : Mach) (i : Nat) (d : Cell) : (m.setCell i d).held = m.held := rfl
@[simp] theorem Mach.setCell_regs (m : Mach) (i : Nat) (d : Cell) : (m.setCell i d).regs = m.regs := rfl
@[simp] theorem Mach.setCell_shadow (m : Mach) (i : Nat) (d : Cell) : (m.setCell i d).shadow = m.shadow := rfl
@[simp] theorem Mach.setCell_resp (m : Mach) (i : Nat) (d : Cell) : (m.setCell i d).resp = m.resp := rfl
@[simp] theorem Mach.setCell_mem (m : Mach) (i : Nat) (d : Cell) : (m.setCell i d).mem = m.mem := rfl
@[simp] theorem Mach.setCell_ecc (m : Mach) (i : Nat) (d : Cell) : (m.setCell i d).ecc = m.ecc := rfl
@[simp] theorem Mach.setCell_flash (m : Mach) (i : Nat) (d : Cell) : (m.setCell i d).flash = m.flash := rfl
@[simp] theorem Mach.setCell_host (m : Mach) (i : Nat) (d : Cell) : (m.setCell i d).host = m.host := rfl
@[simp] theorem Mach.setCell_msix (m : Mach) (i : Nat) (d : Cell) : (m.setCell i d).msix = m.msix := rfl
@[simp] theorem Mach.setCell_posts (m : Mach) (i : Nat) (d : Cell) : (m.setCell i d).posts = m.posts := rfl
@[simp] theorem Mach.setCell_queues (m : Mach) (i : Nat) (d : Cell) : (m.setCell i d).queues = m.queues := rfl
@[simp] theorem Mach.setCell_qevents (m : Mach) (i : Nat) (d : Cell) : (m.setCell i d).qevents = m.qevents := rfl
@[simp] theorem Mach.setCell_stages (m : Mach) (i : Nat) (d : Cell) : (m.setCell i d).stages = m.stages := rfl
@[simp] theorem Mach.setCell_behind (m : Mach) (i : Nat) (d : Cell) : (m.setCell i d).behind = m.behind := rfl
@[simp] theorem Mach.setCell_groups (m : Mach) (i : Nat) (d : Cell) : (m.setCell i d).groups = m.groups := rfl
@[simp] theorem Mach.setCell_wins (m : Mach) (i : Nat) (d : Cell) : (m.setCell i d).wins = m.wins := rfl
@[simp] theorem Mach.setCell_slices (m : Mach) (i : Nat) (d : Cell) : (m.setCell i d).slices = m.slices := rfl
@[simp] theorem Mach.setCell_timers (m : Mach) (i : Nat) (d : Cell) : (m.setCell i d).timers = m.timers := rfl
@[simp] theorem Mach.setCell_banks (m : Mach) (i : Nat) (d : Cell) : (m.setCell i d).banks = m.banks := rfl
@[simp] theorem Mach.setCell_slots (m : Mach) (i : Nat) (d : Cell) : (m.setCell i d).slots = m.slots := rfl
@[simp] theorem Mach.setCell_cmps (m : Mach) (i : Nat) (d : Cell) : (m.setCell i d).cmps = m.cmps := rfl
@[simp] theorem Mach.setCell_ports (m : Mach) (i : Nat) (d : Cell) : (m.setCell i d).ports = m.ports := rfl
@[simp] theorem Mach.setCell_eths (m : Mach) (i : Nat) (d : Cell) : (m.setCell i d).eths = m.eths := rfl
@[simp] theorem Mach.setCell_tecs (m : Mach) (i : Nat) (d : Cell) : (m.setCell i d).tecs = m.tecs := rfl
@[simp] theorem Mach.setCell_des (m : Mach) (i : Nat) (d : Cell) : (m.setCell i d).des = m.des := rfl
@[simp] theorem Mach.setCell_viss (m : Mach) (i : Nat) (d : Cell) : (m.setCell i d).viss = m.viss := rfl
@[simp] theorem Mach.setCell_stos (m : Mach) (i : Nat) (d : Cell) : (m.setCell i d).stos = m.stos := rfl
@[simp] theorem Mach.setCell_sent (m : Mach) (i : Nat) (d : Cell) : (m.setCell i d).sent = m.sent := rfl
@[simp] theorem Mach.setCell_tunnel (m : Mach) (i : Nat) (d : Cell) : (m.setCell i d).tunnel = m.tunnel := rfl
@[simp] theorem Mach.setCell_wds (m : Mach) (i : Nat) (d : Cell) : (m.setCell i d).wds = m.wds := rfl
@[simp] theorem Mach.setCell_sup (m : Mach) (i : Nat) (d : Cell) : (m.setCell i d).sup = m.sup := rfl
@[simp] theorem Mach.setCell_reeds (m : Mach) (i : Nat) (d : Cell) : (m.setCell i d).reeds = m.reeds := rfl
@[simp] theorem Mach.setCell_pairs (m : Mach) (i : Nat) (d : Cell) : (m.setCell i d).pairs = m.pairs := rfl
@[simp] theorem Mach.setCell_secure (m : Mach) (i : Nat) (d : Cell) : (m.setCell i d).secure = m.secure := rfl
@[simp] theorem Mach.setCell_power (m : Mach) (i : Nat) (d : Cell) : (m.setCell i d).power = m.power := rfl
@[simp] theorem Mach.setCell_dbg (m : Mach) (i : Nat) (d : Cell) : (m.setCell i d).dbg = m.dbg := rfl
@[simp] theorem Mach.setCell_tap (m : Mach) (i : Nat) (d : Cell) : (m.setCell i d).tap = m.tap := rfl
@[simp] theorem Mach.setCell_ret (m : Mach) (i : Nat) (d : Cell) : (m.setCell i d).ret = m.ret := rfl

@[simp] theorem Mach.setCmp_now (m : Mach) (c : Nat) (d : Cmp) : (m.setCmp c d).now = m.now := rfl
@[simp] theorem Mach.setCmp_fresh (m : Mach) (c : Nat) (d : Cmp) : (m.setCmp c d).fresh = m.fresh := rfl
@[simp] theorem Mach.setCmp_held (m : Mach) (c : Nat) (d : Cmp) : (m.setCmp c d).held = m.held := rfl
@[simp] theorem Mach.setCmp_regs (m : Mach) (c : Nat) (d : Cmp) : (m.setCmp c d).regs = m.regs := rfl
@[simp] theorem Mach.setCmp_shadow (m : Mach) (c : Nat) (d : Cmp) : (m.setCmp c d).shadow = m.shadow := rfl
@[simp] theorem Mach.setCmp_resp (m : Mach) (c : Nat) (d : Cmp) : (m.setCmp c d).resp = m.resp := rfl
@[simp] theorem Mach.setCmp_mem (m : Mach) (c : Nat) (d : Cmp) : (m.setCmp c d).mem = m.mem := rfl
@[simp] theorem Mach.setCmp_ecc (m : Mach) (c : Nat) (d : Cmp) : (m.setCmp c d).ecc = m.ecc := rfl
@[simp] theorem Mach.setCmp_flash (m : Mach) (c : Nat) (d : Cmp) : (m.setCmp c d).flash = m.flash := rfl
@[simp] theorem Mach.setCmp_host (m : Mach) (c : Nat) (d : Cmp) : (m.setCmp c d).host = m.host := rfl
@[simp] theorem Mach.setCmp_msix (m : Mach) (c : Nat) (d : Cmp) : (m.setCmp c d).msix = m.msix := rfl
@[simp] theorem Mach.setCmp_posts (m : Mach) (c : Nat) (d : Cmp) : (m.setCmp c d).posts = m.posts := rfl
@[simp] theorem Mach.setCmp_queues (m : Mach) (c : Nat) (d : Cmp) : (m.setCmp c d).queues = m.queues := rfl
@[simp] theorem Mach.setCmp_qevents (m : Mach) (c : Nat) (d : Cmp) : (m.setCmp c d).qevents = m.qevents := rfl
@[simp] theorem Mach.setCmp_stages (m : Mach) (c : Nat) (d : Cmp) : (m.setCmp c d).stages = m.stages := rfl
@[simp] theorem Mach.setCmp_behind (m : Mach) (c : Nat) (d : Cmp) : (m.setCmp c d).behind = m.behind := rfl
@[simp] theorem Mach.setCmp_groups (m : Mach) (c : Nat) (d : Cmp) : (m.setCmp c d).groups = m.groups := rfl
@[simp] theorem Mach.setCmp_wins (m : Mach) (c : Nat) (d : Cmp) : (m.setCmp c d).wins = m.wins := rfl
@[simp] theorem Mach.setCmp_slices (m : Mach) (c : Nat) (d : Cmp) : (m.setCmp c d).slices = m.slices := rfl
@[simp] theorem Mach.setCmp_timers (m : Mach) (c : Nat) (d : Cmp) : (m.setCmp c d).timers = m.timers := rfl
@[simp] theorem Mach.setCmp_banks (m : Mach) (c : Nat) (d : Cmp) : (m.setCmp c d).banks = m.banks := rfl
@[simp] theorem Mach.setCmp_slots (m : Mach) (c : Nat) (d : Cmp) : (m.setCmp c d).slots = m.slots := rfl
@[simp] theorem Mach.setCmp_cells (m : Mach) (c : Nat) (d : Cmp) : (m.setCmp c d).cells = m.cells := rfl
@[simp] theorem Mach.setCmp_ports (m : Mach) (c : Nat) (d : Cmp) : (m.setCmp c d).ports = m.ports := rfl
@[simp] theorem Mach.setCmp_eths (m : Mach) (c : Nat) (d : Cmp) : (m.setCmp c d).eths = m.eths := rfl
@[simp] theorem Mach.setCmp_tecs (m : Mach) (c : Nat) (d : Cmp) : (m.setCmp c d).tecs = m.tecs := rfl
@[simp] theorem Mach.setCmp_des (m : Mach) (c : Nat) (d : Cmp) : (m.setCmp c d).des = m.des := rfl
@[simp] theorem Mach.setCmp_viss (m : Mach) (c : Nat) (d : Cmp) : (m.setCmp c d).viss = m.viss := rfl
@[simp] theorem Mach.setCmp_stos (m : Mach) (c : Nat) (d : Cmp) : (m.setCmp c d).stos = m.stos := rfl
@[simp] theorem Mach.setCmp_sent (m : Mach) (c : Nat) (d : Cmp) : (m.setCmp c d).sent = m.sent := rfl
@[simp] theorem Mach.setCmp_tunnel (m : Mach) (c : Nat) (d : Cmp) : (m.setCmp c d).tunnel = m.tunnel := rfl
@[simp] theorem Mach.setCmp_wds (m : Mach) (c : Nat) (d : Cmp) : (m.setCmp c d).wds = m.wds := rfl
@[simp] theorem Mach.setCmp_sup (m : Mach) (c : Nat) (d : Cmp) : (m.setCmp c d).sup = m.sup := rfl
@[simp] theorem Mach.setCmp_reeds (m : Mach) (c : Nat) (d : Cmp) : (m.setCmp c d).reeds = m.reeds := rfl
@[simp] theorem Mach.setCmp_pairs (m : Mach) (c : Nat) (d : Cmp) : (m.setCmp c d).pairs = m.pairs := rfl
@[simp] theorem Mach.setCmp_secure (m : Mach) (c : Nat) (d : Cmp) : (m.setCmp c d).secure = m.secure := rfl
@[simp] theorem Mach.setCmp_power (m : Mach) (c : Nat) (d : Cmp) : (m.setCmp c d).power = m.power := rfl
@[simp] theorem Mach.setCmp_dbg (m : Mach) (c : Nat) (d : Cmp) : (m.setCmp c d).dbg = m.dbg := rfl
@[simp] theorem Mach.setCmp_tap (m : Mach) (c : Nat) (d : Cmp) : (m.setCmp c d).tap = m.tap := rfl
@[simp] theorem Mach.setCmp_ret (m : Mach) (c : Nat) (d : Cmp) : (m.setCmp c d).ret = m.ret := rfl

@[simp] theorem Mach.setPort_now (m : Mach) (p : Nat) (d : Port) : (m.setPort p d).now = m.now := rfl
@[simp] theorem Mach.setPort_fresh (m : Mach) (p : Nat) (d : Port) : (m.setPort p d).fresh = m.fresh := rfl
@[simp] theorem Mach.setPort_held (m : Mach) (p : Nat) (d : Port) : (m.setPort p d).held = m.held := rfl
@[simp] theorem Mach.setPort_regs (m : Mach) (p : Nat) (d : Port) : (m.setPort p d).regs = m.regs := rfl
@[simp] theorem Mach.setPort_shadow (m : Mach) (p : Nat) (d : Port) : (m.setPort p d).shadow = m.shadow := rfl
@[simp] theorem Mach.setPort_resp (m : Mach) (p : Nat) (d : Port) : (m.setPort p d).resp = m.resp := rfl
@[simp] theorem Mach.setPort_mem (m : Mach) (p : Nat) (d : Port) : (m.setPort p d).mem = m.mem := rfl
@[simp] theorem Mach.setPort_ecc (m : Mach) (p : Nat) (d : Port) : (m.setPort p d).ecc = m.ecc := rfl
@[simp] theorem Mach.setPort_flash (m : Mach) (p : Nat) (d : Port) : (m.setPort p d).flash = m.flash := rfl
@[simp] theorem Mach.setPort_host (m : Mach) (p : Nat) (d : Port) : (m.setPort p d).host = m.host := rfl
@[simp] theorem Mach.setPort_msix (m : Mach) (p : Nat) (d : Port) : (m.setPort p d).msix = m.msix := rfl
@[simp] theorem Mach.setPort_posts (m : Mach) (p : Nat) (d : Port) : (m.setPort p d).posts = m.posts := rfl
@[simp] theorem Mach.setPort_queues (m : Mach) (p : Nat) (d : Port) : (m.setPort p d).queues = m.queues := rfl
@[simp] theorem Mach.setPort_qevents (m : Mach) (p : Nat) (d : Port) : (m.setPort p d).qevents = m.qevents := rfl
@[simp] theorem Mach.setPort_stages (m : Mach) (p : Nat) (d : Port) : (m.setPort p d).stages = m.stages := rfl
@[simp] theorem Mach.setPort_behind (m : Mach) (p : Nat) (d : Port) : (m.setPort p d).behind = m.behind := rfl
@[simp] theorem Mach.setPort_groups (m : Mach) (p : Nat) (d : Port) : (m.setPort p d).groups = m.groups := rfl
@[simp] theorem Mach.setPort_wins (m : Mach) (p : Nat) (d : Port) : (m.setPort p d).wins = m.wins := rfl
@[simp] theorem Mach.setPort_slices (m : Mach) (p : Nat) (d : Port) : (m.setPort p d).slices = m.slices := rfl
@[simp] theorem Mach.setPort_timers (m : Mach) (p : Nat) (d : Port) : (m.setPort p d).timers = m.timers := rfl
@[simp] theorem Mach.setPort_banks (m : Mach) (p : Nat) (d : Port) : (m.setPort p d).banks = m.banks := rfl
@[simp] theorem Mach.setPort_slots (m : Mach) (p : Nat) (d : Port) : (m.setPort p d).slots = m.slots := rfl
@[simp] theorem Mach.setPort_cells (m : Mach) (p : Nat) (d : Port) : (m.setPort p d).cells = m.cells := rfl
@[simp] theorem Mach.setPort_cmps (m : Mach) (p : Nat) (d : Port) : (m.setPort p d).cmps = m.cmps := rfl
@[simp] theorem Mach.setPort_eths (m : Mach) (p : Nat) (d : Port) : (m.setPort p d).eths = m.eths := rfl
@[simp] theorem Mach.setPort_tecs (m : Mach) (p : Nat) (d : Port) : (m.setPort p d).tecs = m.tecs := rfl
@[simp] theorem Mach.setPort_des (m : Mach) (p : Nat) (d : Port) : (m.setPort p d).des = m.des := rfl
@[simp] theorem Mach.setPort_viss (m : Mach) (p : Nat) (d : Port) : (m.setPort p d).viss = m.viss := rfl
@[simp] theorem Mach.setPort_stos (m : Mach) (p : Nat) (d : Port) : (m.setPort p d).stos = m.stos := rfl
@[simp] theorem Mach.setPort_sent (m : Mach) (p : Nat) (d : Port) : (m.setPort p d).sent = m.sent := rfl
@[simp] theorem Mach.setPort_tunnel (m : Mach) (p : Nat) (d : Port) : (m.setPort p d).tunnel = m.tunnel := rfl
@[simp] theorem Mach.setPort_wds (m : Mach) (p : Nat) (d : Port) : (m.setPort p d).wds = m.wds := rfl
@[simp] theorem Mach.setPort_sup (m : Mach) (p : Nat) (d : Port) : (m.setPort p d).sup = m.sup := rfl
@[simp] theorem Mach.setPort_reeds (m : Mach) (p : Nat) (d : Port) : (m.setPort p d).reeds = m.reeds := rfl
@[simp] theorem Mach.setPort_pairs (m : Mach) (p : Nat) (d : Port) : (m.setPort p d).pairs = m.pairs := rfl
@[simp] theorem Mach.setPort_secure (m : Mach) (p : Nat) (d : Port) : (m.setPort p d).secure = m.secure := rfl
@[simp] theorem Mach.setPort_power (m : Mach) (p : Nat) (d : Port) : (m.setPort p d).power = m.power := rfl
@[simp] theorem Mach.setPort_dbg (m : Mach) (p : Nat) (d : Port) : (m.setPort p d).dbg = m.dbg := rfl
@[simp] theorem Mach.setPort_tap (m : Mach) (p : Nat) (d : Port) : (m.setPort p d).tap = m.tap := rfl
@[simp] theorem Mach.setPort_ret (m : Mach) (p : Nat) (d : Port) : (m.setPort p d).ret = m.ret := rfl

@[simp] theorem Mach.setWd_now (m : Mach) (w : Nat) (d : Wd) : (m.setWd w d).now = m.now := rfl
@[simp] theorem Mach.setWd_fresh (m : Mach) (w : Nat) (d : Wd) : (m.setWd w d).fresh = m.fresh := rfl
@[simp] theorem Mach.setWd_held (m : Mach) (w : Nat) (d : Wd) : (m.setWd w d).held = m.held := rfl
@[simp] theorem Mach.setWd_regs (m : Mach) (w : Nat) (d : Wd) : (m.setWd w d).regs = m.regs := rfl
@[simp] theorem Mach.setWd_shadow (m : Mach) (w : Nat) (d : Wd) : (m.setWd w d).shadow = m.shadow := rfl
@[simp] theorem Mach.setWd_resp (m : Mach) (w : Nat) (d : Wd) : (m.setWd w d).resp = m.resp := rfl
@[simp] theorem Mach.setWd_mem (m : Mach) (w : Nat) (d : Wd) : (m.setWd w d).mem = m.mem := rfl
@[simp] theorem Mach.setWd_ecc (m : Mach) (w : Nat) (d : Wd) : (m.setWd w d).ecc = m.ecc := rfl
@[simp] theorem Mach.setWd_flash (m : Mach) (w : Nat) (d : Wd) : (m.setWd w d).flash = m.flash := rfl
@[simp] theorem Mach.setWd_host (m : Mach) (w : Nat) (d : Wd) : (m.setWd w d).host = m.host := rfl
@[simp] theorem Mach.setWd_msix (m : Mach) (w : Nat) (d : Wd) : (m.setWd w d).msix = m.msix := rfl
@[simp] theorem Mach.setWd_posts (m : Mach) (w : Nat) (d : Wd) : (m.setWd w d).posts = m.posts := rfl
@[simp] theorem Mach.setWd_queues (m : Mach) (w : Nat) (d : Wd) : (m.setWd w d).queues = m.queues := rfl
@[simp] theorem Mach.setWd_qevents (m : Mach) (w : Nat) (d : Wd) : (m.setWd w d).qevents = m.qevents := rfl
@[simp] theorem Mach.setWd_stages (m : Mach) (w : Nat) (d : Wd) : (m.setWd w d).stages = m.stages := rfl
@[simp] theorem Mach.setWd_behind (m : Mach) (w : Nat) (d : Wd) : (m.setWd w d).behind = m.behind := rfl
@[simp] theorem Mach.setWd_groups (m : Mach) (w : Nat) (d : Wd) : (m.setWd w d).groups = m.groups := rfl
@[simp] theorem Mach.setWd_wins (m : Mach) (w : Nat) (d : Wd) : (m.setWd w d).wins = m.wins := rfl
@[simp] theorem Mach.setWd_slices (m : Mach) (w : Nat) (d : Wd) : (m.setWd w d).slices = m.slices := rfl
@[simp] theorem Mach.setWd_timers (m : Mach) (w : Nat) (d : Wd) : (m.setWd w d).timers = m.timers := rfl
@[simp] theorem Mach.setWd_banks (m : Mach) (w : Nat) (d : Wd) : (m.setWd w d).banks = m.banks := rfl
@[simp] theorem Mach.setWd_slots (m : Mach) (w : Nat) (d : Wd) : (m.setWd w d).slots = m.slots := rfl
@[simp] theorem Mach.setWd_cells (m : Mach) (w : Nat) (d : Wd) : (m.setWd w d).cells = m.cells := rfl
@[simp] theorem Mach.setWd_cmps (m : Mach) (w : Nat) (d : Wd) : (m.setWd w d).cmps = m.cmps := rfl
@[simp] theorem Mach.setWd_ports (m : Mach) (w : Nat) (d : Wd) : (m.setWd w d).ports = m.ports := rfl
@[simp] theorem Mach.setWd_eths (m : Mach) (w : Nat) (d : Wd) : (m.setWd w d).eths = m.eths := rfl
@[simp] theorem Mach.setWd_tecs (m : Mach) (w : Nat) (d : Wd) : (m.setWd w d).tecs = m.tecs := rfl
@[simp] theorem Mach.setWd_des (m : Mach) (w : Nat) (d : Wd) : (m.setWd w d).des = m.des := rfl
@[simp] theorem Mach.setWd_viss (m : Mach) (w : Nat) (d : Wd) : (m.setWd w d).viss = m.viss := rfl
@[simp] theorem Mach.setWd_stos (m : Mach) (w : Nat) (d : Wd) : (m.setWd w d).stos = m.stos := rfl
@[simp] theorem Mach.setWd_sent (m : Mach) (w : Nat) (d : Wd) : (m.setWd w d).sent = m.sent := rfl
@[simp] theorem Mach.setWd_tunnel (m : Mach) (w : Nat) (d : Wd) : (m.setWd w d).tunnel = m.tunnel := rfl
@[simp] theorem Mach.setWd_sup (m : Mach) (w : Nat) (d : Wd) : (m.setWd w d).sup = m.sup := rfl
@[simp] theorem Mach.setWd_reeds (m : Mach) (w : Nat) (d : Wd) : (m.setWd w d).reeds = m.reeds := rfl
@[simp] theorem Mach.setWd_pairs (m : Mach) (w : Nat) (d : Wd) : (m.setWd w d).pairs = m.pairs := rfl
@[simp] theorem Mach.setWd_secure (m : Mach) (w : Nat) (d : Wd) : (m.setWd w d).secure = m.secure := rfl
@[simp] theorem Mach.setWd_power (m : Mach) (w : Nat) (d : Wd) : (m.setWd w d).power = m.power := rfl
@[simp] theorem Mach.setWd_dbg (m : Mach) (w : Nat) (d : Wd) : (m.setWd w d).dbg = m.dbg := rfl
@[simp] theorem Mach.setWd_tap (m : Mach) (w : Nat) (d : Wd) : (m.setWd w d).tap = m.tap := rfl
@[simp] theorem Mach.setWd_ret (m : Mach) (w : Nat) (d : Wd) : (m.setWd w d).ret = m.ret := rfl

@[simp] theorem Mach.setReed_now (m : Mach) (c : Nat) (d : Reed) : (m.setReed c d).now = m.now := rfl
@[simp] theorem Mach.setReed_fresh (m : Mach) (c : Nat) (d : Reed) : (m.setReed c d).fresh = m.fresh := rfl
@[simp] theorem Mach.setReed_held (m : Mach) (c : Nat) (d : Reed) : (m.setReed c d).held = m.held := rfl
@[simp] theorem Mach.setReed_regs (m : Mach) (c : Nat) (d : Reed) : (m.setReed c d).regs = m.regs := rfl
@[simp] theorem Mach.setReed_shadow (m : Mach) (c : Nat) (d : Reed) : (m.setReed c d).shadow = m.shadow := rfl
@[simp] theorem Mach.setReed_resp (m : Mach) (c : Nat) (d : Reed) : (m.setReed c d).resp = m.resp := rfl
@[simp] theorem Mach.setReed_mem (m : Mach) (c : Nat) (d : Reed) : (m.setReed c d).mem = m.mem := rfl
@[simp] theorem Mach.setReed_ecc (m : Mach) (c : Nat) (d : Reed) : (m.setReed c d).ecc = m.ecc := rfl
@[simp] theorem Mach.setReed_flash (m : Mach) (c : Nat) (d : Reed) : (m.setReed c d).flash = m.flash := rfl
@[simp] theorem Mach.setReed_host (m : Mach) (c : Nat) (d : Reed) : (m.setReed c d).host = m.host := rfl
@[simp] theorem Mach.setReed_msix (m : Mach) (c : Nat) (d : Reed) : (m.setReed c d).msix = m.msix := rfl
@[simp] theorem Mach.setReed_posts (m : Mach) (c : Nat) (d : Reed) : (m.setReed c d).posts = m.posts := rfl
@[simp] theorem Mach.setReed_queues (m : Mach) (c : Nat) (d : Reed) : (m.setReed c d).queues = m.queues := rfl
@[simp] theorem Mach.setReed_qevents (m : Mach) (c : Nat) (d : Reed) : (m.setReed c d).qevents = m.qevents := rfl
@[simp] theorem Mach.setReed_stages (m : Mach) (c : Nat) (d : Reed) : (m.setReed c d).stages = m.stages := rfl
@[simp] theorem Mach.setReed_behind (m : Mach) (c : Nat) (d : Reed) : (m.setReed c d).behind = m.behind := rfl
@[simp] theorem Mach.setReed_groups (m : Mach) (c : Nat) (d : Reed) : (m.setReed c d).groups = m.groups := rfl
@[simp] theorem Mach.setReed_wins (m : Mach) (c : Nat) (d : Reed) : (m.setReed c d).wins = m.wins := rfl
@[simp] theorem Mach.setReed_slices (m : Mach) (c : Nat) (d : Reed) : (m.setReed c d).slices = m.slices := rfl
@[simp] theorem Mach.setReed_timers (m : Mach) (c : Nat) (d : Reed) : (m.setReed c d).timers = m.timers := rfl
@[simp] theorem Mach.setReed_banks (m : Mach) (c : Nat) (d : Reed) : (m.setReed c d).banks = m.banks := rfl
@[simp] theorem Mach.setReed_slots (m : Mach) (c : Nat) (d : Reed) : (m.setReed c d).slots = m.slots := rfl
@[simp] theorem Mach.setReed_cells (m : Mach) (c : Nat) (d : Reed) : (m.setReed c d).cells = m.cells := rfl
@[simp] theorem Mach.setReed_cmps (m : Mach) (c : Nat) (d : Reed) : (m.setReed c d).cmps = m.cmps := rfl
@[simp] theorem Mach.setReed_ports (m : Mach) (c : Nat) (d : Reed) : (m.setReed c d).ports = m.ports := rfl
@[simp] theorem Mach.setReed_eths (m : Mach) (c : Nat) (d : Reed) : (m.setReed c d).eths = m.eths := rfl
@[simp] theorem Mach.setReed_tecs (m : Mach) (c : Nat) (d : Reed) : (m.setReed c d).tecs = m.tecs := rfl
@[simp] theorem Mach.setReed_des (m : Mach) (c : Nat) (d : Reed) : (m.setReed c d).des = m.des := rfl
@[simp] theorem Mach.setReed_viss (m : Mach) (c : Nat) (d : Reed) : (m.setReed c d).viss = m.viss := rfl
@[simp] theorem Mach.setReed_stos (m : Mach) (c : Nat) (d : Reed) : (m.setReed c d).stos = m.stos := rfl
@[simp] theorem Mach.setReed_sent (m : Mach) (c : Nat) (d : Reed) : (m.setReed c d).sent = m.sent := rfl
@[simp] theorem Mach.setReed_tunnel (m : Mach) (c : Nat) (d : Reed) : (m.setReed c d).tunnel = m.tunnel := rfl
@[simp] theorem Mach.setReed_wds (m : Mach) (c : Nat) (d : Reed) : (m.setReed c d).wds = m.wds := rfl
@[simp] theorem Mach.setReed_sup (m : Mach) (c : Nat) (d : Reed) : (m.setReed c d).sup = m.sup := rfl
@[simp] theorem Mach.setReed_pairs (m : Mach) (c : Nat) (d : Reed) : (m.setReed c d).pairs = m.pairs := rfl
@[simp] theorem Mach.setReed_secure (m : Mach) (c : Nat) (d : Reed) : (m.setReed c d).secure = m.secure := rfl
@[simp] theorem Mach.setReed_power (m : Mach) (c : Nat) (d : Reed) : (m.setReed c d).power = m.power := rfl
@[simp] theorem Mach.setReed_dbg (m : Mach) (c : Nat) (d : Reed) : (m.setReed c d).dbg = m.dbg := rfl
@[simp] theorem Mach.setReed_tap (m : Mach) (c : Nat) (d : Reed) : (m.setReed c d).tap = m.tap := rfl
@[simp] theorem Mach.setReed_ret (m : Mach) (c : Nat) (d : Reed) : (m.setReed c d).ret = m.ret := rfl

@[simp] theorem Mach.setCore_now (m : Mach) (c : Nat) (k : Core) : (m.setCore c k).now = m.now := rfl
@[simp] theorem Mach.setCore_fresh (m : Mach) (c : Nat) (k : Core) : (m.setCore c k).fresh = m.fresh := rfl
@[simp] theorem Mach.setCore_held (m : Mach) (c : Nat) (k : Core) : (m.setCore c k).held = m.held := rfl
@[simp] theorem Mach.setCore_regs (m : Mach) (c : Nat) (k : Core) : (m.setCore c k).regs = m.regs := rfl
@[simp] theorem Mach.setCore_shadow (m : Mach) (c : Nat) (k : Core) : (m.setCore c k).shadow = m.shadow := rfl
@[simp] theorem Mach.setCore_resp (m : Mach) (c : Nat) (k : Core) : (m.setCore c k).resp = m.resp := rfl
@[simp] theorem Mach.setCore_mem (m : Mach) (c : Nat) (k : Core) : (m.setCore c k).mem = m.mem := rfl
@[simp] theorem Mach.setCore_ecc (m : Mach) (c : Nat) (k : Core) : (m.setCore c k).ecc = m.ecc := rfl
@[simp] theorem Mach.setCore_flash (m : Mach) (c : Nat) (k : Core) : (m.setCore c k).flash = m.flash := rfl
@[simp] theorem Mach.setCore_host (m : Mach) (c : Nat) (k : Core) : (m.setCore c k).host = m.host := rfl
@[simp] theorem Mach.setCore_msix (m : Mach) (c : Nat) (k : Core) : (m.setCore c k).msix = m.msix := rfl
@[simp] theorem Mach.setCore_posts (m : Mach) (c : Nat) (k : Core) : (m.setCore c k).posts = m.posts := rfl
@[simp] theorem Mach.setCore_queues (m : Mach) (c : Nat) (k : Core) : (m.setCore c k).queues = m.queues := rfl
@[simp] theorem Mach.setCore_qevents (m : Mach) (c : Nat) (k : Core) : (m.setCore c k).qevents = m.qevents := rfl
@[simp] theorem Mach.setCore_stages (m : Mach) (c : Nat) (k : Core) : (m.setCore c k).stages = m.stages := rfl
@[simp] theorem Mach.setCore_behind (m : Mach) (c : Nat) (k : Core) : (m.setCore c k).behind = m.behind := rfl
@[simp] theorem Mach.setCore_groups (m : Mach) (c : Nat) (k : Core) : (m.setCore c k).groups = m.groups := rfl
@[simp] theorem Mach.setCore_wins (m : Mach) (c : Nat) (k : Core) : (m.setCore c k).wins = m.wins := rfl
@[simp] theorem Mach.setCore_slices (m : Mach) (c : Nat) (k : Core) : (m.setCore c k).slices = m.slices := rfl
@[simp] theorem Mach.setCore_timers (m : Mach) (c : Nat) (k : Core) : (m.setCore c k).timers = m.timers := rfl
@[simp] theorem Mach.setCore_banks (m : Mach) (c : Nat) (k : Core) : (m.setCore c k).banks = m.banks := rfl
@[simp] theorem Mach.setCore_slots (m : Mach) (c : Nat) (k : Core) : (m.setCore c k).slots = m.slots := rfl
@[simp] theorem Mach.setCore_cells (m : Mach) (c : Nat) (k : Core) : (m.setCore c k).cells = m.cells := rfl
@[simp] theorem Mach.setCore_cmps (m : Mach) (c : Nat) (k : Core) : (m.setCore c k).cmps = m.cmps := rfl
@[simp] theorem Mach.setCore_ports (m : Mach) (c : Nat) (k : Core) : (m.setCore c k).ports = m.ports := rfl
@[simp] theorem Mach.setCore_eths (m : Mach) (c : Nat) (k : Core) : (m.setCore c k).eths = m.eths := rfl
@[simp] theorem Mach.setCore_tecs (m : Mach) (c : Nat) (k : Core) : (m.setCore c k).tecs = m.tecs := rfl
@[simp] theorem Mach.setCore_des (m : Mach) (c : Nat) (k : Core) : (m.setCore c k).des = m.des := rfl
@[simp] theorem Mach.setCore_viss (m : Mach) (c : Nat) (k : Core) : (m.setCore c k).viss = m.viss := rfl
@[simp] theorem Mach.setCore_stos (m : Mach) (c : Nat) (k : Core) : (m.setCore c k).stos = m.stos := rfl
@[simp] theorem Mach.setCore_sent (m : Mach) (c : Nat) (k : Core) : (m.setCore c k).sent = m.sent := rfl
@[simp] theorem Mach.setCore_tunnel (m : Mach) (c : Nat) (k : Core) : (m.setCore c k).tunnel = m.tunnel := rfl
@[simp] theorem Mach.setCore_wds (m : Mach) (c : Nat) (k : Core) : (m.setCore c k).wds = m.wds := rfl
@[simp] theorem Mach.setCore_sup (m : Mach) (c : Nat) (k : Core) : (m.setCore c k).sup = m.sup := rfl
@[simp] theorem Mach.setCore_pairs (m : Mach) (c : Nat) (k : Core) : (m.setCore c k).pairs = m.pairs := rfl
@[simp] theorem Mach.setCore_secure (m : Mach) (c : Nat) (k : Core) : (m.setCore c k).secure = m.secure := rfl
@[simp] theorem Mach.setCore_power (m : Mach) (c : Nat) (k : Core) : (m.setCore c k).power = m.power := rfl
@[simp] theorem Mach.setCore_dbg (m : Mach) (c : Nat) (k : Core) : (m.setCore c k).dbg = m.dbg := rfl
@[simp] theorem Mach.setCore_tap (m : Mach) (c : Nat) (k : Core) : (m.setCore c k).tap = m.tap := rfl
@[simp] theorem Mach.setCore_ret (m : Mach) (c : Nat) (k : Core) : (m.setCore c k).ret = m.ret := rfl

@[simp] theorem Mach.setPair_now (m : Mach) (p : Nat) (d : Pair) : (m.setPair p d).now = m.now := rfl
@[simp] theorem Mach.setPair_fresh (m : Mach) (p : Nat) (d : Pair) : (m.setPair p d).fresh = m.fresh := rfl
@[simp] theorem Mach.setPair_held (m : Mach) (p : Nat) (d : Pair) : (m.setPair p d).held = m.held := rfl
@[simp] theorem Mach.setPair_regs (m : Mach) (p : Nat) (d : Pair) : (m.setPair p d).regs = m.regs := rfl
@[simp] theorem Mach.setPair_shadow (m : Mach) (p : Nat) (d : Pair) : (m.setPair p d).shadow = m.shadow := rfl
@[simp] theorem Mach.setPair_resp (m : Mach) (p : Nat) (d : Pair) : (m.setPair p d).resp = m.resp := rfl
@[simp] theorem Mach.setPair_mem (m : Mach) (p : Nat) (d : Pair) : (m.setPair p d).mem = m.mem := rfl
@[simp] theorem Mach.setPair_ecc (m : Mach) (p : Nat) (d : Pair) : (m.setPair p d).ecc = m.ecc := rfl
@[simp] theorem Mach.setPair_flash (m : Mach) (p : Nat) (d : Pair) : (m.setPair p d).flash = m.flash := rfl
@[simp] theorem Mach.setPair_host (m : Mach) (p : Nat) (d : Pair) : (m.setPair p d).host = m.host := rfl
@[simp] theorem Mach.setPair_msix (m : Mach) (p : Nat) (d : Pair) : (m.setPair p d).msix = m.msix := rfl
@[simp] theorem Mach.setPair_posts (m : Mach) (p : Nat) (d : Pair) : (m.setPair p d).posts = m.posts := rfl
@[simp] theorem Mach.setPair_queues (m : Mach) (p : Nat) (d : Pair) : (m.setPair p d).queues = m.queues := rfl
@[simp] theorem Mach.setPair_qevents (m : Mach) (p : Nat) (d : Pair) : (m.setPair p d).qevents = m.qevents := rfl
@[simp] theorem Mach.setPair_stages (m : Mach) (p : Nat) (d : Pair) : (m.setPair p d).stages = m.stages := rfl
@[simp] theorem Mach.setPair_behind (m : Mach) (p : Nat) (d : Pair) : (m.setPair p d).behind = m.behind := rfl
@[simp] theorem Mach.setPair_groups (m : Mach) (p : Nat) (d : Pair) : (m.setPair p d).groups = m.groups := rfl
@[simp] theorem Mach.setPair_wins (m : Mach) (p : Nat) (d : Pair) : (m.setPair p d).wins = m.wins := rfl
@[simp] theorem Mach.setPair_slices (m : Mach) (p : Nat) (d : Pair) : (m.setPair p d).slices = m.slices := rfl
@[simp] theorem Mach.setPair_timers (m : Mach) (p : Nat) (d : Pair) : (m.setPair p d).timers = m.timers := rfl
@[simp] theorem Mach.setPair_banks (m : Mach) (p : Nat) (d : Pair) : (m.setPair p d).banks = m.banks := rfl
@[simp] theorem Mach.setPair_slots (m : Mach) (p : Nat) (d : Pair) : (m.setPair p d).slots = m.slots := rfl
@[simp] theorem Mach.setPair_cells (m : Mach) (p : Nat) (d : Pair) : (m.setPair p d).cells = m.cells := rfl
@[simp] theorem Mach.setPair_cmps (m : Mach) (p : Nat) (d : Pair) : (m.setPair p d).cmps = m.cmps := rfl
@[simp] theorem Mach.setPair_ports (m : Mach) (p : Nat) (d : Pair) : (m.setPair p d).ports = m.ports := rfl
@[simp] theorem Mach.setPair_eths (m : Mach) (p : Nat) (d : Pair) : (m.setPair p d).eths = m.eths := rfl
@[simp] theorem Mach.setPair_tecs (m : Mach) (p : Nat) (d : Pair) : (m.setPair p d).tecs = m.tecs := rfl
@[simp] theorem Mach.setPair_des (m : Mach) (p : Nat) (d : Pair) : (m.setPair p d).des = m.des := rfl
@[simp] theorem Mach.setPair_viss (m : Mach) (p : Nat) (d : Pair) : (m.setPair p d).viss = m.viss := rfl
@[simp] theorem Mach.setPair_stos (m : Mach) (p : Nat) (d : Pair) : (m.setPair p d).stos = m.stos := rfl
@[simp] theorem Mach.setPair_sent (m : Mach) (p : Nat) (d : Pair) : (m.setPair p d).sent = m.sent := rfl
@[simp] theorem Mach.setPair_tunnel (m : Mach) (p : Nat) (d : Pair) : (m.setPair p d).tunnel = m.tunnel := rfl
@[simp] theorem Mach.setPair_wds (m : Mach) (p : Nat) (d : Pair) : (m.setPair p d).wds = m.wds := rfl
@[simp] theorem Mach.setPair_sup (m : Mach) (p : Nat) (d : Pair) : (m.setPair p d).sup = m.sup := rfl
@[simp] theorem Mach.setPair_reeds (m : Mach) (p : Nat) (d : Pair) : (m.setPair p d).reeds = m.reeds := rfl
@[simp] theorem Mach.setPair_secure (m : Mach) (p : Nat) (d : Pair) : (m.setPair p d).secure = m.secure := rfl
@[simp] theorem Mach.setPair_power (m : Mach) (p : Nat) (d : Pair) : (m.setPair p d).power = m.power := rfl
@[simp] theorem Mach.setPair_dbg (m : Mach) (p : Nat) (d : Pair) : (m.setPair p d).dbg = m.dbg := rfl
@[simp] theorem Mach.setPair_tap (m : Mach) (p : Nat) (d : Pair) : (m.setPair p d).tap = m.tap := rfl
@[simp] theorem Mach.setPair_ret (m : Mach) (p : Nat) (d : Pair) : (m.setPair p d).ret = m.ret := rfl

@[simp] theorem Mach.setEth_now (m : Mach) (p : Nat) (d : EthP) : (m.setEth p d).now = m.now := rfl
@[simp] theorem Mach.setEth_fresh (m : Mach) (p : Nat) (d : EthP) : (m.setEth p d).fresh = m.fresh := rfl
@[simp] theorem Mach.setEth_held (m : Mach) (p : Nat) (d : EthP) : (m.setEth p d).held = m.held := rfl
@[simp] theorem Mach.setEth_regs (m : Mach) (p : Nat) (d : EthP) : (m.setEth p d).regs = m.regs := rfl
@[simp] theorem Mach.setEth_shadow (m : Mach) (p : Nat) (d : EthP) : (m.setEth p d).shadow = m.shadow := rfl
@[simp] theorem Mach.setEth_resp (m : Mach) (p : Nat) (d : EthP) : (m.setEth p d).resp = m.resp := rfl
@[simp] theorem Mach.setEth_mem (m : Mach) (p : Nat) (d : EthP) : (m.setEth p d).mem = m.mem := rfl
@[simp] theorem Mach.setEth_ecc (m : Mach) (p : Nat) (d : EthP) : (m.setEth p d).ecc = m.ecc := rfl
@[simp] theorem Mach.setEth_flash (m : Mach) (p : Nat) (d : EthP) : (m.setEth p d).flash = m.flash := rfl
@[simp] theorem Mach.setEth_host (m : Mach) (p : Nat) (d : EthP) : (m.setEth p d).host = m.host := rfl
@[simp] theorem Mach.setEth_msix (m : Mach) (p : Nat) (d : EthP) : (m.setEth p d).msix = m.msix := rfl
@[simp] theorem Mach.setEth_posts (m : Mach) (p : Nat) (d : EthP) : (m.setEth p d).posts = m.posts := rfl
@[simp] theorem Mach.setEth_queues (m : Mach) (p : Nat) (d : EthP) : (m.setEth p d).queues = m.queues := rfl
@[simp] theorem Mach.setEth_qevents (m : Mach) (p : Nat) (d : EthP) : (m.setEth p d).qevents = m.qevents := rfl
@[simp] theorem Mach.setEth_stages (m : Mach) (p : Nat) (d : EthP) : (m.setEth p d).stages = m.stages := rfl
@[simp] theorem Mach.setEth_behind (m : Mach) (p : Nat) (d : EthP) : (m.setEth p d).behind = m.behind := rfl
@[simp] theorem Mach.setEth_groups (m : Mach) (p : Nat) (d : EthP) : (m.setEth p d).groups = m.groups := rfl
@[simp] theorem Mach.setEth_wins (m : Mach) (p : Nat) (d : EthP) : (m.setEth p d).wins = m.wins := rfl
@[simp] theorem Mach.setEth_slices (m : Mach) (p : Nat) (d : EthP) : (m.setEth p d).slices = m.slices := rfl
@[simp] theorem Mach.setEth_timers (m : Mach) (p : Nat) (d : EthP) : (m.setEth p d).timers = m.timers := rfl
@[simp] theorem Mach.setEth_banks (m : Mach) (p : Nat) (d : EthP) : (m.setEth p d).banks = m.banks := rfl
@[simp] theorem Mach.setEth_slots (m : Mach) (p : Nat) (d : EthP) : (m.setEth p d).slots = m.slots := rfl
@[simp] theorem Mach.setEth_cells (m : Mach) (p : Nat) (d : EthP) : (m.setEth p d).cells = m.cells := rfl
@[simp] theorem Mach.setEth_cmps (m : Mach) (p : Nat) (d : EthP) : (m.setEth p d).cmps = m.cmps := rfl
@[simp] theorem Mach.setEth_ports (m : Mach) (p : Nat) (d : EthP) : (m.setEth p d).ports = m.ports := rfl
@[simp] theorem Mach.setEth_tecs (m : Mach) (p : Nat) (d : EthP) : (m.setEth p d).tecs = m.tecs := rfl
@[simp] theorem Mach.setEth_des (m : Mach) (p : Nat) (d : EthP) : (m.setEth p d).des = m.des := rfl
@[simp] theorem Mach.setEth_viss (m : Mach) (p : Nat) (d : EthP) : (m.setEth p d).viss = m.viss := rfl
@[simp] theorem Mach.setEth_stos (m : Mach) (p : Nat) (d : EthP) : (m.setEth p d).stos = m.stos := rfl
@[simp] theorem Mach.setEth_sent (m : Mach) (p : Nat) (d : EthP) : (m.setEth p d).sent = m.sent := rfl
@[simp] theorem Mach.setEth_tunnel (m : Mach) (p : Nat) (d : EthP) : (m.setEth p d).tunnel = m.tunnel := rfl
@[simp] theorem Mach.setEth_wds (m : Mach) (p : Nat) (d : EthP) : (m.setEth p d).wds = m.wds := rfl
@[simp] theorem Mach.setEth_sup (m : Mach) (p : Nat) (d : EthP) : (m.setEth p d).sup = m.sup := rfl
@[simp] theorem Mach.setEth_reeds (m : Mach) (p : Nat) (d : EthP) : (m.setEth p d).reeds = m.reeds := rfl
@[simp] theorem Mach.setEth_pairs (m : Mach) (p : Nat) (d : EthP) : (m.setEth p d).pairs = m.pairs := rfl
@[simp] theorem Mach.setEth_secure (m : Mach) (p : Nat) (d : EthP) : (m.setEth p d).secure = m.secure := rfl
@[simp] theorem Mach.setEth_power (m : Mach) (p : Nat) (d : EthP) : (m.setEth p d).power = m.power := rfl
@[simp] theorem Mach.setEth_dbg (m : Mach) (p : Nat) (d : EthP) : (m.setEth p d).dbg = m.dbg := rfl
@[simp] theorem Mach.setEth_tap (m : Mach) (p : Nat) (d : EthP) : (m.setEth p d).tap = m.tap := rfl
@[simp] theorem Mach.setEth_ret (m : Mach) (p : Nat) (d : EthP) : (m.setEth p d).ret = m.ret := rfl

@[simp] theorem Mach.setSto_now (m : Mach) (i : Nat) (d : StoIn) : (m.setSto i d).now = m.now := rfl
@[simp] theorem Mach.setSto_fresh (m : Mach) (i : Nat) (d : StoIn) : (m.setSto i d).fresh = m.fresh := rfl
@[simp] theorem Mach.setSto_held (m : Mach) (i : Nat) (d : StoIn) : (m.setSto i d).held = m.held := rfl
@[simp] theorem Mach.setSto_regs (m : Mach) (i : Nat) (d : StoIn) : (m.setSto i d).regs = m.regs := rfl
@[simp] theorem Mach.setSto_shadow (m : Mach) (i : Nat) (d : StoIn) : (m.setSto i d).shadow = m.shadow := rfl
@[simp] theorem Mach.setSto_resp (m : Mach) (i : Nat) (d : StoIn) : (m.setSto i d).resp = m.resp := rfl
@[simp] theorem Mach.setSto_mem (m : Mach) (i : Nat) (d : StoIn) : (m.setSto i d).mem = m.mem := rfl
@[simp] theorem Mach.setSto_ecc (m : Mach) (i : Nat) (d : StoIn) : (m.setSto i d).ecc = m.ecc := rfl
@[simp] theorem Mach.setSto_flash (m : Mach) (i : Nat) (d : StoIn) : (m.setSto i d).flash = m.flash := rfl
@[simp] theorem Mach.setSto_host (m : Mach) (i : Nat) (d : StoIn) : (m.setSto i d).host = m.host := rfl
@[simp] theorem Mach.setSto_msix (m : Mach) (i : Nat) (d : StoIn) : (m.setSto i d).msix = m.msix := rfl
@[simp] theorem Mach.setSto_posts (m : Mach) (i : Nat) (d : StoIn) : (m.setSto i d).posts = m.posts := rfl
@[simp] theorem Mach.setSto_queues (m : Mach) (i : Nat) (d : StoIn) : (m.setSto i d).queues = m.queues := rfl
@[simp] theorem Mach.setSto_qevents (m : Mach) (i : Nat) (d : StoIn) : (m.setSto i d).qevents = m.qevents := rfl
@[simp] theorem Mach.setSto_stages (m : Mach) (i : Nat) (d : StoIn) : (m.setSto i d).stages = m.stages := rfl
@[simp] theorem Mach.setSto_behind (m : Mach) (i : Nat) (d : StoIn) : (m.setSto i d).behind = m.behind := rfl
@[simp] theorem Mach.setSto_groups (m : Mach) (i : Nat) (d : StoIn) : (m.setSto i d).groups = m.groups := rfl
@[simp] theorem Mach.setSto_wins (m : Mach) (i : Nat) (d : StoIn) : (m.setSto i d).wins = m.wins := rfl
@[simp] theorem Mach.setSto_slices (m : Mach) (i : Nat) (d : StoIn) : (m.setSto i d).slices = m.slices := rfl
@[simp] theorem Mach.setSto_timers (m : Mach) (i : Nat) (d : StoIn) : (m.setSto i d).timers = m.timers := rfl
@[simp] theorem Mach.setSto_banks (m : Mach) (i : Nat) (d : StoIn) : (m.setSto i d).banks = m.banks := rfl
@[simp] theorem Mach.setSto_slots (m : Mach) (i : Nat) (d : StoIn) : (m.setSto i d).slots = m.slots := rfl
@[simp] theorem Mach.setSto_cells (m : Mach) (i : Nat) (d : StoIn) : (m.setSto i d).cells = m.cells := rfl
@[simp] theorem Mach.setSto_cmps (m : Mach) (i : Nat) (d : StoIn) : (m.setSto i d).cmps = m.cmps := rfl
@[simp] theorem Mach.setSto_ports (m : Mach) (i : Nat) (d : StoIn) : (m.setSto i d).ports = m.ports := rfl
@[simp] theorem Mach.setSto_eths (m : Mach) (i : Nat) (d : StoIn) : (m.setSto i d).eths = m.eths := rfl
@[simp] theorem Mach.setSto_tecs (m : Mach) (i : Nat) (d : StoIn) : (m.setSto i d).tecs = m.tecs := rfl
@[simp] theorem Mach.setSto_des (m : Mach) (i : Nat) (d : StoIn) : (m.setSto i d).des = m.des := rfl
@[simp] theorem Mach.setSto_viss (m : Mach) (i : Nat) (d : StoIn) : (m.setSto i d).viss = m.viss := rfl
@[simp] theorem Mach.setSto_sent (m : Mach) (i : Nat) (d : StoIn) : (m.setSto i d).sent = m.sent := rfl
@[simp] theorem Mach.setSto_tunnel (m : Mach) (i : Nat) (d : StoIn) : (m.setSto i d).tunnel = m.tunnel := rfl
@[simp] theorem Mach.setSto_wds (m : Mach) (i : Nat) (d : StoIn) : (m.setSto i d).wds = m.wds := rfl
@[simp] theorem Mach.setSto_sup (m : Mach) (i : Nat) (d : StoIn) : (m.setSto i d).sup = m.sup := rfl
@[simp] theorem Mach.setSto_reeds (m : Mach) (i : Nat) (d : StoIn) : (m.setSto i d).reeds = m.reeds := rfl
@[simp] theorem Mach.setSto_pairs (m : Mach) (i : Nat) (d : StoIn) : (m.setSto i d).pairs = m.pairs := rfl
@[simp] theorem Mach.setSto_secure (m : Mach) (i : Nat) (d : StoIn) : (m.setSto i d).secure = m.secure := rfl
@[simp] theorem Mach.setSto_power (m : Mach) (i : Nat) (d : StoIn) : (m.setSto i d).power = m.power := rfl
@[simp] theorem Mach.setSto_dbg (m : Mach) (i : Nat) (d : StoIn) : (m.setSto i d).dbg = m.dbg := rfl
@[simp] theorem Mach.setSto_tap (m : Mach) (i : Nat) (d : StoIn) : (m.setSto i d).tap = m.tap := rfl
@[simp] theorem Mach.setSto_ret (m : Mach) (i : Nat) (d : StoIn) : (m.setSto i d).ret = m.ret := rfl

@[simp] theorem Mach.setVis_now (m : Mach) (o : Nat) (d : Vis) : (m.setVis o d).now = m.now := rfl
@[simp] theorem Mach.setVis_fresh (m : Mach) (o : Nat) (d : Vis) : (m.setVis o d).fresh = m.fresh := rfl
@[simp] theorem Mach.setVis_held (m : Mach) (o : Nat) (d : Vis) : (m.setVis o d).held = m.held := rfl
@[simp] theorem Mach.setVis_regs (m : Mach) (o : Nat) (d : Vis) : (m.setVis o d).regs = m.regs := rfl
@[simp] theorem Mach.setVis_shadow (m : Mach) (o : Nat) (d : Vis) : (m.setVis o d).shadow = m.shadow := rfl
@[simp] theorem Mach.setVis_resp (m : Mach) (o : Nat) (d : Vis) : (m.setVis o d).resp = m.resp := rfl
@[simp] theorem Mach.setVis_mem (m : Mach) (o : Nat) (d : Vis) : (m.setVis o d).mem = m.mem := rfl
@[simp] theorem Mach.setVis_ecc (m : Mach) (o : Nat) (d : Vis) : (m.setVis o d).ecc = m.ecc := rfl
@[simp] theorem Mach.setVis_flash (m : Mach) (o : Nat) (d : Vis) : (m.setVis o d).flash = m.flash := rfl
@[simp] theorem Mach.setVis_host (m : Mach) (o : Nat) (d : Vis) : (m.setVis o d).host = m.host := rfl
@[simp] theorem Mach.setVis_msix (m : Mach) (o : Nat) (d : Vis) : (m.setVis o d).msix = m.msix := rfl
@[simp] theorem Mach.setVis_posts (m : Mach) (o : Nat) (d : Vis) : (m.setVis o d).posts = m.posts := rfl
@[simp] theorem Mach.setVis_queues (m : Mach) (o : Nat) (d : Vis) : (m.setVis o d).queues = m.queues := rfl
@[simp] theorem Mach.setVis_qevents (m : Mach) (o : Nat) (d : Vis) : (m.setVis o d).qevents = m.qevents := rfl
@[simp] theorem Mach.setVis_stages (m : Mach) (o : Nat) (d : Vis) : (m.setVis o d).stages = m.stages := rfl
@[simp] theorem Mach.setVis_behind (m : Mach) (o : Nat) (d : Vis) : (m.setVis o d).behind = m.behind := rfl
@[simp] theorem Mach.setVis_groups (m : Mach) (o : Nat) (d : Vis) : (m.setVis o d).groups = m.groups := rfl
@[simp] theorem Mach.setVis_wins (m : Mach) (o : Nat) (d : Vis) : (m.setVis o d).wins = m.wins := rfl
@[simp] theorem Mach.setVis_slices (m : Mach) (o : Nat) (d : Vis) : (m.setVis o d).slices = m.slices := rfl
@[simp] theorem Mach.setVis_timers (m : Mach) (o : Nat) (d : Vis) : (m.setVis o d).timers = m.timers := rfl
@[simp] theorem Mach.setVis_banks (m : Mach) (o : Nat) (d : Vis) : (m.setVis o d).banks = m.banks := rfl
@[simp] theorem Mach.setVis_slots (m : Mach) (o : Nat) (d : Vis) : (m.setVis o d).slots = m.slots := rfl
@[simp] theorem Mach.setVis_cells (m : Mach) (o : Nat) (d : Vis) : (m.setVis o d).cells = m.cells := rfl
@[simp] theorem Mach.setVis_cmps (m : Mach) (o : Nat) (d : Vis) : (m.setVis o d).cmps = m.cmps := rfl
@[simp] theorem Mach.setVis_ports (m : Mach) (o : Nat) (d : Vis) : (m.setVis o d).ports = m.ports := rfl
@[simp] theorem Mach.setVis_eths (m : Mach) (o : Nat) (d : Vis) : (m.setVis o d).eths = m.eths := rfl
@[simp] theorem Mach.setVis_tecs (m : Mach) (o : Nat) (d : Vis) : (m.setVis o d).tecs = m.tecs := rfl
@[simp] theorem Mach.setVis_des (m : Mach) (o : Nat) (d : Vis) : (m.setVis o d).des = m.des := rfl
@[simp] theorem Mach.setVis_stos (m : Mach) (o : Nat) (d : Vis) : (m.setVis o d).stos = m.stos := rfl
@[simp] theorem Mach.setVis_sent (m : Mach) (o : Nat) (d : Vis) : (m.setVis o d).sent = m.sent := rfl
@[simp] theorem Mach.setVis_tunnel (m : Mach) (o : Nat) (d : Vis) : (m.setVis o d).tunnel = m.tunnel := rfl
@[simp] theorem Mach.setVis_wds (m : Mach) (o : Nat) (d : Vis) : (m.setVis o d).wds = m.wds := rfl
@[simp] theorem Mach.setVis_sup (m : Mach) (o : Nat) (d : Vis) : (m.setVis o d).sup = m.sup := rfl
@[simp] theorem Mach.setVis_reeds (m : Mach) (o : Nat) (d : Vis) : (m.setVis o d).reeds = m.reeds := rfl
@[simp] theorem Mach.setVis_pairs (m : Mach) (o : Nat) (d : Vis) : (m.setVis o d).pairs = m.pairs := rfl
@[simp] theorem Mach.setVis_secure (m : Mach) (o : Nat) (d : Vis) : (m.setVis o d).secure = m.secure := rfl
@[simp] theorem Mach.setVis_power (m : Mach) (o : Nat) (d : Vis) : (m.setVis o d).power = m.power := rfl
@[simp] theorem Mach.setVis_dbg (m : Mach) (o : Nat) (d : Vis) : (m.setVis o d).dbg = m.dbg := rfl
@[simp] theorem Mach.setVis_tap (m : Mach) (o : Nat) (d : Vis) : (m.setVis o d).tap = m.tap := rfl
@[simp] theorem Mach.setVis_ret (m : Mach) (o : Nat) (d : Vis) : (m.setVis o d).ret = m.ret := rfl

@[simp] theorem Mach.setDetect_now (m : Mach) (i : Nat) (on : Bool) : (m.setDetect i on).now = m.now := rfl
@[simp] theorem Mach.setDetect_fresh (m : Mach) (i : Nat) (on : Bool) : (m.setDetect i on).fresh = m.fresh := rfl
@[simp] theorem Mach.setDetect_held (m : Mach) (i : Nat) (on : Bool) : (m.setDetect i on).held = m.held := rfl
@[simp] theorem Mach.setDetect_regs (m : Mach) (i : Nat) (on : Bool) : (m.setDetect i on).regs = m.regs := rfl
@[simp] theorem Mach.setDetect_shadow (m : Mach) (i : Nat) (on : Bool) : (m.setDetect i on).shadow = m.shadow := rfl
@[simp] theorem Mach.setDetect_resp (m : Mach) (i : Nat) (on : Bool) : (m.setDetect i on).resp = m.resp := rfl
@[simp] theorem Mach.setDetect_mem (m : Mach) (i : Nat) (on : Bool) : (m.setDetect i on).mem = m.mem := rfl
@[simp] theorem Mach.setDetect_ecc (m : Mach) (i : Nat) (on : Bool) : (m.setDetect i on).ecc = m.ecc := rfl
@[simp] theorem Mach.setDetect_flash (m : Mach) (i : Nat) (on : Bool) : (m.setDetect i on).flash = m.flash := rfl
@[simp] theorem Mach.setDetect_host (m : Mach) (i : Nat) (on : Bool) : (m.setDetect i on).host = m.host := rfl
@[simp] theorem Mach.setDetect_msix (m : Mach) (i : Nat) (on : Bool) : (m.setDetect i on).msix = m.msix := rfl
@[simp] theorem Mach.setDetect_posts (m : Mach) (i : Nat) (on : Bool) : (m.setDetect i on).posts = m.posts := rfl
@[simp] theorem Mach.setDetect_queues (m : Mach) (i : Nat) (on : Bool) : (m.setDetect i on).queues = m.queues := rfl
@[simp] theorem Mach.setDetect_qevents (m : Mach) (i : Nat) (on : Bool) : (m.setDetect i on).qevents = m.qevents := rfl
@[simp] theorem Mach.setDetect_stages (m : Mach) (i : Nat) (on : Bool) : (m.setDetect i on).stages = m.stages := rfl
@[simp] theorem Mach.setDetect_behind (m : Mach) (i : Nat) (on : Bool) : (m.setDetect i on).behind = m.behind := rfl
@[simp] theorem Mach.setDetect_groups (m : Mach) (i : Nat) (on : Bool) : (m.setDetect i on).groups = m.groups := rfl
@[simp] theorem Mach.setDetect_wins (m : Mach) (i : Nat) (on : Bool) : (m.setDetect i on).wins = m.wins := rfl
@[simp] theorem Mach.setDetect_slices (m : Mach) (i : Nat) (on : Bool) : (m.setDetect i on).slices = m.slices := rfl
@[simp] theorem Mach.setDetect_timers (m : Mach) (i : Nat) (on : Bool) : (m.setDetect i on).timers = m.timers := rfl
@[simp] theorem Mach.setDetect_banks (m : Mach) (i : Nat) (on : Bool) : (m.setDetect i on).banks = m.banks := rfl
@[simp] theorem Mach.setDetect_slots (m : Mach) (i : Nat) (on : Bool) : (m.setDetect i on).slots = m.slots := rfl
@[simp] theorem Mach.setDetect_cells (m : Mach) (i : Nat) (on : Bool) : (m.setDetect i on).cells = m.cells := rfl
@[simp] theorem Mach.setDetect_cmps (m : Mach) (i : Nat) (on : Bool) : (m.setDetect i on).cmps = m.cmps := rfl
@[simp] theorem Mach.setDetect_ports (m : Mach) (i : Nat) (on : Bool) : (m.setDetect i on).ports = m.ports := rfl
@[simp] theorem Mach.setDetect_eths (m : Mach) (i : Nat) (on : Bool) : (m.setDetect i on).eths = m.eths := rfl
@[simp] theorem Mach.setDetect_tecs (m : Mach) (i : Nat) (on : Bool) : (m.setDetect i on).tecs = m.tecs := rfl
@[simp] theorem Mach.setDetect_des (m : Mach) (i : Nat) (on : Bool) : (m.setDetect i on).des = m.des := rfl
@[simp] theorem Mach.setDetect_viss (m : Mach) (i : Nat) (on : Bool) : (m.setDetect i on).viss = m.viss := rfl
@[simp] theorem Mach.setDetect_stos (m : Mach) (i : Nat) (on : Bool) : (m.setDetect i on).stos = m.stos := rfl
@[simp] theorem Mach.setDetect_sent (m : Mach) (i : Nat) (on : Bool) : (m.setDetect i on).sent = m.sent := rfl
@[simp] theorem Mach.setDetect_tunnel (m : Mach) (i : Nat) (on : Bool) : (m.setDetect i on).tunnel = m.tunnel := rfl
@[simp] theorem Mach.setDetect_wds (m : Mach) (i : Nat) (on : Bool) : (m.setDetect i on).wds = m.wds := rfl
@[simp] theorem Mach.setDetect_reeds (m : Mach) (i : Nat) (on : Bool) : (m.setDetect i on).reeds = m.reeds := rfl
@[simp] theorem Mach.setDetect_pairs (m : Mach) (i : Nat) (on : Bool) : (m.setDetect i on).pairs = m.pairs := rfl
@[simp] theorem Mach.setDetect_secure (m : Mach) (i : Nat) (on : Bool) : (m.setDetect i on).secure = m.secure := rfl
@[simp] theorem Mach.setDetect_power (m : Mach) (i : Nat) (on : Bool) : (m.setDetect i on).power = m.power := rfl
@[simp] theorem Mach.setDetect_dbg (m : Mach) (i : Nat) (on : Bool) : (m.setDetect i on).dbg = m.dbg := rfl
@[simp] theorem Mach.setDetect_tap (m : Mach) (i : Nat) (on : Bool) : (m.setDetect i on).tap = m.tap := rfl
@[simp] theorem Mach.setDetect_ret (m : Mach) (i : Nat) (on : Bool) : (m.setDetect i on).ret = m.ret := rfl

@[simp] theorem Mach.setFld_now (m : Mach) (f : Fld) (i v : Nat) : (m.setFld f i v).now = m.now := by
  unfold Mach.setFld; split <;> rfl
@[simp] theorem Mach.setFld_fresh (m : Mach) (f : Fld) (i v : Nat) : (m.setFld f i v).fresh = m.fresh := by
  unfold Mach.setFld; split <;> rfl
@[simp] theorem Mach.setFld_held (m : Mach) (f : Fld) (i v : Nat) : (m.setFld f i v).held = m.held := by
  unfold Mach.setFld; split <;> rfl
@[simp] theorem Mach.setFld_shadow (m : Mach) (f : Fld) (i v : Nat) : (m.setFld f i v).shadow = m.shadow := by
  unfold Mach.setFld; split <;> rfl
@[simp] theorem Mach.setFld_resp (m : Mach) (f : Fld) (i v : Nat) : (m.setFld f i v).resp = m.resp := by
  unfold Mach.setFld; split <;> rfl
@[simp] theorem Mach.setFld_mem (m : Mach) (f : Fld) (i v : Nat) : (m.setFld f i v).mem = m.mem := by
  unfold Mach.setFld; split <;> rfl
@[simp] theorem Mach.setFld_ecc (m : Mach) (f : Fld) (i v : Nat) : (m.setFld f i v).ecc = m.ecc := by
  unfold Mach.setFld; split <;> rfl
@[simp] theorem Mach.setFld_flash (m : Mach) (f : Fld) (i v : Nat) : (m.setFld f i v).flash = m.flash := by
  unfold Mach.setFld; split <;> rfl
@[simp] theorem Mach.setFld_host (m : Mach) (f : Fld) (i v : Nat) : (m.setFld f i v).host = m.host := by
  unfold Mach.setFld; split <;> rfl
@[simp] theorem Mach.setFld_msix (m : Mach) (f : Fld) (i v : Nat) : (m.setFld f i v).msix = m.msix := by
  unfold Mach.setFld; split <;> rfl
@[simp] theorem Mach.setFld_posts (m : Mach) (f : Fld) (i v : Nat) : (m.setFld f i v).posts = m.posts := by
  unfold Mach.setFld; split <;> rfl
@[simp] theorem Mach.setFld_queues (m : Mach) (f : Fld) (i v : Nat) : (m.setFld f i v).queues = m.queues := by
  unfold Mach.setFld; split <;> rfl
@[simp] theorem Mach.setFld_qevents (m : Mach) (f : Fld) (i v : Nat) : (m.setFld f i v).qevents = m.qevents := by
  unfold Mach.setFld; split <;> rfl
@[simp] theorem Mach.setFld_stages (m : Mach) (f : Fld) (i v : Nat) : (m.setFld f i v).stages = m.stages := by
  unfold Mach.setFld; split <;> rfl
@[simp] theorem Mach.setFld_behind (m : Mach) (f : Fld) (i v : Nat) : (m.setFld f i v).behind = m.behind := by
  unfold Mach.setFld; split <;> rfl
@[simp] theorem Mach.setFld_groups (m : Mach) (f : Fld) (i v : Nat) : (m.setFld f i v).groups = m.groups := by
  unfold Mach.setFld; split <;> rfl
@[simp] theorem Mach.setFld_wins (m : Mach) (f : Fld) (i v : Nat) : (m.setFld f i v).wins = m.wins := by
  unfold Mach.setFld; split <;> rfl
@[simp] theorem Mach.setFld_slices (m : Mach) (f : Fld) (i v : Nat) : (m.setFld f i v).slices = m.slices := by
  unfold Mach.setFld; split <;> rfl
@[simp] theorem Mach.setFld_timers (m : Mach) (f : Fld) (i v : Nat) : (m.setFld f i v).timers = m.timers := by
  unfold Mach.setFld; split <;> rfl
@[simp] theorem Mach.setFld_banks (m : Mach) (f : Fld) (i v : Nat) : (m.setFld f i v).banks = m.banks := by
  unfold Mach.setFld; split <;> rfl
@[simp] theorem Mach.setFld_slots (m : Mach) (f : Fld) (i v : Nat) : (m.setFld f i v).slots = m.slots := by
  unfold Mach.setFld; split <;> rfl
@[simp] theorem Mach.setFld_cells (m : Mach) (f : Fld) (i v : Nat) : (m.setFld f i v).cells = m.cells := by
  unfold Mach.setFld; split <;> rfl
@[simp] theorem Mach.setFld_cmps (m : Mach) (f : Fld) (i v : Nat) : (m.setFld f i v).cmps = m.cmps := by
  unfold Mach.setFld; split <;> rfl
@[simp] theorem Mach.setFld_ports (m : Mach) (f : Fld) (i v : Nat) : (m.setFld f i v).ports = m.ports := by
  unfold Mach.setFld; split <;> rfl
@[simp] theorem Mach.setFld_eths (m : Mach) (f : Fld) (i v : Nat) : (m.setFld f i v).eths = m.eths := by
  unfold Mach.setFld; split <;> rfl
@[simp] theorem Mach.setFld_tecs (m : Mach) (f : Fld) (i v : Nat) : (m.setFld f i v).tecs = m.tecs := by
  unfold Mach.setFld; split <;> rfl
@[simp] theorem Mach.setFld_des (m : Mach) (f : Fld) (i v : Nat) : (m.setFld f i v).des = m.des := by
  unfold Mach.setFld; split <;> rfl
@[simp] theorem Mach.setFld_viss (m : Mach) (f : Fld) (i v : Nat) : (m.setFld f i v).viss = m.viss := by
  unfold Mach.setFld; split <;> rfl
@[simp] theorem Mach.setFld_stos (m : Mach) (f : Fld) (i v : Nat) : (m.setFld f i v).stos = m.stos := by
  unfold Mach.setFld; split <;> rfl
@[simp] theorem Mach.setFld_sent (m : Mach) (f : Fld) (i v : Nat) : (m.setFld f i v).sent = m.sent := by
  unfold Mach.setFld; split <;> rfl
@[simp] theorem Mach.setFld_tunnel (m : Mach) (f : Fld) (i v : Nat) : (m.setFld f i v).tunnel = m.tunnel := by
  unfold Mach.setFld; split <;> rfl
@[simp] theorem Mach.setFld_wds (m : Mach) (f : Fld) (i v : Nat) : (m.setFld f i v).wds = m.wds := by
  unfold Mach.setFld; split <;> rfl
@[simp] theorem Mach.setFld_sup (m : Mach) (f : Fld) (i v : Nat) : (m.setFld f i v).sup = m.sup := by
  unfold Mach.setFld; split <;> rfl
@[simp] theorem Mach.setFld_reeds (m : Mach) (f : Fld) (i v : Nat) : (m.setFld f i v).reeds = m.reeds := by
  unfold Mach.setFld; split <;> rfl
@[simp] theorem Mach.setFld_pairs (m : Mach) (f : Fld) (i v : Nat) : (m.setFld f i v).pairs = m.pairs := by
  unfold Mach.setFld; split <;> rfl
@[simp] theorem Mach.setFld_secure (m : Mach) (f : Fld) (i v : Nat) : (m.setFld f i v).secure = m.secure := by
  unfold Mach.setFld; split <;> rfl
@[simp] theorem Mach.setFld_power (m : Mach) (f : Fld) (i v : Nat) : (m.setFld f i v).power = m.power := by
  unfold Mach.setFld; split <;> rfl
@[simp] theorem Mach.setFld_dbg (m : Mach) (f : Fld) (i v : Nat) : (m.setFld f i v).dbg = m.dbg := by
  unfold Mach.setFld; split <;> rfl
@[simp] theorem Mach.setFld_tap (m : Mach) (f : Fld) (i v : Nat) : (m.setFld f i v).tap = m.tap := by
  unfold Mach.setFld; split <;> rfl
@[simp] theorem Mach.setFld_ret (m : Mach) (f : Fld) (i v : Nat) : (m.setFld f i v).ret = m.ret := by
  unfold Mach.setFld; split <;> rfl

@[simp] theorem Mach.setFlg_now (m : Mach) (f : Fld) (i : Nat) (b : Bool) : (m.setFlg f i b).now = m.now := by simp [Mach.setFlg]
@[simp] theorem Mach.setFlg_fresh (m : Mach) (f : Fld) (i : Nat) (b : Bool) : (m.setFlg f i b).fresh = m.fresh := by simp [Mach.setFlg]
@[simp] theorem Mach.setFlg_held (m : Mach) (f : Fld) (i : Nat) (b : Bool) : (m.setFlg f i b).held = m.held := by simp [Mach.setFlg]
@[simp] theorem Mach.setFlg_shadow (m : Mach) (f : Fld) (i : Nat) (b : Bool) : (m.setFlg f i b).shadow = m.shadow := by simp [Mach.setFlg]
@[simp] theorem Mach.setFlg_resp (m : Mach) (f : Fld) (i : Nat) (b : Bool) : (m.setFlg f i b).resp = m.resp := by simp [Mach.setFlg]
@[simp] theorem Mach.setFlg_mem (m : Mach) (f : Fld) (i : Nat) (b : Bool) : (m.setFlg f i b).mem = m.mem := by simp [Mach.setFlg]
@[simp] theorem Mach.setFlg_ecc (m : Mach) (f : Fld) (i : Nat) (b : Bool) : (m.setFlg f i b).ecc = m.ecc := by simp [Mach.setFlg]
@[simp] theorem Mach.setFlg_flash (m : Mach) (f : Fld) (i : Nat) (b : Bool) : (m.setFlg f i b).flash = m.flash := by simp [Mach.setFlg]
@[simp] theorem Mach.setFlg_host (m : Mach) (f : Fld) (i : Nat) (b : Bool) : (m.setFlg f i b).host = m.host := by simp [Mach.setFlg]
@[simp] theorem Mach.setFlg_msix (m : Mach) (f : Fld) (i : Nat) (b : Bool) : (m.setFlg f i b).msix = m.msix := by simp [Mach.setFlg]
@[simp] theorem Mach.setFlg_posts (m : Mach) (f : Fld) (i : Nat) (b : Bool) : (m.setFlg f i b).posts = m.posts := by simp [Mach.setFlg]
@[simp] theorem Mach.setFlg_queues (m : Mach) (f : Fld) (i : Nat) (b : Bool) : (m.setFlg f i b).queues = m.queues := by simp [Mach.setFlg]
@[simp] theorem Mach.setFlg_qevents (m : Mach) (f : Fld) (i : Nat) (b : Bool) : (m.setFlg f i b).qevents = m.qevents := by simp [Mach.setFlg]
@[simp] theorem Mach.setFlg_stages (m : Mach) (f : Fld) (i : Nat) (b : Bool) : (m.setFlg f i b).stages = m.stages := by simp [Mach.setFlg]
@[simp] theorem Mach.setFlg_behind (m : Mach) (f : Fld) (i : Nat) (b : Bool) : (m.setFlg f i b).behind = m.behind := by simp [Mach.setFlg]
@[simp] theorem Mach.setFlg_groups (m : Mach) (f : Fld) (i : Nat) (b : Bool) : (m.setFlg f i b).groups = m.groups := by simp [Mach.setFlg]
@[simp] theorem Mach.setFlg_wins (m : Mach) (f : Fld) (i : Nat) (b : Bool) : (m.setFlg f i b).wins = m.wins := by simp [Mach.setFlg]
@[simp] theorem Mach.setFlg_slices (m : Mach) (f : Fld) (i : Nat) (b : Bool) : (m.setFlg f i b).slices = m.slices := by simp [Mach.setFlg]
@[simp] theorem Mach.setFlg_timers (m : Mach) (f : Fld) (i : Nat) (b : Bool) : (m.setFlg f i b).timers = m.timers := by simp [Mach.setFlg]
@[simp] theorem Mach.setFlg_banks (m : Mach) (f : Fld) (i : Nat) (b : Bool) : (m.setFlg f i b).banks = m.banks := by simp [Mach.setFlg]
@[simp] theorem Mach.setFlg_slots (m : Mach) (f : Fld) (i : Nat) (b : Bool) : (m.setFlg f i b).slots = m.slots := by simp [Mach.setFlg]
@[simp] theorem Mach.setFlg_cells (m : Mach) (f : Fld) (i : Nat) (b : Bool) : (m.setFlg f i b).cells = m.cells := by simp [Mach.setFlg]
@[simp] theorem Mach.setFlg_cmps (m : Mach) (f : Fld) (i : Nat) (b : Bool) : (m.setFlg f i b).cmps = m.cmps := by simp [Mach.setFlg]
@[simp] theorem Mach.setFlg_ports (m : Mach) (f : Fld) (i : Nat) (b : Bool) : (m.setFlg f i b).ports = m.ports := by simp [Mach.setFlg]
@[simp] theorem Mach.setFlg_eths (m : Mach) (f : Fld) (i : Nat) (b : Bool) : (m.setFlg f i b).eths = m.eths := by simp [Mach.setFlg]
@[simp] theorem Mach.setFlg_tecs (m : Mach) (f : Fld) (i : Nat) (b : Bool) : (m.setFlg f i b).tecs = m.tecs := by simp [Mach.setFlg]
@[simp] theorem Mach.setFlg_des (m : Mach) (f : Fld) (i : Nat) (b : Bool) : (m.setFlg f i b).des = m.des := by simp [Mach.setFlg]
@[simp] theorem Mach.setFlg_viss (m : Mach) (f : Fld) (i : Nat) (b : Bool) : (m.setFlg f i b).viss = m.viss := by simp [Mach.setFlg]
@[simp] theorem Mach.setFlg_stos (m : Mach) (f : Fld) (i : Nat) (b : Bool) : (m.setFlg f i b).stos = m.stos := by simp [Mach.setFlg]
@[simp] theorem Mach.setFlg_sent (m : Mach) (f : Fld) (i : Nat) (b : Bool) : (m.setFlg f i b).sent = m.sent := by simp [Mach.setFlg]
@[simp] theorem Mach.setFlg_tunnel (m : Mach) (f : Fld) (i : Nat) (b : Bool) : (m.setFlg f i b).tunnel = m.tunnel := by simp [Mach.setFlg]
@[simp] theorem Mach.setFlg_wds (m : Mach) (f : Fld) (i : Nat) (b : Bool) : (m.setFlg f i b).wds = m.wds := by simp [Mach.setFlg]
@[simp] theorem Mach.setFlg_sup (m : Mach) (f : Fld) (i : Nat) (b : Bool) : (m.setFlg f i b).sup = m.sup := by simp [Mach.setFlg]
@[simp] theorem Mach.setFlg_reeds (m : Mach) (f : Fld) (i : Nat) (b : Bool) : (m.setFlg f i b).reeds = m.reeds := by simp [Mach.setFlg]
@[simp] theorem Mach.setFlg_pairs (m : Mach) (f : Fld) (i : Nat) (b : Bool) : (m.setFlg f i b).pairs = m.pairs := by simp [Mach.setFlg]
@[simp] theorem Mach.setFlg_secure (m : Mach) (f : Fld) (i : Nat) (b : Bool) : (m.setFlg f i b).secure = m.secure := by simp [Mach.setFlg]
@[simp] theorem Mach.setFlg_power (m : Mach) (f : Fld) (i : Nat) (b : Bool) : (m.setFlg f i b).power = m.power := by simp [Mach.setFlg]
@[simp] theorem Mach.setFlg_dbg (m : Mach) (f : Fld) (i : Nat) (b : Bool) : (m.setFlg f i b).dbg = m.dbg := by simp [Mach.setFlg]
@[simp] theorem Mach.setFlg_tap (m : Mach) (f : Fld) (i : Nat) (b : Bool) : (m.setFlg f i b).tap = m.tap := by simp [Mach.setFlg]
@[simp] theorem Mach.setFlg_ret (m : Mach) (f : Fld) (i : Nat) (b : Bool) : (m.setFlg f i b).ret = m.ret := by simp [Mach.setFlg]

@[simp] theorem Mach.raise_now (m : Mach) (f : Fld) (i : Nat) : (m.raise f i).now = m.now := by simp [Mach.raise]
@[simp] theorem Mach.raise_fresh (m : Mach) (f : Fld) (i : Nat) : (m.raise f i).fresh = m.fresh := by simp [Mach.raise]
@[simp] theorem Mach.raise_held (m : Mach) (f : Fld) (i : Nat) : (m.raise f i).held = m.held := by simp [Mach.raise]
@[simp] theorem Mach.raise_shadow (m : Mach) (f : Fld) (i : Nat) : (m.raise f i).shadow = m.shadow := by simp [Mach.raise]
@[simp] theorem Mach.raise_resp (m : Mach) (f : Fld) (i : Nat) : (m.raise f i).resp = m.resp := by simp [Mach.raise]
@[simp] theorem Mach.raise_mem (m : Mach) (f : Fld) (i : Nat) : (m.raise f i).mem = m.mem := by simp [Mach.raise]
@[simp] theorem Mach.raise_ecc (m : Mach) (f : Fld) (i : Nat) : (m.raise f i).ecc = m.ecc := by simp [Mach.raise]
@[simp] theorem Mach.raise_flash (m : Mach) (f : Fld) (i : Nat) : (m.raise f i).flash = m.flash := by simp [Mach.raise]
@[simp] theorem Mach.raise_host (m : Mach) (f : Fld) (i : Nat) : (m.raise f i).host = m.host := by simp [Mach.raise]
@[simp] theorem Mach.raise_msix (m : Mach) (f : Fld) (i : Nat) : (m.raise f i).msix = m.msix := by simp [Mach.raise]
@[simp] theorem Mach.raise_posts (m : Mach) (f : Fld) (i : Nat) : (m.raise f i).posts = m.posts := by simp [Mach.raise]
@[simp] theorem Mach.raise_queues (m : Mach) (f : Fld) (i : Nat) : (m.raise f i).queues = m.queues := by simp [Mach.raise]
@[simp] theorem Mach.raise_qevents (m : Mach) (f : Fld) (i : Nat) : (m.raise f i).qevents = m.qevents := by simp [Mach.raise]
@[simp] theorem Mach.raise_stages (m : Mach) (f : Fld) (i : Nat) : (m.raise f i).stages = m.stages := by simp [Mach.raise]
@[simp] theorem Mach.raise_behind (m : Mach) (f : Fld) (i : Nat) : (m.raise f i).behind = m.behind := by simp [Mach.raise]
@[simp] theorem Mach.raise_groups (m : Mach) (f : Fld) (i : Nat) : (m.raise f i).groups = m.groups := by simp [Mach.raise]
@[simp] theorem Mach.raise_wins (m : Mach) (f : Fld) (i : Nat) : (m.raise f i).wins = m.wins := by simp [Mach.raise]
@[simp] theorem Mach.raise_slices (m : Mach) (f : Fld) (i : Nat) : (m.raise f i).slices = m.slices := by simp [Mach.raise]
@[simp] theorem Mach.raise_timers (m : Mach) (f : Fld) (i : Nat) : (m.raise f i).timers = m.timers := by simp [Mach.raise]
@[simp] theorem Mach.raise_banks (m : Mach) (f : Fld) (i : Nat) : (m.raise f i).banks = m.banks := by simp [Mach.raise]
@[simp] theorem Mach.raise_slots (m : Mach) (f : Fld) (i : Nat) : (m.raise f i).slots = m.slots := by simp [Mach.raise]
@[simp] theorem Mach.raise_cells (m : Mach) (f : Fld) (i : Nat) : (m.raise f i).cells = m.cells := by simp [Mach.raise]
@[simp] theorem Mach.raise_cmps (m : Mach) (f : Fld) (i : Nat) : (m.raise f i).cmps = m.cmps := by simp [Mach.raise]
@[simp] theorem Mach.raise_ports (m : Mach) (f : Fld) (i : Nat) : (m.raise f i).ports = m.ports := by simp [Mach.raise]
@[simp] theorem Mach.raise_eths (m : Mach) (f : Fld) (i : Nat) : (m.raise f i).eths = m.eths := by simp [Mach.raise]
@[simp] theorem Mach.raise_tecs (m : Mach) (f : Fld) (i : Nat) : (m.raise f i).tecs = m.tecs := by simp [Mach.raise]
@[simp] theorem Mach.raise_des (m : Mach) (f : Fld) (i : Nat) : (m.raise f i).des = m.des := by simp [Mach.raise]
@[simp] theorem Mach.raise_viss (m : Mach) (f : Fld) (i : Nat) : (m.raise f i).viss = m.viss := by simp [Mach.raise]
@[simp] theorem Mach.raise_stos (m : Mach) (f : Fld) (i : Nat) : (m.raise f i).stos = m.stos := by simp [Mach.raise]
@[simp] theorem Mach.raise_sent (m : Mach) (f : Fld) (i : Nat) : (m.raise f i).sent = m.sent := by simp [Mach.raise]
@[simp] theorem Mach.raise_tunnel (m : Mach) (f : Fld) (i : Nat) : (m.raise f i).tunnel = m.tunnel := by simp [Mach.raise]
@[simp] theorem Mach.raise_wds (m : Mach) (f : Fld) (i : Nat) : (m.raise f i).wds = m.wds := by simp [Mach.raise]
@[simp] theorem Mach.raise_sup (m : Mach) (f : Fld) (i : Nat) : (m.raise f i).sup = m.sup := by simp [Mach.raise]
@[simp] theorem Mach.raise_reeds (m : Mach) (f : Fld) (i : Nat) : (m.raise f i).reeds = m.reeds := by simp [Mach.raise]
@[simp] theorem Mach.raise_pairs (m : Mach) (f : Fld) (i : Nat) : (m.raise f i).pairs = m.pairs := by simp [Mach.raise]
@[simp] theorem Mach.raise_secure (m : Mach) (f : Fld) (i : Nat) : (m.raise f i).secure = m.secure := by simp [Mach.raise]
@[simp] theorem Mach.raise_power (m : Mach) (f : Fld) (i : Nat) : (m.raise f i).power = m.power := by simp [Mach.raise]
@[simp] theorem Mach.raise_dbg (m : Mach) (f : Fld) (i : Nat) : (m.raise f i).dbg = m.dbg := by simp [Mach.raise]
@[simp] theorem Mach.raise_tap (m : Mach) (f : Fld) (i : Nat) : (m.raise f i).tap = m.tap := by simp [Mach.raise]
@[simp] theorem Mach.raise_ret (m : Mach) (f : Fld) (i : Nat) : (m.raise f i).ret = m.ret := by simp [Mach.raise]

@[simp] theorem Mach.raiseIf_now (m : Mach) (b : Bool) (f : Fld) (i : Nat) : (m.raiseIf b f i).now = m.now := by
  unfold Mach.raiseIf; split <;> simp
@[simp] theorem Mach.raiseIf_fresh (m : Mach) (b : Bool) (f : Fld) (i : Nat) : (m.raiseIf b f i).fresh = m.fresh := by
  unfold Mach.raiseIf; split <;> simp
@[simp] theorem Mach.raiseIf_held (m : Mach) (b : Bool) (f : Fld) (i : Nat) : (m.raiseIf b f i).held = m.held := by
  unfold Mach.raiseIf; split <;> simp
@[simp] theorem Mach.raiseIf_shadow (m : Mach) (b : Bool) (f : Fld) (i : Nat) : (m.raiseIf b f i).shadow = m.shadow := by
  unfold Mach.raiseIf; split <;> simp
@[simp] theorem Mach.raiseIf_resp (m : Mach) (b : Bool) (f : Fld) (i : Nat) : (m.raiseIf b f i).resp = m.resp := by
  unfold Mach.raiseIf; split <;> simp
@[simp] theorem Mach.raiseIf_mem (m : Mach) (b : Bool) (f : Fld) (i : Nat) : (m.raiseIf b f i).mem = m.mem := by
  unfold Mach.raiseIf; split <;> simp
@[simp] theorem Mach.raiseIf_ecc (m : Mach) (b : Bool) (f : Fld) (i : Nat) : (m.raiseIf b f i).ecc = m.ecc := by
  unfold Mach.raiseIf; split <;> simp
@[simp] theorem Mach.raiseIf_flash (m : Mach) (b : Bool) (f : Fld) (i : Nat) : (m.raiseIf b f i).flash = m.flash := by
  unfold Mach.raiseIf; split <;> simp
@[simp] theorem Mach.raiseIf_host (m : Mach) (b : Bool) (f : Fld) (i : Nat) : (m.raiseIf b f i).host = m.host := by
  unfold Mach.raiseIf; split <;> simp
@[simp] theorem Mach.raiseIf_msix (m : Mach) (b : Bool) (f : Fld) (i : Nat) : (m.raiseIf b f i).msix = m.msix := by
  unfold Mach.raiseIf; split <;> simp
@[simp] theorem Mach.raiseIf_posts (m : Mach) (b : Bool) (f : Fld) (i : Nat) : (m.raiseIf b f i).posts = m.posts := by
  unfold Mach.raiseIf; split <;> simp
@[simp] theorem Mach.raiseIf_queues (m : Mach) (b : Bool) (f : Fld) (i : Nat) : (m.raiseIf b f i).queues = m.queues := by
  unfold Mach.raiseIf; split <;> simp
@[simp] theorem Mach.raiseIf_qevents (m : Mach) (b : Bool) (f : Fld) (i : Nat) : (m.raiseIf b f i).qevents = m.qevents := by
  unfold Mach.raiseIf; split <;> simp
@[simp] theorem Mach.raiseIf_stages (m : Mach) (b : Bool) (f : Fld) (i : Nat) : (m.raiseIf b f i).stages = m.stages := by
  unfold Mach.raiseIf; split <;> simp
@[simp] theorem Mach.raiseIf_behind (m : Mach) (b : Bool) (f : Fld) (i : Nat) : (m.raiseIf b f i).behind = m.behind := by
  unfold Mach.raiseIf; split <;> simp
@[simp] theorem Mach.raiseIf_groups (m : Mach) (b : Bool) (f : Fld) (i : Nat) : (m.raiseIf b f i).groups = m.groups := by
  unfold Mach.raiseIf; split <;> simp
@[simp] theorem Mach.raiseIf_wins (m : Mach) (b : Bool) (f : Fld) (i : Nat) : (m.raiseIf b f i).wins = m.wins := by
  unfold Mach.raiseIf; split <;> simp
@[simp] theorem Mach.raiseIf_slices (m : Mach) (b : Bool) (f : Fld) (i : Nat) : (m.raiseIf b f i).slices = m.slices := by
  unfold Mach.raiseIf; split <;> simp
@[simp] theorem Mach.raiseIf_timers (m : Mach) (b : Bool) (f : Fld) (i : Nat) : (m.raiseIf b f i).timers = m.timers := by
  unfold Mach.raiseIf; split <;> simp
@[simp] theorem Mach.raiseIf_banks (m : Mach) (b : Bool) (f : Fld) (i : Nat) : (m.raiseIf b f i).banks = m.banks := by
  unfold Mach.raiseIf; split <;> simp
@[simp] theorem Mach.raiseIf_slots (m : Mach) (b : Bool) (f : Fld) (i : Nat) : (m.raiseIf b f i).slots = m.slots := by
  unfold Mach.raiseIf; split <;> simp
@[simp] theorem Mach.raiseIf_cells (m : Mach) (b : Bool) (f : Fld) (i : Nat) : (m.raiseIf b f i).cells = m.cells := by
  unfold Mach.raiseIf; split <;> simp
@[simp] theorem Mach.raiseIf_cmps (m : Mach) (b : Bool) (f : Fld) (i : Nat) : (m.raiseIf b f i).cmps = m.cmps := by
  unfold Mach.raiseIf; split <;> simp
@[simp] theorem Mach.raiseIf_ports (m : Mach) (b : Bool) (f : Fld) (i : Nat) : (m.raiseIf b f i).ports = m.ports := by
  unfold Mach.raiseIf; split <;> simp
@[simp] theorem Mach.raiseIf_eths (m : Mach) (b : Bool) (f : Fld) (i : Nat) : (m.raiseIf b f i).eths = m.eths := by
  unfold Mach.raiseIf; split <;> simp
@[simp] theorem Mach.raiseIf_tecs (m : Mach) (b : Bool) (f : Fld) (i : Nat) : (m.raiseIf b f i).tecs = m.tecs := by
  unfold Mach.raiseIf; split <;> simp
@[simp] theorem Mach.raiseIf_des (m : Mach) (b : Bool) (f : Fld) (i : Nat) : (m.raiseIf b f i).des = m.des := by
  unfold Mach.raiseIf; split <;> simp
@[simp] theorem Mach.raiseIf_viss (m : Mach) (b : Bool) (f : Fld) (i : Nat) : (m.raiseIf b f i).viss = m.viss := by
  unfold Mach.raiseIf; split <;> simp
@[simp] theorem Mach.raiseIf_stos (m : Mach) (b : Bool) (f : Fld) (i : Nat) : (m.raiseIf b f i).stos = m.stos := by
  unfold Mach.raiseIf; split <;> simp
@[simp] theorem Mach.raiseIf_sent (m : Mach) (b : Bool) (f : Fld) (i : Nat) : (m.raiseIf b f i).sent = m.sent := by
  unfold Mach.raiseIf; split <;> simp
@[simp] theorem Mach.raiseIf_tunnel (m : Mach) (b : Bool) (f : Fld) (i : Nat) : (m.raiseIf b f i).tunnel = m.tunnel := by
  unfold Mach.raiseIf; split <;> simp
@[simp] theorem Mach.raiseIf_wds (m : Mach) (b : Bool) (f : Fld) (i : Nat) : (m.raiseIf b f i).wds = m.wds := by
  unfold Mach.raiseIf; split <;> simp
@[simp] theorem Mach.raiseIf_sup (m : Mach) (b : Bool) (f : Fld) (i : Nat) : (m.raiseIf b f i).sup = m.sup := by
  unfold Mach.raiseIf; split <;> simp
@[simp] theorem Mach.raiseIf_reeds (m : Mach) (b : Bool) (f : Fld) (i : Nat) : (m.raiseIf b f i).reeds = m.reeds := by
  unfold Mach.raiseIf; split <;> simp
@[simp] theorem Mach.raiseIf_pairs (m : Mach) (b : Bool) (f : Fld) (i : Nat) : (m.raiseIf b f i).pairs = m.pairs := by
  unfold Mach.raiseIf; split <;> simp
@[simp] theorem Mach.raiseIf_secure (m : Mach) (b : Bool) (f : Fld) (i : Nat) : (m.raiseIf b f i).secure = m.secure := by
  unfold Mach.raiseIf; split <;> simp
@[simp] theorem Mach.raiseIf_power (m : Mach) (b : Bool) (f : Fld) (i : Nat) : (m.raiseIf b f i).power = m.power := by
  unfold Mach.raiseIf; split <;> simp
@[simp] theorem Mach.raiseIf_dbg (m : Mach) (b : Bool) (f : Fld) (i : Nat) : (m.raiseIf b f i).dbg = m.dbg := by
  unfold Mach.raiseIf; split <;> simp
@[simp] theorem Mach.raiseIf_tap (m : Mach) (b : Bool) (f : Fld) (i : Nat) : (m.raiseIf b f i).tap = m.tap := by
  unfold Mach.raiseIf; split <;> simp
@[simp] theorem Mach.raiseIf_ret (m : Mach) (b : Bool) (f : Fld) (i : Nat) : (m.raiseIf b f i).ret = m.ret := by
  unfold Mach.raiseIf; split <;> simp

@[simp] theorem Mach.countSat_now (m : Mach) (f : Fld) (i n : Nat) : (m.countSat f i n).now = m.now := by simp [Mach.countSat]
@[simp] theorem Mach.countSat_fresh (m : Mach) (f : Fld) (i n : Nat) : (m.countSat f i n).fresh = m.fresh := by simp [Mach.countSat]
@[simp] theorem Mach.countSat_held (m : Mach) (f : Fld) (i n : Nat) : (m.countSat f i n).held = m.held := by simp [Mach.countSat]
@[simp] theorem Mach.countSat_shadow (m : Mach) (f : Fld) (i n : Nat) : (m.countSat f i n).shadow = m.shadow := by simp [Mach.countSat]
@[simp] theorem Mach.countSat_resp (m : Mach) (f : Fld) (i n : Nat) : (m.countSat f i n).resp = m.resp := by simp [Mach.countSat]
@[simp] theorem Mach.countSat_mem (m : Mach) (f : Fld) (i n : Nat) : (m.countSat f i n).mem = m.mem := by simp [Mach.countSat]
@[simp] theorem Mach.countSat_ecc (m : Mach) (f : Fld) (i n : Nat) : (m.countSat f i n).ecc = m.ecc := by simp [Mach.countSat]
@[simp] theorem Mach.countSat_flash (m : Mach) (f : Fld) (i n : Nat) : (m.countSat f i n).flash = m.flash := by simp [Mach.countSat]
@[simp] theorem Mach.countSat_host (m : Mach) (f : Fld) (i n : Nat) : (m.countSat f i n).host = m.host := by simp [Mach.countSat]
@[simp] theorem Mach.countSat_msix (m : Mach) (f : Fld) (i n : Nat) : (m.countSat f i n).msix = m.msix := by simp [Mach.countSat]
@[simp] theorem Mach.countSat_posts (m : Mach) (f : Fld) (i n : Nat) : (m.countSat f i n).posts = m.posts := by simp [Mach.countSat]
@[simp] theorem Mach.countSat_queues (m : Mach) (f : Fld) (i n : Nat) : (m.countSat f i n).queues = m.queues := by simp [Mach.countSat]
@[simp] theorem Mach.countSat_qevents (m : Mach) (f : Fld) (i n : Nat) : (m.countSat f i n).qevents = m.qevents := by simp [Mach.countSat]
@[simp] theorem Mach.countSat_stages (m : Mach) (f : Fld) (i n : Nat) : (m.countSat f i n).stages = m.stages := by simp [Mach.countSat]
@[simp] theorem Mach.countSat_behind (m : Mach) (f : Fld) (i n : Nat) : (m.countSat f i n).behind = m.behind := by simp [Mach.countSat]
@[simp] theorem Mach.countSat_groups (m : Mach) (f : Fld) (i n : Nat) : (m.countSat f i n).groups = m.groups := by simp [Mach.countSat]
@[simp] theorem Mach.countSat_wins (m : Mach) (f : Fld) (i n : Nat) : (m.countSat f i n).wins = m.wins := by simp [Mach.countSat]
@[simp] theorem Mach.countSat_slices (m : Mach) (f : Fld) (i n : Nat) : (m.countSat f i n).slices = m.slices := by simp [Mach.countSat]
@[simp] theorem Mach.countSat_timers (m : Mach) (f : Fld) (i n : Nat) : (m.countSat f i n).timers = m.timers := by simp [Mach.countSat]
@[simp] theorem Mach.countSat_banks (m : Mach) (f : Fld) (i n : Nat) : (m.countSat f i n).banks = m.banks := by simp [Mach.countSat]
@[simp] theorem Mach.countSat_slots (m : Mach) (f : Fld) (i n : Nat) : (m.countSat f i n).slots = m.slots := by simp [Mach.countSat]
@[simp] theorem Mach.countSat_cells (m : Mach) (f : Fld) (i n : Nat) : (m.countSat f i n).cells = m.cells := by simp [Mach.countSat]
@[simp] theorem Mach.countSat_cmps (m : Mach) (f : Fld) (i n : Nat) : (m.countSat f i n).cmps = m.cmps := by simp [Mach.countSat]
@[simp] theorem Mach.countSat_ports (m : Mach) (f : Fld) (i n : Nat) : (m.countSat f i n).ports = m.ports := by simp [Mach.countSat]
@[simp] theorem Mach.countSat_eths (m : Mach) (f : Fld) (i n : Nat) : (m.countSat f i n).eths = m.eths := by simp [Mach.countSat]
@[simp] theorem Mach.countSat_tecs (m : Mach) (f : Fld) (i n : Nat) : (m.countSat f i n).tecs = m.tecs := by simp [Mach.countSat]
@[simp] theorem Mach.countSat_des (m : Mach) (f : Fld) (i n : Nat) : (m.countSat f i n).des = m.des := by simp [Mach.countSat]
@[simp] theorem Mach.countSat_viss (m : Mach) (f : Fld) (i n : Nat) : (m.countSat f i n).viss = m.viss := by simp [Mach.countSat]
@[simp] theorem Mach.countSat_stos (m : Mach) (f : Fld) (i n : Nat) : (m.countSat f i n).stos = m.stos := by simp [Mach.countSat]
@[simp] theorem Mach.countSat_sent (m : Mach) (f : Fld) (i n : Nat) : (m.countSat f i n).sent = m.sent := by simp [Mach.countSat]
@[simp] theorem Mach.countSat_tunnel (m : Mach) (f : Fld) (i n : Nat) : (m.countSat f i n).tunnel = m.tunnel := by simp [Mach.countSat]
@[simp] theorem Mach.countSat_wds (m : Mach) (f : Fld) (i n : Nat) : (m.countSat f i n).wds = m.wds := by simp [Mach.countSat]
@[simp] theorem Mach.countSat_sup (m : Mach) (f : Fld) (i n : Nat) : (m.countSat f i n).sup = m.sup := by simp [Mach.countSat]
@[simp] theorem Mach.countSat_reeds (m : Mach) (f : Fld) (i n : Nat) : (m.countSat f i n).reeds = m.reeds := by simp [Mach.countSat]
@[simp] theorem Mach.countSat_pairs (m : Mach) (f : Fld) (i n : Nat) : (m.countSat f i n).pairs = m.pairs := by simp [Mach.countSat]
@[simp] theorem Mach.countSat_secure (m : Mach) (f : Fld) (i n : Nat) : (m.countSat f i n).secure = m.secure := by simp [Mach.countSat]
@[simp] theorem Mach.countSat_power (m : Mach) (f : Fld) (i n : Nat) : (m.countSat f i n).power = m.power := by simp [Mach.countSat]
@[simp] theorem Mach.countSat_dbg (m : Mach) (f : Fld) (i n : Nat) : (m.countSat f i n).dbg = m.dbg := by simp [Mach.countSat]
@[simp] theorem Mach.countSat_tap (m : Mach) (f : Fld) (i n : Nat) : (m.countSat f i n).tap = m.tap := by simp [Mach.countSat]
@[simp] theorem Mach.countSat_ret (m : Mach) (f : Fld) (i n : Nat) : (m.countSat f i n).ret = m.ret := by simp [Mach.countSat]

@[simp] theorem Mach.countMod_now (m : Mach) (f : Fld) (i n : Nat) : (m.countMod f i n).now = m.now := by simp [Mach.countMod]
@[simp] theorem Mach.countMod_fresh (m : Mach) (f : Fld) (i n : Nat) : (m.countMod f i n).fresh = m.fresh := by simp [Mach.countMod]
@[simp] theorem Mach.countMod_held (m : Mach) (f : Fld) (i n : Nat) : (m.countMod f i n).held = m.held := by simp [Mach.countMod]
@[simp] theorem Mach.countMod_shadow (m : Mach) (f : Fld) (i n : Nat) : (m.countMod f i n).shadow = m.shadow := by simp [Mach.countMod]
@[simp] theorem Mach.countMod_resp (m : Mach) (f : Fld) (i n : Nat) : (m.countMod f i n).resp = m.resp := by simp [Mach.countMod]
@[simp] theorem Mach.countMod_mem (m : Mach) (f : Fld) (i n : Nat) : (m.countMod f i n).mem = m.mem := by simp [Mach.countMod]
@[simp] theorem Mach.countMod_ecc (m : Mach) (f : Fld) (i n : Nat) : (m.countMod f i n).ecc = m.ecc := by simp [Mach.countMod]
@[simp] theorem Mach.countMod_flash (m : Mach) (f : Fld) (i n : Nat) : (m.countMod f i n).flash = m.flash := by simp [Mach.countMod]
@[simp] theorem Mach.countMod_host (m : Mach) (f : Fld) (i n : Nat) : (m.countMod f i n).host = m.host := by simp [Mach.countMod]
@[simp] theorem Mach.countMod_msix (m : Mach) (f : Fld) (i n : Nat) : (m.countMod f i n).msix = m.msix := by simp [Mach.countMod]
@[simp] theorem Mach.countMod_posts (m : Mach) (f : Fld) (i n : Nat) : (m.countMod f i n).posts = m.posts := by simp [Mach.countMod]
@[simp] theorem Mach.countMod_queues (m : Mach) (f : Fld) (i n : Nat) : (m.countMod f i n).queues = m.queues := by simp [Mach.countMod]
@[simp] theorem Mach.countMod_qevents (m : Mach) (f : Fld) (i n : Nat) : (m.countMod f i n).qevents = m.qevents := by simp [Mach.countMod]
@[simp] theorem Mach.countMod_stages (m : Mach) (f : Fld) (i n : Nat) : (m.countMod f i n).stages = m.stages := by simp [Mach.countMod]
@[simp] theorem Mach.countMod_behind (m : Mach) (f : Fld) (i n : Nat) : (m.countMod f i n).behind = m.behind := by simp [Mach.countMod]
@[simp] theorem Mach.countMod_groups (m : Mach) (f : Fld) (i n : Nat) : (m.countMod f i n).groups = m.groups := by simp [Mach.countMod]
@[simp] theorem Mach.countMod_wins (m : Mach) (f : Fld) (i n : Nat) : (m.countMod f i n).wins = m.wins := by simp [Mach.countMod]
@[simp] theorem Mach.countMod_slices (m : Mach) (f : Fld) (i n : Nat) : (m.countMod f i n).slices = m.slices := by simp [Mach.countMod]
@[simp] theorem Mach.countMod_timers (m : Mach) (f : Fld) (i n : Nat) : (m.countMod f i n).timers = m.timers := by simp [Mach.countMod]
@[simp] theorem Mach.countMod_banks (m : Mach) (f : Fld) (i n : Nat) : (m.countMod f i n).banks = m.banks := by simp [Mach.countMod]
@[simp] theorem Mach.countMod_slots (m : Mach) (f : Fld) (i n : Nat) : (m.countMod f i n).slots = m.slots := by simp [Mach.countMod]
@[simp] theorem Mach.countMod_cells (m : Mach) (f : Fld) (i n : Nat) : (m.countMod f i n).cells = m.cells := by simp [Mach.countMod]
@[simp] theorem Mach.countMod_cmps (m : Mach) (f : Fld) (i n : Nat) : (m.countMod f i n).cmps = m.cmps := by simp [Mach.countMod]
@[simp] theorem Mach.countMod_ports (m : Mach) (f : Fld) (i n : Nat) : (m.countMod f i n).ports = m.ports := by simp [Mach.countMod]
@[simp] theorem Mach.countMod_eths (m : Mach) (f : Fld) (i n : Nat) : (m.countMod f i n).eths = m.eths := by simp [Mach.countMod]
@[simp] theorem Mach.countMod_tecs (m : Mach) (f : Fld) (i n : Nat) : (m.countMod f i n).tecs = m.tecs := by simp [Mach.countMod]
@[simp] theorem Mach.countMod_des (m : Mach) (f : Fld) (i n : Nat) : (m.countMod f i n).des = m.des := by simp [Mach.countMod]
@[simp] theorem Mach.countMod_viss (m : Mach) (f : Fld) (i n : Nat) : (m.countMod f i n).viss = m.viss := by simp [Mach.countMod]
@[simp] theorem Mach.countMod_stos (m : Mach) (f : Fld) (i n : Nat) : (m.countMod f i n).stos = m.stos := by simp [Mach.countMod]
@[simp] theorem Mach.countMod_sent (m : Mach) (f : Fld) (i n : Nat) : (m.countMod f i n).sent = m.sent := by simp [Mach.countMod]
@[simp] theorem Mach.countMod_tunnel (m : Mach) (f : Fld) (i n : Nat) : (m.countMod f i n).tunnel = m.tunnel := by simp [Mach.countMod]
@[simp] theorem Mach.countMod_wds (m : Mach) (f : Fld) (i n : Nat) : (m.countMod f i n).wds = m.wds := by simp [Mach.countMod]
@[simp] theorem Mach.countMod_sup (m : Mach) (f : Fld) (i n : Nat) : (m.countMod f i n).sup = m.sup := by simp [Mach.countMod]
@[simp] theorem Mach.countMod_reeds (m : Mach) (f : Fld) (i n : Nat) : (m.countMod f i n).reeds = m.reeds := by simp [Mach.countMod]
@[simp] theorem Mach.countMod_pairs (m : Mach) (f : Fld) (i n : Nat) : (m.countMod f i n).pairs = m.pairs := by simp [Mach.countMod]
@[simp] theorem Mach.countMod_secure (m : Mach) (f : Fld) (i n : Nat) : (m.countMod f i n).secure = m.secure := by simp [Mach.countMod]
@[simp] theorem Mach.countMod_power (m : Mach) (f : Fld) (i n : Nat) : (m.countMod f i n).power = m.power := by simp [Mach.countMod]
@[simp] theorem Mach.countMod_dbg (m : Mach) (f : Fld) (i n : Nat) : (m.countMod f i n).dbg = m.dbg := by simp [Mach.countMod]
@[simp] theorem Mach.countMod_tap (m : Mach) (f : Fld) (i n : Nat) : (m.countMod f i n).tap = m.tap := by simp [Mach.countMod]
@[simp] theorem Mach.countMod_ret (m : Mach) (f : Fld) (i n : Nat) : (m.countMod f i n).ret = m.ret := by simp [Mach.countMod]

@[simp] theorem Mach.refreshFault_now (m : Mach)  : (m.refreshFault ).now = m.now := by simp [Mach.refreshFault]
@[simp] theorem Mach.refreshFault_fresh (m : Mach)  : (m.refreshFault ).fresh = m.fresh := by simp [Mach.refreshFault]
@[simp] theorem Mach.refreshFault_held (m : Mach)  : (m.refreshFault ).held = m.held := by simp [Mach.refreshFault]
@[simp] theorem Mach.refreshFault_shadow (m : Mach)  : (m.refreshFault ).shadow = m.shadow := by simp [Mach.refreshFault]
@[simp] theorem Mach.refreshFault_resp (m : Mach)  : (m.refreshFault ).resp = m.resp := by simp [Mach.refreshFault]
@[simp] theorem Mach.refreshFault_mem (m : Mach)  : (m.refreshFault ).mem = m.mem := by simp [Mach.refreshFault]
@[simp] theorem Mach.refreshFault_ecc (m : Mach)  : (m.refreshFault ).ecc = m.ecc := by simp [Mach.refreshFault]
@[simp] theorem Mach.refreshFault_flash (m : Mach)  : (m.refreshFault ).flash = m.flash := by simp [Mach.refreshFault]
@[simp] theorem Mach.refreshFault_host (m : Mach)  : (m.refreshFault ).host = m.host := by simp [Mach.refreshFault]
@[simp] theorem Mach.refreshFault_msix (m : Mach)  : (m.refreshFault ).msix = m.msix := by simp [Mach.refreshFault]
@[simp] theorem Mach.refreshFault_posts (m : Mach)  : (m.refreshFault ).posts = m.posts := by simp [Mach.refreshFault]
@[simp] theorem Mach.refreshFault_queues (m : Mach)  : (m.refreshFault ).queues = m.queues := by simp [Mach.refreshFault]
@[simp] theorem Mach.refreshFault_qevents (m : Mach)  : (m.refreshFault ).qevents = m.qevents := by simp [Mach.refreshFault]
@[simp] theorem Mach.refreshFault_stages (m : Mach)  : (m.refreshFault ).stages = m.stages := by simp [Mach.refreshFault]
@[simp] theorem Mach.refreshFault_behind (m : Mach)  : (m.refreshFault ).behind = m.behind := by simp [Mach.refreshFault]
@[simp] theorem Mach.refreshFault_groups (m : Mach)  : (m.refreshFault ).groups = m.groups := by simp [Mach.refreshFault]
@[simp] theorem Mach.refreshFault_wins (m : Mach)  : (m.refreshFault ).wins = m.wins := by simp [Mach.refreshFault]
@[simp] theorem Mach.refreshFault_slices (m : Mach)  : (m.refreshFault ).slices = m.slices := by simp [Mach.refreshFault]
@[simp] theorem Mach.refreshFault_timers (m : Mach)  : (m.refreshFault ).timers = m.timers := by simp [Mach.refreshFault]
@[simp] theorem Mach.refreshFault_banks (m : Mach)  : (m.refreshFault ).banks = m.banks := by simp [Mach.refreshFault]
@[simp] theorem Mach.refreshFault_slots (m : Mach)  : (m.refreshFault ).slots = m.slots := by simp [Mach.refreshFault]
@[simp] theorem Mach.refreshFault_cells (m : Mach)  : (m.refreshFault ).cells = m.cells := by simp [Mach.refreshFault]
@[simp] theorem Mach.refreshFault_cmps (m : Mach)  : (m.refreshFault ).cmps = m.cmps := by simp [Mach.refreshFault]
@[simp] theorem Mach.refreshFault_ports (m : Mach)  : (m.refreshFault ).ports = m.ports := by simp [Mach.refreshFault]
@[simp] theorem Mach.refreshFault_eths (m : Mach)  : (m.refreshFault ).eths = m.eths := by simp [Mach.refreshFault]
@[simp] theorem Mach.refreshFault_tecs (m : Mach)  : (m.refreshFault ).tecs = m.tecs := by simp [Mach.refreshFault]
@[simp] theorem Mach.refreshFault_des (m : Mach)  : (m.refreshFault ).des = m.des := by simp [Mach.refreshFault]
@[simp] theorem Mach.refreshFault_viss (m : Mach)  : (m.refreshFault ).viss = m.viss := by simp [Mach.refreshFault]
@[simp] theorem Mach.refreshFault_stos (m : Mach)  : (m.refreshFault ).stos = m.stos := by simp [Mach.refreshFault]
@[simp] theorem Mach.refreshFault_sent (m : Mach)  : (m.refreshFault ).sent = m.sent := by simp [Mach.refreshFault]
@[simp] theorem Mach.refreshFault_tunnel (m : Mach)  : (m.refreshFault ).tunnel = m.tunnel := by simp [Mach.refreshFault]
@[simp] theorem Mach.refreshFault_wds (m : Mach)  : (m.refreshFault ).wds = m.wds := by simp [Mach.refreshFault]
@[simp] theorem Mach.refreshFault_sup (m : Mach)  : (m.refreshFault ).sup = m.sup := by simp [Mach.refreshFault]
@[simp] theorem Mach.refreshFault_reeds (m : Mach)  : (m.refreshFault ).reeds = m.reeds := by simp [Mach.refreshFault]
@[simp] theorem Mach.refreshFault_pairs (m : Mach)  : (m.refreshFault ).pairs = m.pairs := by simp [Mach.refreshFault]
@[simp] theorem Mach.refreshFault_secure (m : Mach)  : (m.refreshFault ).secure = m.secure := by simp [Mach.refreshFault]
@[simp] theorem Mach.refreshFault_power (m : Mach)  : (m.refreshFault ).power = m.power := by simp [Mach.refreshFault]
@[simp] theorem Mach.refreshFault_dbg (m : Mach)  : (m.refreshFault ).dbg = m.dbg := by simp [Mach.refreshFault]
@[simp] theorem Mach.refreshFault_tap (m : Mach)  : (m.refreshFault ).tap = m.tap := by simp [Mach.refreshFault]
@[simp] theorem Mach.refreshFault_ret (m : Mach)  : (m.refreshFault ).ret = m.ret := by simp [Mach.refreshFault]

@[simp] theorem Mach.setFault_now (m : Mach) (f : Fld) : (m.setFault f).now = m.now := by simp [Mach.setFault]
@[simp] theorem Mach.setFault_fresh (m : Mach) (f : Fld) : (m.setFault f).fresh = m.fresh := by simp [Mach.setFault]
@[simp] theorem Mach.setFault_held (m : Mach) (f : Fld) : (m.setFault f).held = m.held := by simp [Mach.setFault]
@[simp] theorem Mach.setFault_shadow (m : Mach) (f : Fld) : (m.setFault f).shadow = m.shadow := by simp [Mach.setFault]
@[simp] theorem Mach.setFault_resp (m : Mach) (f : Fld) : (m.setFault f).resp = m.resp := by simp [Mach.setFault]
@[simp] theorem Mach.setFault_mem (m : Mach) (f : Fld) : (m.setFault f).mem = m.mem := by simp [Mach.setFault]
@[simp] theorem Mach.setFault_ecc (m : Mach) (f : Fld) : (m.setFault f).ecc = m.ecc := by simp [Mach.setFault]
@[simp] theorem Mach.setFault_flash (m : Mach) (f : Fld) : (m.setFault f).flash = m.flash := by simp [Mach.setFault]
@[simp] theorem Mach.setFault_host (m : Mach) (f : Fld) : (m.setFault f).host = m.host := by simp [Mach.setFault]
@[simp] theorem Mach.setFault_msix (m : Mach) (f : Fld) : (m.setFault f).msix = m.msix := by simp [Mach.setFault]
@[simp] theorem Mach.setFault_posts (m : Mach) (f : Fld) : (m.setFault f).posts = m.posts := by simp [Mach.setFault]
@[simp] theorem Mach.setFault_queues (m : Mach) (f : Fld) : (m.setFault f).queues = m.queues := by simp [Mach.setFault]
@[simp] theorem Mach.setFault_qevents (m : Mach) (f : Fld) : (m.setFault f).qevents = m.qevents := by simp [Mach.setFault]
@[simp] theorem Mach.setFault_stages (m : Mach) (f : Fld) : (m.setFault f).stages = m.stages := by simp [Mach.setFault]
@[simp] theorem Mach.setFault_behind (m : Mach) (f : Fld) : (m.setFault f).behind = m.behind := by simp [Mach.setFault]
@[simp] theorem Mach.setFault_groups (m : Mach) (f : Fld) : (m.setFault f).groups = m.groups := by simp [Mach.setFault]
@[simp] theorem Mach.setFault_wins (m : Mach) (f : Fld) : (m.setFault f).wins = m.wins := by simp [Mach.setFault]
@[simp] theorem Mach.setFault_slices (m : Mach) (f : Fld) : (m.setFault f).slices = m.slices := by simp [Mach.setFault]
@[simp] theorem Mach.setFault_timers (m : Mach) (f : Fld) : (m.setFault f).timers = m.timers := by simp [Mach.setFault]
@[simp] theorem Mach.setFault_banks (m : Mach) (f : Fld) : (m.setFault f).banks = m.banks := by simp [Mach.setFault]
@[simp] theorem Mach.setFault_slots (m : Mach) (f : Fld) : (m.setFault f).slots = m.slots := by simp [Mach.setFault]
@[simp] theorem Mach.setFault_cells (m : Mach) (f : Fld) : (m.setFault f).cells = m.cells := by simp [Mach.setFault]
@[simp] theorem Mach.setFault_cmps (m : Mach) (f : Fld) : (m.setFault f).cmps = m.cmps := by simp [Mach.setFault]
@[simp] theorem Mach.setFault_ports (m : Mach) (f : Fld) : (m.setFault f).ports = m.ports := by simp [Mach.setFault]
@[simp] theorem Mach.setFault_eths (m : Mach) (f : Fld) : (m.setFault f).eths = m.eths := by simp [Mach.setFault]
@[simp] theorem Mach.setFault_tecs (m : Mach) (f : Fld) : (m.setFault f).tecs = m.tecs := by simp [Mach.setFault]
@[simp] theorem Mach.setFault_des (m : Mach) (f : Fld) : (m.setFault f).des = m.des := by simp [Mach.setFault]
@[simp] theorem Mach.setFault_viss (m : Mach) (f : Fld) : (m.setFault f).viss = m.viss := by simp [Mach.setFault]
@[simp] theorem Mach.setFault_stos (m : Mach) (f : Fld) : (m.setFault f).stos = m.stos := by simp [Mach.setFault]
@[simp] theorem Mach.setFault_sent (m : Mach) (f : Fld) : (m.setFault f).sent = m.sent := by simp [Mach.setFault]
@[simp] theorem Mach.setFault_tunnel (m : Mach) (f : Fld) : (m.setFault f).tunnel = m.tunnel := by simp [Mach.setFault]
@[simp] theorem Mach.setFault_wds (m : Mach) (f : Fld) : (m.setFault f).wds = m.wds := by simp [Mach.setFault]
@[simp] theorem Mach.setFault_sup (m : Mach) (f : Fld) : (m.setFault f).sup = m.sup := by simp [Mach.setFault]
@[simp] theorem Mach.setFault_reeds (m : Mach) (f : Fld) : (m.setFault f).reeds = m.reeds := by simp [Mach.setFault]
@[simp] theorem Mach.setFault_pairs (m : Mach) (f : Fld) : (m.setFault f).pairs = m.pairs := by simp [Mach.setFault]
@[simp] theorem Mach.setFault_secure (m : Mach) (f : Fld) : (m.setFault f).secure = m.secure := by simp [Mach.setFault]
@[simp] theorem Mach.setFault_power (m : Mach) (f : Fld) : (m.setFault f).power = m.power := by simp [Mach.setFault]
@[simp] theorem Mach.setFault_dbg (m : Mach) (f : Fld) : (m.setFault f).dbg = m.dbg := by simp [Mach.setFault]
@[simp] theorem Mach.setFault_tap (m : Mach) (f : Fld) : (m.setFault f).tap = m.tap := by simp [Mach.setFault]
@[simp] theorem Mach.setFault_ret (m : Mach) (f : Fld) : (m.setFault f).ret = m.ret := by simp [Mach.setFault]

@[simp] theorem Mach.setStage_now (m : Mach) (x : Nat) (d : Stage) : (m.setStage x d).now = m.now := by simp [Mach.setStage]
@[simp] theorem Mach.setStage_fresh (m : Mach) (x : Nat) (d : Stage) : (m.setStage x d).fresh = m.fresh := by simp [Mach.setStage]
@[simp] theorem Mach.setStage_held (m : Mach) (x : Nat) (d : Stage) : (m.setStage x d).held = m.held := by simp [Mach.setStage]
@[simp] theorem Mach.setStage_shadow (m : Mach) (x : Nat) (d : Stage) : (m.setStage x d).shadow = m.shadow := by simp [Mach.setStage]
@[simp] theorem Mach.setStage_resp (m : Mach) (x : Nat) (d : Stage) : (m.setStage x d).resp = m.resp := by simp [Mach.setStage]
@[simp] theorem Mach.setStage_mem (m : Mach) (x : Nat) (d : Stage) : (m.setStage x d).mem = m.mem := by simp [Mach.setStage]
@[simp] theorem Mach.setStage_ecc (m : Mach) (x : Nat) (d : Stage) : (m.setStage x d).ecc = m.ecc := by simp [Mach.setStage]
@[simp] theorem Mach.setStage_flash (m : Mach) (x : Nat) (d : Stage) : (m.setStage x d).flash = m.flash := by simp [Mach.setStage]
@[simp] theorem Mach.setStage_host (m : Mach) (x : Nat) (d : Stage) : (m.setStage x d).host = m.host := by simp [Mach.setStage]
@[simp] theorem Mach.setStage_msix (m : Mach) (x : Nat) (d : Stage) : (m.setStage x d).msix = m.msix := by simp [Mach.setStage]
@[simp] theorem Mach.setStage_posts (m : Mach) (x : Nat) (d : Stage) : (m.setStage x d).posts = m.posts := by simp [Mach.setStage]
@[simp] theorem Mach.setStage_queues (m : Mach) (x : Nat) (d : Stage) : (m.setStage x d).queues = m.queues := by simp [Mach.setStage]
@[simp] theorem Mach.setStage_qevents (m : Mach) (x : Nat) (d : Stage) : (m.setStage x d).qevents = m.qevents := by simp [Mach.setStage]
@[simp] theorem Mach.setStage_behind (m : Mach) (x : Nat) (d : Stage) : (m.setStage x d).behind = m.behind := by simp [Mach.setStage]
@[simp] theorem Mach.setStage_groups (m : Mach) (x : Nat) (d : Stage) : (m.setStage x d).groups = m.groups := by simp [Mach.setStage]
@[simp] theorem Mach.setStage_wins (m : Mach) (x : Nat) (d : Stage) : (m.setStage x d).wins = m.wins := by simp [Mach.setStage]
@[simp] theorem Mach.setStage_slices (m : Mach) (x : Nat) (d : Stage) : (m.setStage x d).slices = m.slices := by simp [Mach.setStage]
@[simp] theorem Mach.setStage_timers (m : Mach) (x : Nat) (d : Stage) : (m.setStage x d).timers = m.timers := by simp [Mach.setStage]
@[simp] theorem Mach.setStage_banks (m : Mach) (x : Nat) (d : Stage) : (m.setStage x d).banks = m.banks := by simp [Mach.setStage]
@[simp] theorem Mach.setStage_slots (m : Mach) (x : Nat) (d : Stage) : (m.setStage x d).slots = m.slots := by simp [Mach.setStage]
@[simp] theorem Mach.setStage_cells (m : Mach) (x : Nat) (d : Stage) : (m.setStage x d).cells = m.cells := by simp [Mach.setStage]
@[simp] theorem Mach.setStage_cmps (m : Mach) (x : Nat) (d : Stage) : (m.setStage x d).cmps = m.cmps := by simp [Mach.setStage]
@[simp] theorem Mach.setStage_ports (m : Mach) (x : Nat) (d : Stage) : (m.setStage x d).ports = m.ports := by simp [Mach.setStage]
@[simp] theorem Mach.setStage_eths (m : Mach) (x : Nat) (d : Stage) : (m.setStage x d).eths = m.eths := by simp [Mach.setStage]
@[simp] theorem Mach.setStage_tecs (m : Mach) (x : Nat) (d : Stage) : (m.setStage x d).tecs = m.tecs := by simp [Mach.setStage]
@[simp] theorem Mach.setStage_des (m : Mach) (x : Nat) (d : Stage) : (m.setStage x d).des = m.des := by simp [Mach.setStage]
@[simp] theorem Mach.setStage_viss (m : Mach) (x : Nat) (d : Stage) : (m.setStage x d).viss = m.viss := by simp [Mach.setStage]
@[simp] theorem Mach.setStage_stos (m : Mach) (x : Nat) (d : Stage) : (m.setStage x d).stos = m.stos := by simp [Mach.setStage]
@[simp] theorem Mach.setStage_sent (m : Mach) (x : Nat) (d : Stage) : (m.setStage x d).sent = m.sent := by simp [Mach.setStage]
@[simp] theorem Mach.setStage_tunnel (m : Mach) (x : Nat) (d : Stage) : (m.setStage x d).tunnel = m.tunnel := by simp [Mach.setStage]
@[simp] theorem Mach.setStage_wds (m : Mach) (x : Nat) (d : Stage) : (m.setStage x d).wds = m.wds := by simp [Mach.setStage]
@[simp] theorem Mach.setStage_sup (m : Mach) (x : Nat) (d : Stage) : (m.setStage x d).sup = m.sup := by simp [Mach.setStage]
@[simp] theorem Mach.setStage_reeds (m : Mach) (x : Nat) (d : Stage) : (m.setStage x d).reeds = m.reeds := by simp [Mach.setStage]
@[simp] theorem Mach.setStage_pairs (m : Mach) (x : Nat) (d : Stage) : (m.setStage x d).pairs = m.pairs := by simp [Mach.setStage]
@[simp] theorem Mach.setStage_secure (m : Mach) (x : Nat) (d : Stage) : (m.setStage x d).secure = m.secure := by simp [Mach.setStage]
@[simp] theorem Mach.setStage_power (m : Mach) (x : Nat) (d : Stage) : (m.setStage x d).power = m.power := by simp [Mach.setStage]
@[simp] theorem Mach.setStage_dbg (m : Mach) (x : Nat) (d : Stage) : (m.setStage x d).dbg = m.dbg := by simp [Mach.setStage]
@[simp] theorem Mach.setStage_tap (m : Mach) (x : Nat) (d : Stage) : (m.setStage x d).tap = m.tap := by simp [Mach.setStage]
@[simp] theorem Mach.setStage_ret (m : Mach) (x : Nat) (d : Stage) : (m.setStage x d).ret = m.ret := by simp [Mach.setStage]

@[simp] theorem Mach.setQdyn_now (m : Mach) (q : Nat) (d : QDyn) : (m.setQdyn q d).now = m.now := by simp [Mach.setQdyn]
@[simp] theorem Mach.setQdyn_fresh (m : Mach) (q : Nat) (d : QDyn) : (m.setQdyn q d).fresh = m.fresh := by simp [Mach.setQdyn]
@[simp] theorem Mach.setQdyn_held (m : Mach) (q : Nat) (d : QDyn) : (m.setQdyn q d).held = m.held := by simp [Mach.setQdyn]
@[simp] theorem Mach.setQdyn_shadow (m : Mach) (q : Nat) (d : QDyn) : (m.setQdyn q d).shadow = m.shadow := by simp [Mach.setQdyn]
@[simp] theorem Mach.setQdyn_resp (m : Mach) (q : Nat) (d : QDyn) : (m.setQdyn q d).resp = m.resp := by simp [Mach.setQdyn]
@[simp] theorem Mach.setQdyn_mem (m : Mach) (q : Nat) (d : QDyn) : (m.setQdyn q d).mem = m.mem := by simp [Mach.setQdyn]
@[simp] theorem Mach.setQdyn_ecc (m : Mach) (q : Nat) (d : QDyn) : (m.setQdyn q d).ecc = m.ecc := by simp [Mach.setQdyn]
@[simp] theorem Mach.setQdyn_flash (m : Mach) (q : Nat) (d : QDyn) : (m.setQdyn q d).flash = m.flash := by simp [Mach.setQdyn]
@[simp] theorem Mach.setQdyn_host (m : Mach) (q : Nat) (d : QDyn) : (m.setQdyn q d).host = m.host := by simp [Mach.setQdyn]
@[simp] theorem Mach.setQdyn_msix (m : Mach) (q : Nat) (d : QDyn) : (m.setQdyn q d).msix = m.msix := by simp [Mach.setQdyn]
@[simp] theorem Mach.setQdyn_posts (m : Mach) (q : Nat) (d : QDyn) : (m.setQdyn q d).posts = m.posts := by simp [Mach.setQdyn]
@[simp] theorem Mach.setQdyn_qevents (m : Mach) (q : Nat) (d : QDyn) : (m.setQdyn q d).qevents = m.qevents := by simp [Mach.setQdyn]
@[simp] theorem Mach.setQdyn_stages (m : Mach) (q : Nat) (d : QDyn) : (m.setQdyn q d).stages = m.stages := by simp [Mach.setQdyn]
@[simp] theorem Mach.setQdyn_behind (m : Mach) (q : Nat) (d : QDyn) : (m.setQdyn q d).behind = m.behind := by simp [Mach.setQdyn]
@[simp] theorem Mach.setQdyn_groups (m : Mach) (q : Nat) (d : QDyn) : (m.setQdyn q d).groups = m.groups := by simp [Mach.setQdyn]
@[simp] theorem Mach.setQdyn_wins (m : Mach) (q : Nat) (d : QDyn) : (m.setQdyn q d).wins = m.wins := by simp [Mach.setQdyn]
@[simp] theorem Mach.setQdyn_slices (m : Mach) (q : Nat) (d : QDyn) : (m.setQdyn q d).slices = m.slices := by simp [Mach.setQdyn]
@[simp] theorem Mach.setQdyn_timers (m : Mach) (q : Nat) (d : QDyn) : (m.setQdyn q d).timers = m.timers := by simp [Mach.setQdyn]
@[simp] theorem Mach.setQdyn_banks (m : Mach) (q : Nat) (d : QDyn) : (m.setQdyn q d).banks = m.banks := by simp [Mach.setQdyn]
@[simp] theorem Mach.setQdyn_slots (m : Mach) (q : Nat) (d : QDyn) : (m.setQdyn q d).slots = m.slots := by simp [Mach.setQdyn]
@[simp] theorem Mach.setQdyn_cells (m : Mach) (q : Nat) (d : QDyn) : (m.setQdyn q d).cells = m.cells := by simp [Mach.setQdyn]
@[simp] theorem Mach.setQdyn_cmps (m : Mach) (q : Nat) (d : QDyn) : (m.setQdyn q d).cmps = m.cmps := by simp [Mach.setQdyn]
@[simp] theorem Mach.setQdyn_ports (m : Mach) (q : Nat) (d : QDyn) : (m.setQdyn q d).ports = m.ports := by simp [Mach.setQdyn]
@[simp] theorem Mach.setQdyn_eths (m : Mach) (q : Nat) (d : QDyn) : (m.setQdyn q d).eths = m.eths := by simp [Mach.setQdyn]
@[simp] theorem Mach.setQdyn_tecs (m : Mach) (q : Nat) (d : QDyn) : (m.setQdyn q d).tecs = m.tecs := by simp [Mach.setQdyn]
@[simp] theorem Mach.setQdyn_des (m : Mach) (q : Nat) (d : QDyn) : (m.setQdyn q d).des = m.des := by simp [Mach.setQdyn]
@[simp] theorem Mach.setQdyn_viss (m : Mach) (q : Nat) (d : QDyn) : (m.setQdyn q d).viss = m.viss := by simp [Mach.setQdyn]
@[simp] theorem Mach.setQdyn_stos (m : Mach) (q : Nat) (d : QDyn) : (m.setQdyn q d).stos = m.stos := by simp [Mach.setQdyn]
@[simp] theorem Mach.setQdyn_sent (m : Mach) (q : Nat) (d : QDyn) : (m.setQdyn q d).sent = m.sent := by simp [Mach.setQdyn]
@[simp] theorem Mach.setQdyn_tunnel (m : Mach) (q : Nat) (d : QDyn) : (m.setQdyn q d).tunnel = m.tunnel := by simp [Mach.setQdyn]
@[simp] theorem Mach.setQdyn_wds (m : Mach) (q : Nat) (d : QDyn) : (m.setQdyn q d).wds = m.wds := by simp [Mach.setQdyn]
@[simp] theorem Mach.setQdyn_sup (m : Mach) (q : Nat) (d : QDyn) : (m.setQdyn q d).sup = m.sup := by simp [Mach.setQdyn]
@[simp] theorem Mach.setQdyn_reeds (m : Mach) (q : Nat) (d : QDyn) : (m.setQdyn q d).reeds = m.reeds := by simp [Mach.setQdyn]
@[simp] theorem Mach.setQdyn_pairs (m : Mach) (q : Nat) (d : QDyn) : (m.setQdyn q d).pairs = m.pairs := by simp [Mach.setQdyn]
@[simp] theorem Mach.setQdyn_secure (m : Mach) (q : Nat) (d : QDyn) : (m.setQdyn q d).secure = m.secure := by simp [Mach.setQdyn]
@[simp] theorem Mach.setQdyn_power (m : Mach) (q : Nat) (d : QDyn) : (m.setQdyn q d).power = m.power := by simp [Mach.setQdyn]
@[simp] theorem Mach.setQdyn_dbg (m : Mach) (q : Nat) (d : QDyn) : (m.setQdyn q d).dbg = m.dbg := by simp [Mach.setQdyn]
@[simp] theorem Mach.setQdyn_tap (m : Mach) (q : Nat) (d : QDyn) : (m.setQdyn q d).tap = m.tap := by simp [Mach.setQdyn]
@[simp] theorem Mach.setQdyn_ret (m : Mach) (q : Nat) (d : QDyn) : (m.setQdyn q d).ret = m.ret := by simp [Mach.setQdyn]

@[simp] theorem Mach.postIf_now (m : Mach) (p : Bool) (q : Nat) (b : List Byte) (d : Option (Fld × Nat)) : (m.postIf p q b d).now = m.now := by
  unfold Mach.postIf; split <;> rfl
@[simp] theorem Mach.postIf_fresh (m : Mach) (p : Bool) (q : Nat) (b : List Byte) (d : Option (Fld × Nat)) : (m.postIf p q b d).fresh = m.fresh := by
  unfold Mach.postIf; split <;> rfl
@[simp] theorem Mach.postIf_held (m : Mach) (p : Bool) (q : Nat) (b : List Byte) (d : Option (Fld × Nat)) : (m.postIf p q b d).held = m.held := by
  unfold Mach.postIf; split <;> rfl
@[simp] theorem Mach.postIf_regs (m : Mach) (p : Bool) (q : Nat) (b : List Byte) (d : Option (Fld × Nat)) : (m.postIf p q b d).regs = m.regs := by
  unfold Mach.postIf; split <;> rfl
@[simp] theorem Mach.postIf_shadow (m : Mach) (p : Bool) (q : Nat) (b : List Byte) (d : Option (Fld × Nat)) : (m.postIf p q b d).shadow = m.shadow := by
  unfold Mach.postIf; split <;> rfl
@[simp] theorem Mach.postIf_resp (m : Mach) (p : Bool) (q : Nat) (b : List Byte) (d : Option (Fld × Nat)) : (m.postIf p q b d).resp = m.resp := by
  unfold Mach.postIf; split <;> rfl
@[simp] theorem Mach.postIf_mem (m : Mach) (p : Bool) (q : Nat) (b : List Byte) (d : Option (Fld × Nat)) : (m.postIf p q b d).mem = m.mem := by
  unfold Mach.postIf; split <;> rfl
@[simp] theorem Mach.postIf_ecc (m : Mach) (p : Bool) (q : Nat) (b : List Byte) (d : Option (Fld × Nat)) : (m.postIf p q b d).ecc = m.ecc := by
  unfold Mach.postIf; split <;> rfl
@[simp] theorem Mach.postIf_flash (m : Mach) (p : Bool) (q : Nat) (b : List Byte) (d : Option (Fld × Nat)) : (m.postIf p q b d).flash = m.flash := by
  unfold Mach.postIf; split <;> rfl
@[simp] theorem Mach.postIf_host (m : Mach) (p : Bool) (q : Nat) (b : List Byte) (d : Option (Fld × Nat)) : (m.postIf p q b d).host = m.host := by
  unfold Mach.postIf; split <;> rfl
@[simp] theorem Mach.postIf_msix (m : Mach) (p : Bool) (q : Nat) (b : List Byte) (d : Option (Fld × Nat)) : (m.postIf p q b d).msix = m.msix := by
  unfold Mach.postIf; split <;> rfl
@[simp] theorem Mach.postIf_queues (m : Mach) (p : Bool) (q : Nat) (b : List Byte) (d : Option (Fld × Nat)) : (m.postIf p q b d).queues = m.queues := by
  unfold Mach.postIf; split <;> rfl
@[simp] theorem Mach.postIf_qevents (m : Mach) (p : Bool) (q : Nat) (b : List Byte) (d : Option (Fld × Nat)) : (m.postIf p q b d).qevents = m.qevents := by
  unfold Mach.postIf; split <;> rfl
@[simp] theorem Mach.postIf_stages (m : Mach) (p : Bool) (q : Nat) (b : List Byte) (d : Option (Fld × Nat)) : (m.postIf p q b d).stages = m.stages := by
  unfold Mach.postIf; split <;> rfl
@[simp] theorem Mach.postIf_behind (m : Mach) (p : Bool) (q : Nat) (b : List Byte) (d : Option (Fld × Nat)) : (m.postIf p q b d).behind = m.behind := by
  unfold Mach.postIf; split <;> rfl
@[simp] theorem Mach.postIf_groups (m : Mach) (p : Bool) (q : Nat) (b : List Byte) (d : Option (Fld × Nat)) : (m.postIf p q b d).groups = m.groups := by
  unfold Mach.postIf; split <;> rfl
@[simp] theorem Mach.postIf_wins (m : Mach) (p : Bool) (q : Nat) (b : List Byte) (d : Option (Fld × Nat)) : (m.postIf p q b d).wins = m.wins := by
  unfold Mach.postIf; split <;> rfl
@[simp] theorem Mach.postIf_slices (m : Mach) (p : Bool) (q : Nat) (b : List Byte) (d : Option (Fld × Nat)) : (m.postIf p q b d).slices = m.slices := by
  unfold Mach.postIf; split <;> rfl
@[simp] theorem Mach.postIf_timers (m : Mach) (p : Bool) (q : Nat) (b : List Byte) (d : Option (Fld × Nat)) : (m.postIf p q b d).timers = m.timers := by
  unfold Mach.postIf; split <;> rfl
@[simp] theorem Mach.postIf_banks (m : Mach) (p : Bool) (q : Nat) (b : List Byte) (d : Option (Fld × Nat)) : (m.postIf p q b d).banks = m.banks := by
  unfold Mach.postIf; split <;> rfl
@[simp] theorem Mach.postIf_slots (m : Mach) (p : Bool) (q : Nat) (b : List Byte) (d : Option (Fld × Nat)) : (m.postIf p q b d).slots = m.slots := by
  unfold Mach.postIf; split <;> rfl
@[simp] theorem Mach.postIf_cells (m : Mach) (p : Bool) (q : Nat) (b : List Byte) (d : Option (Fld × Nat)) : (m.postIf p q b d).cells = m.cells := by
  unfold Mach.postIf; split <;> rfl
@[simp] theorem Mach.postIf_cmps (m : Mach) (p : Bool) (q : Nat) (b : List Byte) (d : Option (Fld × Nat)) : (m.postIf p q b d).cmps = m.cmps := by
  unfold Mach.postIf; split <;> rfl
@[simp] theorem Mach.postIf_ports (m : Mach) (p : Bool) (q : Nat) (b : List Byte) (d : Option (Fld × Nat)) : (m.postIf p q b d).ports = m.ports := by
  unfold Mach.postIf; split <;> rfl
@[simp] theorem Mach.postIf_eths (m : Mach) (p : Bool) (q : Nat) (b : List Byte) (d : Option (Fld × Nat)) : (m.postIf p q b d).eths = m.eths := by
  unfold Mach.postIf; split <;> rfl
@[simp] theorem Mach.postIf_tecs (m : Mach) (p : Bool) (q : Nat) (b : List Byte) (d : Option (Fld × Nat)) : (m.postIf p q b d).tecs = m.tecs := by
  unfold Mach.postIf; split <;> rfl
@[simp] theorem Mach.postIf_des (m : Mach) (p : Bool) (q : Nat) (b : List Byte) (d : Option (Fld × Nat)) : (m.postIf p q b d).des = m.des := by
  unfold Mach.postIf; split <;> rfl
@[simp] theorem Mach.postIf_viss (m : Mach) (p : Bool) (q : Nat) (b : List Byte) (d : Option (Fld × Nat)) : (m.postIf p q b d).viss = m.viss := by
  unfold Mach.postIf; split <;> rfl
@[simp] theorem Mach.postIf_stos (m : Mach) (p : Bool) (q : Nat) (b : List Byte) (d : Option (Fld × Nat)) : (m.postIf p q b d).stos = m.stos := by
  unfold Mach.postIf; split <;> rfl
@[simp] theorem Mach.postIf_sent (m : Mach) (p : Bool) (q : Nat) (b : List Byte) (d : Option (Fld × Nat)) : (m.postIf p q b d).sent = m.sent := by
  unfold Mach.postIf; split <;> rfl
@[simp] theorem Mach.postIf_tunnel (m : Mach) (p : Bool) (q : Nat) (b : List Byte) (d : Option (Fld × Nat)) : (m.postIf p q b d).tunnel = m.tunnel := by
  unfold Mach.postIf; split <;> rfl
@[simp] theorem Mach.postIf_wds (m : Mach) (p : Bool) (q : Nat) (b : List Byte) (d : Option (Fld × Nat)) : (m.postIf p q b d).wds = m.wds := by
  unfold Mach.postIf; split <;> rfl
@[simp] theorem Mach.postIf_sup (m : Mach) (p : Bool) (q : Nat) (b : List Byte) (d : Option (Fld × Nat)) : (m.postIf p q b d).sup = m.sup := by
  unfold Mach.postIf; split <;> rfl
@[simp] theorem Mach.postIf_reeds (m : Mach) (p : Bool) (q : Nat) (b : List Byte) (d : Option (Fld × Nat)) : (m.postIf p q b d).reeds = m.reeds := by
  unfold Mach.postIf; split <;> rfl
@[simp] theorem Mach.postIf_pairs (m : Mach) (p : Bool) (q : Nat) (b : List Byte) (d : Option (Fld × Nat)) : (m.postIf p q b d).pairs = m.pairs := by
  unfold Mach.postIf; split <;> rfl
@[simp] theorem Mach.postIf_secure (m : Mach) (p : Bool) (q : Nat) (b : List Byte) (d : Option (Fld × Nat)) : (m.postIf p q b d).secure = m.secure := by
  unfold Mach.postIf; split <;> rfl
@[simp] theorem Mach.postIf_power (m : Mach) (p : Bool) (q : Nat) (b : List Byte) (d : Option (Fld × Nat)) : (m.postIf p q b d).power = m.power := by
  unfold Mach.postIf; split <;> rfl
@[simp] theorem Mach.postIf_dbg (m : Mach) (p : Bool) (q : Nat) (b : List Byte) (d : Option (Fld × Nat)) : (m.postIf p q b d).dbg = m.dbg := by
  unfold Mach.postIf; split <;> rfl
@[simp] theorem Mach.postIf_tap (m : Mach) (p : Bool) (q : Nat) (b : List Byte) (d : Option (Fld × Nat)) : (m.postIf p q b d).tap = m.tap := by
  unfold Mach.postIf; split <;> rfl
@[simp] theorem Mach.postIf_ret (m : Mach) (p : Bool) (q : Nat) (b : List Byte) (d : Option (Fld × Nat)) : (m.postIf p q b d).ret = m.ret := by
  unfold Mach.postIf; split <;> rfl

@[simp] theorem Mach.writePlain_now (m : Mach) (a : Nat) (v : W32) : (m.writePlain a v).now = m.now := by
  unfold Mach.writePlain; split <;> rfl
@[simp] theorem Mach.writePlain_fresh (m : Mach) (a : Nat) (v : W32) : (m.writePlain a v).fresh = m.fresh := by
  unfold Mach.writePlain; split <;> rfl
@[simp] theorem Mach.writePlain_held (m : Mach) (a : Nat) (v : W32) : (m.writePlain a v).held = m.held := by
  unfold Mach.writePlain; split <;> rfl
@[simp] theorem Mach.writePlain_shadow (m : Mach) (a : Nat) (v : W32) : (m.writePlain a v).shadow = m.shadow := by
  unfold Mach.writePlain; split <;> rfl
@[simp] theorem Mach.writePlain_resp (m : Mach) (a : Nat) (v : W32) : (m.writePlain a v).resp = m.resp := by
  unfold Mach.writePlain; split <;> rfl
@[simp] theorem Mach.writePlain_mem (m : Mach) (a : Nat) (v : W32) : (m.writePlain a v).mem = m.mem := by
  unfold Mach.writePlain; split <;> rfl
@[simp] theorem Mach.writePlain_ecc (m : Mach) (a : Nat) (v : W32) : (m.writePlain a v).ecc = m.ecc := by
  unfold Mach.writePlain; split <;> rfl
@[simp] theorem Mach.writePlain_flash (m : Mach) (a : Nat) (v : W32) : (m.writePlain a v).flash = m.flash := by
  unfold Mach.writePlain; split <;> rfl
@[simp] theorem Mach.writePlain_host (m : Mach) (a : Nat) (v : W32) : (m.writePlain a v).host = m.host := by
  unfold Mach.writePlain; split <;> rfl
@[simp] theorem Mach.writePlain_msix (m : Mach) (a : Nat) (v : W32) : (m.writePlain a v).msix = m.msix := by
  unfold Mach.writePlain; split <;> rfl
@[simp] theorem Mach.writePlain_posts (m : Mach) (a : Nat) (v : W32) : (m.writePlain a v).posts = m.posts := by
  unfold Mach.writePlain; split <;> rfl
@[simp] theorem Mach.writePlain_queues (m : Mach) (a : Nat) (v : W32) : (m.writePlain a v).queues = m.queues := by
  unfold Mach.writePlain; split <;> rfl
@[simp] theorem Mach.writePlain_qevents (m : Mach) (a : Nat) (v : W32) : (m.writePlain a v).qevents = m.qevents := by
  unfold Mach.writePlain; split <;> rfl
@[simp] theorem Mach.writePlain_stages (m : Mach) (a : Nat) (v : W32) : (m.writePlain a v).stages = m.stages := by
  unfold Mach.writePlain; split <;> rfl
@[simp] theorem Mach.writePlain_behind (m : Mach) (a : Nat) (v : W32) : (m.writePlain a v).behind = m.behind := by
  unfold Mach.writePlain; split <;> rfl
@[simp] theorem Mach.writePlain_groups (m : Mach) (a : Nat) (v : W32) : (m.writePlain a v).groups = m.groups := by
  unfold Mach.writePlain; split <;> rfl
@[simp] theorem Mach.writePlain_wins (m : Mach) (a : Nat) (v : W32) : (m.writePlain a v).wins = m.wins := by
  unfold Mach.writePlain; split <;> rfl
@[simp] theorem Mach.writePlain_slices (m : Mach) (a : Nat) (v : W32) : (m.writePlain a v).slices = m.slices := by
  unfold Mach.writePlain; split <;> rfl
@[simp] theorem Mach.writePlain_timers (m : Mach) (a : Nat) (v : W32) : (m.writePlain a v).timers = m.timers := by
  unfold Mach.writePlain; split <;> rfl
@[simp] theorem Mach.writePlain_banks (m : Mach) (a : Nat) (v : W32) : (m.writePlain a v).banks = m.banks := by
  unfold Mach.writePlain; split <;> rfl
@[simp] theorem Mach.writePlain_slots (m : Mach) (a : Nat) (v : W32) : (m.writePlain a v).slots = m.slots := by
  unfold Mach.writePlain; split <;> rfl
@[simp] theorem Mach.writePlain_cells (m : Mach) (a : Nat) (v : W32) : (m.writePlain a v).cells = m.cells := by
  unfold Mach.writePlain; split <;> rfl
@[simp] theorem Mach.writePlain_cmps (m : Mach) (a : Nat) (v : W32) : (m.writePlain a v).cmps = m.cmps := by
  unfold Mach.writePlain; split <;> rfl
@[simp] theorem Mach.writePlain_ports (m : Mach) (a : Nat) (v : W32) : (m.writePlain a v).ports = m.ports := by
  unfold Mach.writePlain; split <;> rfl
@[simp] theorem Mach.writePlain_eths (m : Mach) (a : Nat) (v : W32) : (m.writePlain a v).eths = m.eths := by
  unfold Mach.writePlain; split <;> rfl
@[simp] theorem Mach.writePlain_tecs (m : Mach) (a : Nat) (v : W32) : (m.writePlain a v).tecs = m.tecs := by
  unfold Mach.writePlain; split <;> rfl
@[simp] theorem Mach.writePlain_des (m : Mach) (a : Nat) (v : W32) : (m.writePlain a v).des = m.des := by
  unfold Mach.writePlain; split <;> rfl
@[simp] theorem Mach.writePlain_viss (m : Mach) (a : Nat) (v : W32) : (m.writePlain a v).viss = m.viss := by
  unfold Mach.writePlain; split <;> rfl
@[simp] theorem Mach.writePlain_stos (m : Mach) (a : Nat) (v : W32) : (m.writePlain a v).stos = m.stos := by
  unfold Mach.writePlain; split <;> rfl
@[simp] theorem Mach.writePlain_sent (m : Mach) (a : Nat) (v : W32) : (m.writePlain a v).sent = m.sent := by
  unfold Mach.writePlain; split <;> rfl
@[simp] theorem Mach.writePlain_tunnel (m : Mach) (a : Nat) (v : W32) : (m.writePlain a v).tunnel = m.tunnel := by
  unfold Mach.writePlain; split <;> rfl
@[simp] theorem Mach.writePlain_wds (m : Mach) (a : Nat) (v : W32) : (m.writePlain a v).wds = m.wds := by
  unfold Mach.writePlain; split <;> rfl
@[simp] theorem Mach.writePlain_sup (m : Mach) (a : Nat) (v : W32) : (m.writePlain a v).sup = m.sup := by
  unfold Mach.writePlain; split <;> rfl
@[simp] theorem Mach.writePlain_reeds (m : Mach) (a : Nat) (v : W32) : (m.writePlain a v).reeds = m.reeds := by
  unfold Mach.writePlain; split <;> rfl
@[simp] theorem Mach.writePlain_pairs (m : Mach) (a : Nat) (v : W32) : (m.writePlain a v).pairs = m.pairs := by
  unfold Mach.writePlain; split <;> rfl
@[simp] theorem Mach.writePlain_secure (m : Mach) (a : Nat) (v : W32) : (m.writePlain a v).secure = m.secure := by
  unfold Mach.writePlain; split <;> rfl
@[simp] theorem Mach.writePlain_power (m : Mach) (a : Nat) (v : W32) : (m.writePlain a v).power = m.power := by
  unfold Mach.writePlain; split <;> rfl
@[simp] theorem Mach.writePlain_dbg (m : Mach) (a : Nat) (v : W32) : (m.writePlain a v).dbg = m.dbg := by
  unfold Mach.writePlain; split <;> rfl
@[simp] theorem Mach.writePlain_tap (m : Mach) (a : Nat) (v : W32) : (m.writePlain a v).tap = m.tap := by
  unfold Mach.writePlain; split <;> rfl
@[simp] theorem Mach.writePlain_ret (m : Mach) (a : Nat) (v : W32) : (m.writePlain a v).ret = m.ret := by
  unfold Mach.writePlain; split <;> rfl

@[simp] theorem Mach.clearRc_now (m : Mach) (a : Nat) : (m.clearRc a).now = m.now := by
  unfold Mach.clearRc
  split
  · split <;> rfl
  · rfl
@[simp] theorem Mach.clearRc_fresh (m : Mach) (a : Nat) : (m.clearRc a).fresh = m.fresh := by
  unfold Mach.clearRc
  split
  · split <;> rfl
  · rfl
@[simp] theorem Mach.clearRc_held (m : Mach) (a : Nat) : (m.clearRc a).held = m.held := by
  unfold Mach.clearRc
  split
  · split <;> rfl
  · rfl
@[simp] theorem Mach.clearRc_shadow (m : Mach) (a : Nat) : (m.clearRc a).shadow = m.shadow := by
  unfold Mach.clearRc
  split
  · split <;> rfl
  · rfl
@[simp] theorem Mach.clearRc_resp (m : Mach) (a : Nat) : (m.clearRc a).resp = m.resp := by
  unfold Mach.clearRc
  split
  · split <;> rfl
  · rfl
@[simp] theorem Mach.clearRc_mem (m : Mach) (a : Nat) : (m.clearRc a).mem = m.mem := by
  unfold Mach.clearRc
  split
  · split <;> rfl
  · rfl
@[simp] theorem Mach.clearRc_ecc (m : Mach) (a : Nat) : (m.clearRc a).ecc = m.ecc := by
  unfold Mach.clearRc
  split
  · split <;> rfl
  · rfl
@[simp] theorem Mach.clearRc_flash (m : Mach) (a : Nat) : (m.clearRc a).flash = m.flash := by
  unfold Mach.clearRc
  split
  · split <;> rfl
  · rfl
@[simp] theorem Mach.clearRc_host (m : Mach) (a : Nat) : (m.clearRc a).host = m.host := by
  unfold Mach.clearRc
  split
  · split <;> rfl
  · rfl
@[simp] theorem Mach.clearRc_msix (m : Mach) (a : Nat) : (m.clearRc a).msix = m.msix := by
  unfold Mach.clearRc
  split
  · split <;> rfl
  · rfl
@[simp] theorem Mach.clearRc_posts (m : Mach) (a : Nat) : (m.clearRc a).posts = m.posts := by
  unfold Mach.clearRc
  split
  · split <;> rfl
  · rfl
@[simp] theorem Mach.clearRc_queues (m : Mach) (a : Nat) : (m.clearRc a).queues = m.queues := by
  unfold Mach.clearRc
  split
  · split <;> rfl
  · rfl
@[simp] theorem Mach.clearRc_qevents (m : Mach) (a : Nat) : (m.clearRc a).qevents = m.qevents := by
  unfold Mach.clearRc
  split
  · split <;> rfl
  · rfl
@[simp] theorem Mach.clearRc_stages (m : Mach) (a : Nat) : (m.clearRc a).stages = m.stages := by
  unfold Mach.clearRc
  split
  · split <;> rfl
  · rfl
@[simp] theorem Mach.clearRc_behind (m : Mach) (a : Nat) : (m.clearRc a).behind = m.behind := by
  unfold Mach.clearRc
  split
  · split <;> rfl
  · rfl
@[simp] theorem Mach.clearRc_groups (m : Mach) (a : Nat) : (m.clearRc a).groups = m.groups := by
  unfold Mach.clearRc
  split
  · split <;> rfl
  · rfl
@[simp] theorem Mach.clearRc_wins (m : Mach) (a : Nat) : (m.clearRc a).wins = m.wins := by
  unfold Mach.clearRc
  split
  · split <;> rfl
  · rfl
@[simp] theorem Mach.clearRc_slices (m : Mach) (a : Nat) : (m.clearRc a).slices = m.slices := by
  unfold Mach.clearRc
  split
  · split <;> rfl
  · rfl
@[simp] theorem Mach.clearRc_timers (m : Mach) (a : Nat) : (m.clearRc a).timers = m.timers := by
  unfold Mach.clearRc
  split
  · split <;> rfl
  · rfl
@[simp] theorem Mach.clearRc_banks (m : Mach) (a : Nat) : (m.clearRc a).banks = m.banks := by
  unfold Mach.clearRc
  split
  · split <;> rfl
  · rfl
@[simp] theorem Mach.clearRc_slots (m : Mach) (a : Nat) : (m.clearRc a).slots = m.slots := by
  unfold Mach.clearRc
  split
  · split <;> rfl
  · rfl
@[simp] theorem Mach.clearRc_cells (m : Mach) (a : Nat) : (m.clearRc a).cells = m.cells := by
  unfold Mach.clearRc
  split
  · split <;> rfl
  · rfl
@[simp] theorem Mach.clearRc_cmps (m : Mach) (a : Nat) : (m.clearRc a).cmps = m.cmps := by
  unfold Mach.clearRc
  split
  · split <;> rfl
  · rfl
@[simp] theorem Mach.clearRc_ports (m : Mach) (a : Nat) : (m.clearRc a).ports = m.ports := by
  unfold Mach.clearRc
  split
  · split <;> rfl
  · rfl
@[simp] theorem Mach.clearRc_eths (m : Mach) (a : Nat) : (m.clearRc a).eths = m.eths := by
  unfold Mach.clearRc
  split
  · split <;> rfl
  · rfl
@[simp] theorem Mach.clearRc_tecs (m : Mach) (a : Nat) : (m.clearRc a).tecs = m.tecs := by
  unfold Mach.clearRc
  split
  · split <;> rfl
  · rfl
@[simp] theorem Mach.clearRc_des (m : Mach) (a : Nat) : (m.clearRc a).des = m.des := by
  unfold Mach.clearRc
  split
  · split <;> rfl
  · rfl
@[simp] theorem Mach.clearRc_viss (m : Mach) (a : Nat) : (m.clearRc a).viss = m.viss := by
  unfold Mach.clearRc
  split
  · split <;> rfl
  · rfl
@[simp] theorem Mach.clearRc_stos (m : Mach) (a : Nat) : (m.clearRc a).stos = m.stos := by
  unfold Mach.clearRc
  split
  · split <;> rfl
  · rfl
@[simp] theorem Mach.clearRc_sent (m : Mach) (a : Nat) : (m.clearRc a).sent = m.sent := by
  unfold Mach.clearRc
  split
  · split <;> rfl
  · rfl
@[simp] theorem Mach.clearRc_tunnel (m : Mach) (a : Nat) : (m.clearRc a).tunnel = m.tunnel := by
  unfold Mach.clearRc
  split
  · split <;> rfl
  · rfl
@[simp] theorem Mach.clearRc_wds (m : Mach) (a : Nat) : (m.clearRc a).wds = m.wds := by
  unfold Mach.clearRc
  split
  · split <;> rfl
  · rfl
@[simp] theorem Mach.clearRc_sup (m : Mach) (a : Nat) : (m.clearRc a).sup = m.sup := by
  unfold Mach.clearRc
  split
  · split <;> rfl
  · rfl
@[simp] theorem Mach.clearRc_reeds (m : Mach) (a : Nat) : (m.clearRc a).reeds = m.reeds := by
  unfold Mach.clearRc
  split
  · split <;> rfl
  · rfl
@[simp] theorem Mach.clearRc_pairs (m : Mach) (a : Nat) : (m.clearRc a).pairs = m.pairs := by
  unfold Mach.clearRc
  split
  · split <;> rfl
  · rfl
@[simp] theorem Mach.clearRc_secure (m : Mach) (a : Nat) : (m.clearRc a).secure = m.secure := by
  unfold Mach.clearRc
  split
  · split <;> rfl
  · rfl
@[simp] theorem Mach.clearRc_power (m : Mach) (a : Nat) : (m.clearRc a).power = m.power := by
  unfold Mach.clearRc
  split
  · split <;> rfl
  · rfl
@[simp] theorem Mach.clearRc_dbg (m : Mach) (a : Nat) : (m.clearRc a).dbg = m.dbg := by
  unfold Mach.clearRc
  split
  · split <;> rfl
  · rfl
@[simp] theorem Mach.clearRc_tap (m : Mach) (a : Nat) : (m.clearRc a).tap = m.tap := by
  unfold Mach.clearRc
  split
  · split <;> rfl
  · rfl
@[simp] theorem Mach.clearRc_ret (m : Mach) (a : Nat) : (m.clearRc a).ret = m.ret := by
  unfold Mach.clearRc
  split
  · split <;> rfl
  · rfl

@[simp] theorem Mach.tell_now (m : Mach) (kind i v : Nat) (t : Stamp) : (m.tell kind i v t).now = m.now := by
  unfold Mach.tell; split <;> rfl
@[simp] theorem Mach.tell_fresh (m : Mach) (kind i v : Nat) (t : Stamp) : (m.tell kind i v t).fresh = m.fresh := by
  unfold Mach.tell; split <;> rfl
@[simp] theorem Mach.tell_held (m : Mach) (kind i v : Nat) (t : Stamp) : (m.tell kind i v t).held = m.held := by
  unfold Mach.tell; split <;> rfl
@[simp] theorem Mach.tell_regs (m : Mach) (kind i v : Nat) (t : Stamp) : (m.tell kind i v t).regs = m.regs := by
  unfold Mach.tell; split <;> rfl
@[simp] theorem Mach.tell_shadow (m : Mach) (kind i v : Nat) (t : Stamp) : (m.tell kind i v t).shadow = m.shadow := by
  unfold Mach.tell; split <;> rfl
@[simp] theorem Mach.tell_resp (m : Mach) (kind i v : Nat) (t : Stamp) : (m.tell kind i v t).resp = m.resp := by
  unfold Mach.tell; split <;> rfl
@[simp] theorem Mach.tell_mem (m : Mach) (kind i v : Nat) (t : Stamp) : (m.tell kind i v t).mem = m.mem := by
  unfold Mach.tell; split <;> rfl
@[simp] theorem Mach.tell_ecc (m : Mach) (kind i v : Nat) (t : Stamp) : (m.tell kind i v t).ecc = m.ecc := by
  unfold Mach.tell; split <;> rfl
@[simp] theorem Mach.tell_flash (m : Mach) (kind i v : Nat) (t : Stamp) : (m.tell kind i v t).flash = m.flash := by
  unfold Mach.tell; split <;> rfl
@[simp] theorem Mach.tell_host (m : Mach) (kind i v : Nat) (t : Stamp) : (m.tell kind i v t).host = m.host := by
  unfold Mach.tell; split <;> rfl
@[simp] theorem Mach.tell_msix (m : Mach) (kind i v : Nat) (t : Stamp) : (m.tell kind i v t).msix = m.msix := by
  unfold Mach.tell; split <;> rfl
@[simp] theorem Mach.tell_posts (m : Mach) (kind i v : Nat) (t : Stamp) : (m.tell kind i v t).posts = m.posts := by
  unfold Mach.tell; split <;> rfl
@[simp] theorem Mach.tell_queues (m : Mach) (kind i v : Nat) (t : Stamp) : (m.tell kind i v t).queues = m.queues := by
  unfold Mach.tell; split <;> rfl
@[simp] theorem Mach.tell_qevents (m : Mach) (kind i v : Nat) (t : Stamp) : (m.tell kind i v t).qevents = m.qevents := by
  unfold Mach.tell; split <;> rfl
@[simp] theorem Mach.tell_stages (m : Mach) (kind i v : Nat) (t : Stamp) : (m.tell kind i v t).stages = m.stages := by
  unfold Mach.tell; split <;> rfl
@[simp] theorem Mach.tell_behind (m : Mach) (kind i v : Nat) (t : Stamp) : (m.tell kind i v t).behind = m.behind := by
  unfold Mach.tell; split <;> rfl
@[simp] theorem Mach.tell_groups (m : Mach) (kind i v : Nat) (t : Stamp) : (m.tell kind i v t).groups = m.groups := by
  unfold Mach.tell; split <;> rfl
@[simp] theorem Mach.tell_wins (m : Mach) (kind i v : Nat) (t : Stamp) : (m.tell kind i v t).wins = m.wins := by
  unfold Mach.tell; split <;> rfl
@[simp] theorem Mach.tell_slices (m : Mach) (kind i v : Nat) (t : Stamp) : (m.tell kind i v t).slices = m.slices := by
  unfold Mach.tell; split <;> rfl
@[simp] theorem Mach.tell_timers (m : Mach) (kind i v : Nat) (t : Stamp) : (m.tell kind i v t).timers = m.timers := by
  unfold Mach.tell; split <;> rfl
@[simp] theorem Mach.tell_banks (m : Mach) (kind i v : Nat) (t : Stamp) : (m.tell kind i v t).banks = m.banks := by
  unfold Mach.tell; split <;> rfl
@[simp] theorem Mach.tell_slots (m : Mach) (kind i v : Nat) (t : Stamp) : (m.tell kind i v t).slots = m.slots := by
  unfold Mach.tell; split <;> rfl
@[simp] theorem Mach.tell_cells (m : Mach) (kind i v : Nat) (t : Stamp) : (m.tell kind i v t).cells = m.cells := by
  unfold Mach.tell; split <;> rfl
@[simp] theorem Mach.tell_cmps (m : Mach) (kind i v : Nat) (t : Stamp) : (m.tell kind i v t).cmps = m.cmps := by
  unfold Mach.tell; split <;> rfl
@[simp] theorem Mach.tell_ports (m : Mach) (kind i v : Nat) (t : Stamp) : (m.tell kind i v t).ports = m.ports := by
  unfold Mach.tell; split <;> rfl
@[simp] theorem Mach.tell_eths (m : Mach) (kind i v : Nat) (t : Stamp) : (m.tell kind i v t).eths = m.eths := by
  unfold Mach.tell; split <;> rfl
@[simp] theorem Mach.tell_tecs (m : Mach) (kind i v : Nat) (t : Stamp) : (m.tell kind i v t).tecs = m.tecs := by
  unfold Mach.tell; split <;> rfl
@[simp] theorem Mach.tell_des (m : Mach) (kind i v : Nat) (t : Stamp) : (m.tell kind i v t).des = m.des := by
  unfold Mach.tell; split <;> rfl
@[simp] theorem Mach.tell_viss (m : Mach) (kind i v : Nat) (t : Stamp) : (m.tell kind i v t).viss = m.viss := by
  unfold Mach.tell; split <;> rfl
@[simp] theorem Mach.tell_stos (m : Mach) (kind i v : Nat) (t : Stamp) : (m.tell kind i v t).stos = m.stos := by
  unfold Mach.tell; split <;> rfl
@[simp] theorem Mach.tell_sent (m : Mach) (kind i v : Nat) (t : Stamp) : (m.tell kind i v t).sent = m.sent := by
  unfold Mach.tell; split <;> rfl
@[simp] theorem Mach.tell_tunnel (m : Mach) (kind i v : Nat) (t : Stamp) : (m.tell kind i v t).tunnel = m.tunnel := by
  unfold Mach.tell; split <;> rfl
@[simp] theorem Mach.tell_wds (m : Mach) (kind i v : Nat) (t : Stamp) : (m.tell kind i v t).wds = m.wds := by
  unfold Mach.tell; split <;> rfl
@[simp] theorem Mach.tell_sup (m : Mach) (kind i v : Nat) (t : Stamp) : (m.tell kind i v t).sup = m.sup := by
  unfold Mach.tell; split <;> rfl
@[simp] theorem Mach.tell_reeds (m : Mach) (kind i v : Nat) (t : Stamp) : (m.tell kind i v t).reeds = m.reeds := by
  unfold Mach.tell; split <;> rfl
@[simp] theorem Mach.tell_pairs (m : Mach) (kind i v : Nat) (t : Stamp) : (m.tell kind i v t).pairs = m.pairs := by
  unfold Mach.tell; split <;> rfl
@[simp] theorem Mach.tell_secure (m : Mach) (kind i v : Nat) (t : Stamp) : (m.tell kind i v t).secure = m.secure := by
  unfold Mach.tell; split <;> rfl
@[simp] theorem Mach.tell_power (m : Mach) (kind i v : Nat) (t : Stamp) : (m.tell kind i v t).power = m.power := by
  unfold Mach.tell; split <;> rfl
@[simp] theorem Mach.tell_dbg (m : Mach) (kind i v : Nat) (t : Stamp) : (m.tell kind i v t).dbg = m.dbg := by
  unfold Mach.tell; split <;> rfl
@[simp] theorem Mach.tell_ret (m : Mach) (kind i v : Nat) (t : Stamp) : (m.tell kind i v t).ret = m.ret := by
  unfold Mach.tell; split <;> rfl

end Sys2Proof.Machine
end

