-- ==== Sys2Proof/Laws/Store.lean ====
section
/-! SUPPORT. What a read gives after each operation on keyed storage, and that each of them keeps the canonical form. -/

namespace Sys2Proof.Machine

variable {α : Type}

/-! ### Reads after an operation -/

@[simp] theorem SMap.get_nil (d : Nat → α) (k : Nat) : SMap.get d [] k = d k := rfl

@[simp] theorem SMap.get_drop_self (d : Nat → α) (m : SMap α) (k : Nat) : SMap.get d (SMap.drop m k) k = d k := by
  induction m with
  | nil => rfl
  | cons e m ih =>
    obtain ⟨k', v⟩ := e
    by_cases h : k = k' <;> simp [SMap.drop, SMap.get, h]
    · subst h; exact ih
    · exact ih

theorem SMap.get_drop_ne (d : Nat → α) (m : SMap α) {k j : Nat} (h : j ≠ k) : SMap.get d (SMap.drop m k) j = SMap.get d m j := by
  induction m with
  | nil => rfl
  | cons e m ih =>
    obtain ⟨k', v⟩ := e
    by_cases hk : k = k'
    · subst hk; simp [SMap.drop, SMap.get, h, ih]
    · by_cases hj : j = k' <;> simp [SMap.drop, SMap.get, hk, hj]
      exact ih

@[simp] theorem SMap.get_put_self (d : Nat → α) (m : SMap α) (k : Nat) (v : α) : SMap.get d (SMap.put m k v) k = v := by
  induction m with
  | nil => simp [SMap.put, SMap.get]
  | cons e m ih =>
    obtain ⟨k', v'⟩ := e
    by_cases h1 : k < k'
    · simp [SMap.put, SMap.get, h1]
    · by_cases h2 : k = k'
      · simp [SMap.put, SMap.get, h2]
      · simp [SMap.put, SMap.get, h1, h2, ih]

theorem SMap.get_put_ne (d : Nat → α) (m : SMap α) {k j : Nat} (v : α) (h : j ≠ k) :
    SMap.get d (SMap.put m k v) j = SMap.get d m j := by
  induction m with
  | nil => simp [SMap.put, SMap.get, h]
  | cons e m ih =>
    obtain ⟨k', v'⟩ := e
    by_cases h1 : k < k'
    · simp [SMap.put, SMap.get, h1, h]
    · by_cases h2 : k = k'
      · subst h2; simp [SMap.put, SMap.get, h]
      · simp [SMap.put, SMap.get, h1, h2, ih]

variable [DecidableEq α]

@[simp] theorem SMap.get_set_self (d : Nat → α) (m : SMap α) (k : Nat) (v : α) : SMap.get d (SMap.set d m k v) k = v := by
  unfold SMap.set
  split
  · next h => simp [h]
  · simp

theorem SMap.get_set_ne (d : Nat → α) (m : SMap α) {k j : Nat} (v : α) (h : j ≠ k) :
    SMap.get d (SMap.set d m k v) j = SMap.get d m j := by
  unfold SMap.set
  split
  · exact SMap.get_drop_ne d m h
  · exact SMap.get_put_ne d m v h

theorem SMap.get_set (d : Nat → α) (m : SMap α) (k j : Nat) (v : α) :
    SMap.get d (SMap.set d m k v) j = if j = k then v else SMap.get d m j := by
  by_cases h : j = k
  · subst h; simp
  · simp [h, SMap.get_set_ne]

omit [DecidableEq α] in
@[simp] theorem SMap.getRange_length (d : Nat → α) (m : SMap α) (k n : Nat) : (SMap.getRange d m k n).length = n := by
  induction n generalizing k with
  | zero => rfl
  | succ n ih => simp [SMap.getRange, ih]

/-- A key outside the range written reads as before. -/
theorem SMap.get_setRange_out (d : Nat → α) (m : SMap α) (k j : Nat) (vs : List α) (h : j < k ∨ k + vs.length ≤ j) :
    SMap.get d (SMap.setRange d m k vs) j = SMap.get d m j := by
  induction vs generalizing m k with
  | nil => rfl
  | cons v vs ih =>
    simp only [SMap.setRange, List.length_cons] at h ⊢
    rw [ih _ _ (by omega), SMap.get_set_ne _ _ _ (by omega)]

/-- A key inside the range reads as written. -/
theorem SMap.get_setRange_in (d : Nat → α) (m : SMap α) (k i : Nat) (vs : List α) (h : i < vs.length) :
    SMap.get d (SMap.setRange d m k vs) (k + i) = vs[i] := by
  induction vs generalizing m k i with
  | nil => simp at h
  | cons v vs ih =>
    cases i with
    | zero =>
      simp only [SMap.setRange, Nat.add_zero, List.getElem_cons_zero]
      rw [SMap.get_setRange_out _ _ _ _ _ (by omega), SMap.get_set_self]
    | succ i =>
      simp only [SMap.setRange, List.getElem_cons_succ]
      have := ih (SMap.set d m k v) (k + 1) i (by simpa using h)
      rw [show k + (i + 1) = k + 1 + i by omega, this]

/-- Reading a range that was just written gives what was written. -/
theorem SMap.getRange_setRange (d : Nat → α) (m : SMap α) (k : Nat) (vs : List α) :
    SMap.getRange d (SMap.setRange d m k vs) k vs.length = vs := by
  have key : ∀ (n i : Nat), i + n = vs.length →
      SMap.getRange d (SMap.setRange d m k vs) (k + i) n = vs.drop i := by
    intro n
    induction n with
    | zero => intro i h; simp [SMap.getRange, List.drop_of_length_le (show vs.length ≤ i by omega)]
    | succ n ih =>
      intro i h
      have hi : i < vs.length := by omega
      rw [SMap.getRange, SMap.get_setRange_in d m k i vs hi, List.drop_eq_getElem_cons hi, Nat.add_assoc, ih (i + 1) (by omega)]
  simpa using key vs.length 0 (by omega)

/-- A range apart from the one written reads as before. -/
theorem SMap.getRange_setRange_out (d : Nat → α) (m : SMap α) (k j n : Nat) (vs : List α) (h : j + n ≤ k ∨ k + vs.length ≤ j) :
    SMap.getRange d (SMap.setRange d m k vs) j n = SMap.getRange d m j n := by
  induction n generalizing j with
  | zero => rfl
  | succ n ih =>
    simp only [SMap.getRange]
    rw [SMap.get_setRange_out _ _ _ _ _ (by omega), ih (j + 1) (by omega)]

/-! ### The canonical form is kept -/

@[simp] theorem SMap.wf_nil (d : Nat → α) : SMap.wf d [] = true := rfl

theorem SMap.wfAbove_cons (d : Nat → α) (b : Option Nat) (k : Nat) (v : α) (m : SMap α) :
    SMap.wfAbove d b ((k, v) :: m) = true ↔ (∀ n, b = some n → n < k) ∧ v ≠ d k ∧ SMap.wfAbove d (some k) m = true := by
  cases b <;> simp [SMap.wfAbove, and_assoc]

/-- A lower bound may be lowered. -/
theorem SMap.wfAbove_mono (d : Nat → α) (m : SMap α) {b c : Option Nat} (hb : ∀ n, c = some n → ∃ n', b = some n' ∧ n ≤ n')
    (h : SMap.wfAbove d b m = true) : SMap.wfAbove d c m = true := by
  cases m with
  | nil => rfl
  | cons e m =>
    obtain ⟨k, v⟩ := e
    rw [SMap.wfAbove_cons] at h ⊢
    refine ⟨fun n hn => ?_, h.2⟩
    obtain ⟨n', h1, h2⟩ := hb n hn
    exact Nat.lt_of_le_of_lt h2 (h.1 n' h1)

theorem SMap.wfAbove_drop (d : Nat → α) (m : SMap α) (k : Nat) (b : Option Nat) (h : SMap.wfAbove d b m = true) :
    SMap.wfAbove d b (SMap.drop m k) = true := by
  induction m generalizing b with
  | nil => exact h
  | cons e m ih =>
    obtain ⟨k', v⟩ := e
    rw [SMap.wfAbove_cons] at h
    by_cases hk : k = k'
    · simp only [SMap.drop, hk, if_true]
      rw [← hk]
      exact ih b (SMap.wfAbove_mono d m (fun n hn => ⟨k', rfl, Nat.le_of_lt (h.1 n hn)⟩) h.2.2)
    · simp only [SMap.drop, hk, if_false, SMap.wfAbove_cons]
      exact ⟨h.1, h.2.1, ih _ h.2.2⟩

theorem SMap.wfAbove_put (d : Nat → α) (m : SMap α) (k : Nat) (v : α) (b : Option Nat) (hb : ∀ n, b = some n → n < k) (hv : v ≠ d k)
    (h : SMap.wfAbove d b m = true) : SMap.wfAbove d b (SMap.put m k v) = true := by
  induction m generalizing b with
  | nil => rw [SMap.put, SMap.wfAbove_cons]; exact ⟨hb, hv, rfl⟩
  | cons e m ih =>
    obtain ⟨k', v'⟩ := e
    rw [SMap.wfAbove_cons] at h
    by_cases h1 : k < k'
    · simp only [SMap.put, h1, if_true, SMap.wfAbove_cons]
      exact ⟨hb, hv, by intro n hn; cases hn; exact h1, h.2⟩
    · by_cases h2 : k = k'
      · subst h2
        simp only [SMap.put, Nat.lt_irrefl, if_true, if_false, SMap.wfAbove_cons]
        exact ⟨hb, hv, h.2.2⟩
      · simp only [SMap.put, h1, h2, if_false, SMap.wfAbove_cons]
        exact ⟨h.1, h.2.1, ih _ (by intro n hn; cases hn; omega) h.2.2⟩

theorem SMap.wf_drop (d : Nat → α) (m : SMap α) (k : Nat) (h : SMap.wf d m = true) : SMap.wf d (SMap.drop m k) = true :=
  SMap.wfAbove_drop d m k none h

theorem SMap.wf_set (d : Nat → α) (m : SMap α) (k : Nat) (v : α) (h : SMap.wf d m = true) : SMap.wf d (SMap.set d m k v) = true := by
  unfold SMap.set
  split
  · exact SMap.wf_drop d m k h
  · next hv => exact SMap.wfAbove_put d m k v none (by simp) hv h

theorem SMap.wf_setRange (d : Nat → α) (m : SMap α) (k : Nat) (vs : List α) (h : SMap.wf d m = true) :
    SMap.wf d (SMap.setRange d m k vs) = true := by
  induction vs generalizing m k with
  | nil => exact h
  | cons v vs ih => exact ih _ _ (SMap.wf_set d m k v h)

theorem SMap.wfAbove_filter (d : Nat → α) (p : Nat × α → Bool) (m : SMap α) (b : Option Nat) (h : SMap.wfAbove d b m = true) :
    SMap.wfAbove d b (m.filter p) = true := by
  induction m generalizing b with
  | nil => exact h
  | cons e m ih =>
    obtain ⟨k, v⟩ := e
    rw [SMap.wfAbove_cons] at h
    by_cases hp : p (k, v)
    · rw [List.filter_cons_of_pos hp, SMap.wfAbove_cons]
      exact ⟨h.1, h.2.1, ih _ h.2.2⟩
    · rw [List.filter_cons_of_neg hp]
      exact ih b (SMap.wfAbove_mono d m (fun n hn => ⟨k, rfl, Nat.le_of_lt (h.1 n hn)⟩) h.2.2)

theorem SMap.wf_filter (d : Nat → α) (p : Nat × α → Bool) (m : SMap α) (h : SMap.wf d m = true) : SMap.wf d (m.filter p) = true :=
  SMap.wfAbove_filter d p m none h

theorem SMap.wf_clear (d : Nat → α) (m : SMap α) (lo hi : Nat) (h : SMap.wf d m = true) : SMap.wf d (SMap.clear m lo hi) = true :=
  SMap.wf_filter d _ m h

omit [DecidableEq α] in
/-- A cleared key reads as unlisted, any other as before. -/
theorem SMap.get_clear (d : Nat → α) (m : SMap α) (lo hi k : Nat) :
    SMap.get d (SMap.clear m lo hi) k = if lo ≤ k ∧ k < hi then d k else SMap.get d m k := by
  induction m with
  | nil => simp [SMap.clear]
  | cons e m ih =>
    obtain ⟨k', v⟩ := e
    by_cases hp : k' < lo ∨ hi ≤ k'
    · have : SMap.clear ((k', v) :: m) lo hi = (k', v) :: SMap.clear m lo hi := by simp [SMap.clear, hp]
      rw [this]
      by_cases hk : k = k'
      · subst hk
        have : ¬ (lo ≤ k ∧ k < hi) := by omega
        simp [SMap.get, this]
      · simp [SMap.get, hk, ih]
    · have : SMap.clear ((k', v) :: m) lo hi = SMap.clear m lo hi := by
        simp [SMap.clear, List.filter_cons]; omega
      rw [this, ih]
      by_cases hk : k = k'
      · subst hk
        have : lo ≤ k ∧ k < hi := by omega
        simp [this]
      · simp [SMap.get, hk]

/-- Changing the listed values so that none becomes the unlisted one keeps the form. -/
theorem SMap.wf_map (d : Nat → α) (f : Nat → α → α) (m : SMap α) (hf : ∀ k v, v ≠ d k → f k v ≠ d k) (h : SMap.wf d m = true) :
    SMap.wf d (m.map (fun e => (e.1, f e.1 e.2))) = true := by
  have key : ∀ (m : SMap α) (b : Option Nat), SMap.wfAbove d b m = true →
      SMap.wfAbove d b (m.map (fun e => (e.1, f e.1 e.2))) = true := by
    intro m
    induction m with
    | nil => intro b _; rfl
    | cons e m ih =>
      intro b h
      obtain ⟨k, v⟩ := e
      rw [SMap.wfAbove_cons] at h
      rw [List.map_cons, SMap.wfAbove_cons]
      exact ⟨h.1, hf k v h.2.1, ih _ h.2.2⟩
  exact key m none h

/-! ### Numbers and bytes -/

@[simp] theorem bytesOfNat_length (n v : Nat) : (bytesOfNat n v).length = n := by
  induction n generalizing v with
  | zero => rfl
  | succ n ih => simp [bytesOfNat, ih]

theorem natOfBytes_bytesOfNat (n v : Nat) : natOfBytes (bytesOfNat n v) = v % 256 ^ n := by
  induction n generalizing v with
  | zero => simp [bytesOfNat, natOfBytes, Nat.mod_one]
  | succ n ih =>
    simp only [bytesOfNat, natOfBytes, ih, BitVec.toNat_ofNat]
    rw [show 256 ^ (n + 1) = 256 * 256 ^ n by rw [Nat.pow_succ, Nat.mul_comm], Nat.mod_mul]

theorem natOfBytes_lt (bs : List Byte) : natOfBytes bs < 256 ^ bs.length := by
  induction bs with
  | nil => simp [natOfBytes]
  | cons b bs ih =>
    have := b.isLt
    simp only [natOfBytes, List.length_cons, Nat.pow_succ]
    omega

end Sys2Proof.Machine
end

