-- ==== Sys2Proof/Laws/Registers.lean ====
section
/-! SUPPORT. Registers and fields: what a word or a field reads after one of them was set. -/

namespace Sys2Proof.Machine

/-! ### Bits of numbers -/

theorem bitsOf_lt (v hi lo : Nat) : bitsOf v hi lo < 2 ^ (hi - lo + 1) := Nat.mod_lt _ (Nat.two_pow_pos _)

theorem bitsOf_eq (v hi lo : Nat) : bitsOf v hi lo = v / 2 ^ lo % 2 ^ (hi - lo + 1) := by
  simp [bitsOf, Nat.shiftRight_eq_div_pow]

/-- A number with a field replaced, as high part, field and low part. -/
theorem putBits_eq (v hi lo f : Nat) (h : lo ≤ hi) :
    putBits v hi lo f = v / 2 ^ (hi + 1) * 2 ^ (hi + 1) + f % 2 ^ (hi - lo + 1) * 2 ^ lo + v % 2 ^ lo := by
  have hw : 2 ^ (hi + 1) = 2 ^ lo * 2 ^ (hi - lo + 1) := by rw [← Nat.pow_add]; congr 1; omega
  have h1 : v = 2 ^ lo * (v / 2 ^ lo) + v % 2 ^ lo := (Nat.div_add_mod v _).symm
  have h2 : v / 2 ^ lo = 2 ^ (hi - lo + 1) * (v / 2 ^ lo / 2 ^ (hi - lo + 1)) + v / 2 ^ lo % 2 ^ (hi - lo + 1) :=
    (Nat.div_add_mod _ _).symm
  have h3 : v / 2 ^ (hi + 1) = v / 2 ^ lo / 2 ^ (hi - lo + 1) := by rw [hw, Nat.div_div_eq_div_mul]
  unfold putBits
  rw [bitsOf_eq, Nat.shiftLeft_eq, Nat.shiftLeft_eq, h3, hw]
  generalize v / 2 ^ lo % 2 ^ (hi - lo + 1) = b at *
  generalize v / 2 ^ lo / 2 ^ (hi - lo + 1) = q at *
  generalize f % 2 ^ (hi - lo + 1) = f'
  have h4 : v = q * (2 ^ lo * 2 ^ (hi - lo + 1)) + b * 2 ^ lo + v % 2 ^ lo := by
    conv_lhs => rw [h1, h2]
    ring
  have h5 : b * 2 ^ lo ≤ v := by rw [h4]; omega
  omega

theorem bitsOf_putBits_self (v hi lo f : Nat) (h : lo ≤ hi) : bitsOf (putBits v hi lo f) hi lo = f % 2 ^ (hi - lo + 1) := by
  have hw : 2 ^ (hi + 1) = 2 ^ (hi - lo + 1) * 2 ^ lo := by rw [← Nat.pow_add]; congr 1; omega
  rw [putBits_eq v hi lo f h, bitsOf_eq, hw]
  have : v / (2 ^ (hi - lo + 1) * 2 ^ lo) * (2 ^ (hi - lo + 1) * 2 ^ lo) + f % 2 ^ (hi - lo + 1) * 2 ^ lo + v % 2 ^ lo
      = v % 2 ^ lo + (v / (2 ^ (hi - lo + 1) * 2 ^ lo) * 2 ^ (hi - lo + 1) + f % 2 ^ (hi - lo + 1)) * 2 ^ lo := by ring
  rw [this, Nat.add_mul_div_right _ _ (Nat.two_pow_pos lo), Nat.div_eq_of_lt (Nat.mod_lt _ (Nat.two_pow_pos lo)), Nat.zero_add,
    Nat.mul_add_mod_self_right, Nat.mod_mod]

/-- Bits below the field stay. -/
theorem bitsOf_putBits_below (v hi lo f hi' lo' : Nat) (h : lo ≤ hi) (h' : lo' ≤ hi') (hd : hi' < lo) :
    bitsOf (putBits v hi lo f) hi' lo' = bitsOf v hi' lo' := by
  have e1 : 2 ^ (hi + 1) = 2 ^ (hi + 1 - (hi' + 1)) * 2 ^ (hi' + 1) := by rw [← Nat.pow_add]; congr 1; omega
  have e2 : 2 ^ lo = 2 ^ (lo - (hi' + 1)) * 2 ^ (hi' + 1) := by rw [← Nat.pow_add]; congr 1; omega
  have hm : putBits v hi lo f % 2 ^ (hi' + 1) = v % 2 ^ (hi' + 1) := by
    rw [putBits_eq v hi lo f h]
    have : v / 2 ^ (hi + 1) * 2 ^ (hi + 1) + f % 2 ^ (hi - lo + 1) * 2 ^ lo + v % 2 ^ lo
        = v % 2 ^ lo + (v / 2 ^ (hi + 1) * 2 ^ (hi + 1 - (hi' + 1)) + f % 2 ^ (hi - lo + 1) * 2 ^ (lo - (hi' + 1))) * 2 ^ (hi' + 1) := by
      rw [Nat.add_mul, Nat.mul_assoc, Nat.mul_assoc, ← e1, ← e2]; omega
    rw [this, Nat.add_mul_mod_self_right, Nat.mod_mod_of_dvd _ (Nat.pow_dvd_pow 2 (by omega))]
  have key : ∀ n, n / 2 ^ lo' % 2 ^ (hi' - lo' + 1) = n % 2 ^ (hi' + 1) / 2 ^ lo' := by
    intro n
    rw [show 2 ^ (hi' + 1) = 2 ^ lo' * 2 ^ (hi' - lo' + 1) by rw [← Nat.pow_add]; congr 1; omega, Nat.mod_mul_right_div_self]
  rw [bitsOf_eq, bitsOf_eq, key, key, hm]

/-- Bits above the field stay. -/
theorem bitsOf_putBits_above (v hi lo f hi' lo' : Nat) (h : lo ≤ hi) (hd : hi < lo') :
    bitsOf (putBits v hi lo f) hi' lo' = bitsOf v hi' lo' := by
  have hlow : f % 2 ^ (hi - lo + 1) * 2 ^ lo + v % 2 ^ lo < 2 ^ (hi + 1) := by
    have h1 : f % 2 ^ (hi - lo + 1) + 1 ≤ 2 ^ (hi - lo + 1) := Nat.mod_lt _ (Nat.two_pow_pos _)
    have h2 : v % 2 ^ lo < 2 ^ lo := Nat.mod_lt _ (Nat.two_pow_pos _)
    have h3 : 2 ^ (hi + 1) = 2 ^ (hi - lo + 1) * 2 ^ lo := by rw [← Nat.pow_add]; congr 1; omega
    have h4 := Nat.mul_le_mul_right (2 ^ lo) h1
    rw [h3]
    rw [Nat.add_mul] at h4
    omega
  have hq : putBits v hi lo f / 2 ^ (hi + 1) = v / 2 ^ (hi + 1) := by
    rw [putBits_eq v hi lo f h, Nat.add_assoc, Nat.add_comm, Nat.add_mul_div_right _ _ (Nat.two_pow_pos _), Nat.div_eq_of_lt hlow,
      Nat.zero_add]
  have key : ∀ n, n / 2 ^ lo' = n / 2 ^ (hi + 1) / 2 ^ (lo' - (hi + 1)) := by
    intro n
    rw [Nat.div_div_eq_div_mul, ← Nat.pow_add]; congr 2; omega
  rw [bitsOf_eq, bitsOf_eq, key, key v, hq]

theorem putBits_lt (v hi lo f n : Nat) (h : lo ≤ hi) (hn : hi < n) (hv : v < 2 ^ n) : putBits v hi lo f < 2 ^ n := by
  have h0 : bitsOf (putBits v hi lo f) (2 * n + putBits v hi lo f) n = bitsOf v (2 * n + putBits v hi lo f) n :=
    bitsOf_putBits_above v hi lo f _ n h hn
  rw [bitsOf_eq, bitsOf_eq, Nat.div_eq_of_lt hv, Nat.zero_mod] at h0
  have h1 : putBits v hi lo f / 2 ^ n < 2 ^ (2 * n + putBits v hi lo f - n + 1) :=
    Nat.lt_of_le_of_lt (Nat.div_le_self _ _)
      (Nat.lt_of_lt_of_le (Nat.lt_two_pow_self) (Nat.pow_le_pow_right (by omega) (by omega)))
  rw [Nat.mod_eq_of_lt h1] at h0
  exact (Nat.div_eq_zero_iff_lt (Nat.two_pow_pos n)).mp h0

/-! ### Words -/

@[simp] theorem Mach.rg_setRg_self (m : Mach) (a : Nat) (v : W32) : (m.setRg a v).rg a = v := by simp [Mach.rg, Mach.setRg]

theorem Mach.rg_setRg_ne (m : Mach) {a b : Nat} (v : W32) (h : b ≠ a) : (m.setRg a v).rg b = m.rg b := by
  simp [Mach.rg, Mach.setRg, SMap.get_set_ne _ _ _ h]

theorem Mach.rg_setRg (m : Mach) (a b : Nat) (v : W32) : (m.setRg a v).rg b = if b = a then v else m.rg b := by
  simp [Mach.rg, Mach.setRg, SMap.get_set]

/-- What a word reads depends on the register file alone. -/
theorem Mach.rg_congr {m m' : Mach} (h : m'.regs = m.regs) (a : Nat) : m'.rg a = m.rg a := by simp [Mach.rg, h]

theorem Mach.fld_congr {m m' : Mach} (h : m'.regs = m.regs) (f : Fld) (i : Nat) : m'.fld f i = m.fld f i := by
  simp [Mach.fld, Mach.rg_congr h]

theorem Mach.flg_congr {m m' : Mach} (h : m'.regs = m.regs) (f : Fld) (i : Nat) : m'.flg f i = m.flg f i := by
  simp [Mach.flg, Mach.fld_congr h]

/-! ### Fields -/

/-- A field of a 32-bit word after it was set. -/
theorem Mach.fld_setFld_self (m : Mach) (f : Fld) (i v : Nat) (h : f.lo ≤ f.hi) (h64 : f.hi < 64) :
    (m.setFld f i v).fld f i = v % 2 ^ (f.hi - f.lo + 1) := by
  unfold Mach.fld Mach.setFld
  split
  · next h32 =>
    rw [Mach.rg_setRg_self, BitVec.toNat_ofNat, Nat.mod_eq_of_lt, bitsOf_putBits_self _ _ _ _ h]
    exact putBits_lt _ _ _ _ _ h h32 (m.rg _).isLt
  · next h32 =>
    simp only
    rw [Mach.rg_setRg_ne _ _ (by omega), Mach.rg_setRg_self, Mach.rg_setRg_self]
    generalize hw : putBits _ _ _ _ = w
    have hlt : w < 2 ^ 64 := by
      rw [← hw]
      refine putBits_lt _ _ _ _ _ h h64 ?_
      have h1 := (m.rg (f.addr i)).isLt
      have h2 := (m.rg (f.addr i + 4)).isLt
      omega
    have : (BitVec.ofNat 32 w).toNat + 2 ^ 32 * (BitVec.ofNat 32 (w / 2 ^ 32)).toNat = w := by
      simp only [BitVec.toNat_ofNat]
      omega
    rw [this, ← hw, bitsOf_putBits_self _ _ _ _ h]

/-- A field set leaves the words at other addresses. -/
theorem Mach.rg_setFld_ne (m : Mach) (f : Fld) (i v a : Nat) (h : a ≠ f.addr i) (h' : f.hi < 32 ∨ a ≠ f.addr i + 4) :
    (m.setFld f i v).rg a = m.rg a := by
  unfold Mach.setFld
  split
  · exact Mach.rg_setRg_ne _ _ h
  · simp only
    rw [Mach.rg_setRg_ne _ _ (by omega), Mach.rg_setRg_ne _ _ h]

/-- A field of a 32-bit word and one of another word. -/
theorem Mach.fld_setFld_ne (m : Mach) (f g : Fld) (i j v : Nat) (hf : f.hi < 32) (hg : g.hi < 32) (h : g.addr j ≠ f.addr i) :
    (m.setFld f i v).fld g j = m.fld g j := by
  simp only [Mach.fld, hg, if_true]
  rw [Mach.rg_setFld_ne _ _ _ _ _ h (Or.inl hf)]

/-- Two fields of one 32-bit word that share no bit. -/
theorem Mach.fld_setFld_disjoint (m : Mach) (f g : Fld) (i j v : Nat) (hf : f.hi < 32) (hg : g.hi < 32) (h : f.lo ≤ f.hi) (h' : g.lo ≤ g.hi)
    (ha : g.addr j = f.addr i) (hd : g.hi < f.lo ∨ f.hi < g.lo) : (m.setFld f i v).fld g j = m.fld g j := by
  simp only [Mach.fld, Mach.setFld, hf, hg, if_true, ha, Mach.rg_setRg_self, BitVec.toNat_ofNat]
  rw [Nat.mod_eq_of_lt (putBits_lt _ _ _ _ _ h hf (m.rg _).isLt)]
  rcases hd with hd | hd
  · exact bitsOf_putBits_below _ _ _ _ _ _ h h' hd
  · exact bitsOf_putBits_above _ _ _ _ _ _ h hd

/-- A one-bit field after it was set. -/
theorem Mach.flg_setFlg_self (m : Mach) (f : Fld) (i : Nat) (b : Bool) (h : f.lo = f.hi) (h64 : f.hi < 64) :
    (m.setFlg f i b).flg f i = b := by
  rw [Mach.flg, Mach.setFlg, Mach.fld_setFld_self _ _ _ _ (by omega) h64]
  cases b <;> simp [bit, h]

theorem Mach.flg_raise_self (m : Mach) (f : Fld) (i : Nat) (h : f.lo = f.hi) (h64 : f.hi < 64) : (m.raise f i).flg f i = true := by
  rw [Mach.flg, Mach.raise, Mach.fld_setFld_self _ _ _ _ (by omega) h64]
  simp [h]

/-- A saturating count reads one more, or its largest value. -/
theorem Mach.fld_countSat_self (m : Mach) (f : Fld) (i n : Nat) (h : f.lo ≤ f.hi) (h64 : f.hi < 64) :
    (m.countSat f i n).fld f i = min (m.fld f i + n) (2 ^ (f.hi - f.lo + 1) - 1) := by
  rw [Mach.countSat, Mach.fld_setFld_self _ _ _ _ h h64]
  apply Nat.mod_eq_of_lt
  have := Nat.two_pow_pos (f.hi - f.lo + 1)
  omega

/-! ### The canonical form of the register file -/

theorem Mach.wf_regs_setRg (m : Mach) (a : Nat) (v : W32) (h : SMap.wf resetWord m.regs = true) :
    SMap.wf resetWord (m.setRg a v).regs = true := SMap.wf_set _ _ _ _ h

theorem Mach.wf_regs_setFld (m : Mach) (f : Fld) (i v : Nat) (h : SMap.wf resetWord m.regs = true) :
    SMap.wf resetWord (m.setFld f i v).regs = true := by
  unfold Mach.setFld
  split
  · exact Mach.wf_regs_setRg _ _ _ h
  · exact Mach.wf_regs_setRg _ _ _ (Mach.wf_regs_setRg _ _ _ h)

/-- A write by access codes keeps the form. -/
theorem Mach.wf_regs_writePlain (m : Mach) (a : Nat) (v : W32) (h : SMap.wf resetWord m.regs = true) :
    SMap.wf resetWord (m.writePlain a v).regs = true := by
  unfold Mach.writePlain
  split
  · exact h
  · exact Mach.wf_regs_setRg _ _ _ h

/-- What a write by access codes leaves in each bit (R9). -/
theorem Mach.writePlain_bit (m : Mach) (a : Nat) (v : W32) (c : Card) (hc : cardAt a = some c) (k : Nat) :
    ((m.writePlain a v).rg a).getLsbD k = c.wrote v (m.rg a) k := by
  simp only [Mach.writePlain, hc, Mach.rg_setRg_self, Card.wrote, BitVec.getLsbD_or, BitVec.getLsbD_and, BitVec.getLsbD_not]
  by_cases hk : k < 32
  · simp only [hk, decide_true, Bool.true_and]
    cases c.w1s.getLsbD k <;> cases c.w1c.getLsbD k <;> cases c.rw.getLsbD k <;> cases v.getLsbD k <;> cases (m.rg a).getLsbD k <;> rfl
  · have h1 : ∀ x : W32, x.getLsbD k = false := fun x => BitVec.getLsbD_of_ge x k (by omega)
    simp [h1]

theorem Mach.writePlain_ne (m : Mach) {a b : Nat} (v : W32) (h : b ≠ a) : (m.writePlain a v).rg b = m.rg b := by
  unfold Mach.writePlain
  split
  · rfl
  · exact Mach.rg_setRg_ne _ _ h

end Sys2Proof.Machine
end

