-- ==== Sys2Proof/Laws/Memory.lean ====
section
/-! SUPPORT. Memory: what a read gives after a write, what the error-correcting code adds to either, and that every operation on a memory keeps
its canonical form. -/

namespace Sys2Proof.Machine

/-! ### Bytes -/

@[simp] theorem Mach.peek_length (m : Mach) (k n : Nat) : (m.peek k n).length = n := SMap.getRange_length _ _ _ _

/-- What was poked is peeked. -/
theorem Mach.peek_poke (m : Mach) (k : Nat) (bs : List Byte) : (m.poke k bs).peek k bs.length = bs := SMap.getRange_setRange _ _ _ _

/-- Bytes apart from those poked read as before. -/
theorem Mach.peek_poke_out (m : Mach) (k j n : Nat) (bs : List Byte) (h : j + n ≤ k ∨ k + bs.length ≤ j) :
    (m.poke k bs).peek j n = m.peek j n := SMap.getRange_setRange_out _ _ _ _ _ _ h

theorem Mach.peek_congr {m m' : Mach} (h : m'.mem = m.mem) (k n : Nat) : m'.peek k n = m.peek k n := by simp [Mach.peek, h]

/-! ### The error-correcting code -/

/-- The words an access touches have good codes. -/
theorem Mach.GoodCode.word {m : Mach} {k n i : Nat} (h : m.GoodCode k n) (hn : 0 < n) (hi : i < (wordsOf k n).2) :
    SMap.get eccGood m.ecc ((wordsOf k n).1 + i) = .good := by
  have : k / 8 ≤ (k + n - 1) / 8 := Nat.div_le_div_right (by omega)
  simp only [wordsOf] at hi ⊢
  exact h _ (by omega) (by omega)

/-- Words with good codes are passed without a trace. -/
theorem Mach.checkWords_good (m : Mach) (src w n : Nat) (h : ∀ i < n, SMap.get eccGood m.ecc (w + i) = .good) :
    m.checkWords src w n = (false, m) := by
  induction n generalizing w with
  | zero => rfl
  | succ n ih =>
    have h0 := h 0 (by omega)
    rw [Nat.add_zero] at h0
    simp only [Mach.checkWords, h0]
    exact ih (w + 1) (fun i hi => by rw [Nat.add_assoc, Nat.add_comm 1 i]; exact h (i + 1) (by omega))

/-- A store over words with good codes leaves the code as it is. -/
theorem Mach.storeCode_good (m : Mach) (src k l w n : Nat) (h : ∀ i < n, SMap.get eccGood m.ecc (w + i) = .good) :
    m.storeCode src k l w n = (false, m) := by
  induction n generalizing w with
  | zero => rfl
  | succ n ih =>
    have h0 := h 0 (by omega)
    rw [Nat.add_zero] at h0
    simp only [Mach.storeCode, h0]
    exact ih (w + 1) (fun i hi => by rw [Nat.add_assoc, Nat.add_comm 1 i]; exact h (i + 1) (by omega))

/-- A load from words with good codes gives the bytes and changes nothing. -/
theorem Mach.load_good (m : Mach) (src k n : Nat) (hn : 0 < n) (h : m.GoodCode k n) : m.load src k n = (some (m.peek k n), m) := by
  simp only [Mach.load, Mach.checkWords_good m src _ _ (fun i hi => h.word hn hi)]
  simp

/-- A store over words with good codes writes its bytes and ends the reservations on their lines, no more. -/
theorem Mach.store_good (m : Mach) (src k : Nat) (bs : List Byte) (hb : bs ≠ []) (h : m.GoodCode k bs.length) :
    m.store src k bs = (false, (m.poke k bs).unreserve k bs.length) := by
  cases bs with
  | nil => exact absurd rfl hb
  | cons b bs =>
    simp only [Mach.store, Mach.storeCode_good m src k _ _ _ (fun i hi => h.word (Nat.succ_pos _) hi)]

@[simp] theorem Mach.countCe_mem (m : Mach) (k : Nat) : (m.countCe k).mem = m.mem := by
  unfold Mach.countCe
  dsimp only
  split <;> simp

@[simp] theorem Mach.reportUe_mem (m : Mach) (a b c d e : Nat) (p : Bool) : (m.reportUe a b c d e p).mem = m.mem := by
  unfold Mach.reportUe
  cases ueField a <;> simp

@[simp] theorem Mach.reportUeKey_mem (m : Mach) (k src kind : Nat) (p : Bool) : (m.reportUeKey k src kind p).mem = m.mem := by
  simp [Mach.reportUeKey]

/-- Reading through the code changes no byte. -/
@[simp] theorem Mach.checkWords_mem (m : Mach) (src w n : Nat) : (m.checkWords src w n).2.mem = m.mem := by
  induction n generalizing m w with
  | zero => rfl
  | succ n ih =>
    unfold Mach.checkWords
    split
    · exact ih _ _
    · rw [ih]; simp
    · simp [ih]

@[simp] theorem Mach.load_mem (m : Mach) (src k n : Nat) : (m.load src k n).2.mem = m.mem := by simp [Mach.load]

@[simp] theorem Mach.storeCode_mem (m : Mach) (src k l w n : Nat) : (m.storeCode src k l w n).2.mem = m.mem := by
  induction n generalizing m w with
  | zero => rfl
  | succ n ih =>
    unfold Mach.storeCode
    split
    · exact ih _ _
    · split
      · rw [ih]
      · rw [ih]; simp
    · split
      · rw [ih]
      · simp [ih]

/-- A store changes exactly the bytes it names. -/
theorem Mach.store_mem (m : Mach) (src k : Nat) (bs : List Byte) :
    (m.store src k bs).2.mem = SMap.setRange Memory.unlisted m.mem k bs := by
  cases bs with
  | nil => rfl
  | cons b bs => simp [Mach.store, Mach.unreserve, Mach.poke]

/-! ### The canonical form -/

theorem Memory.wf_setRange (f : Memory) (k : Nat) (bs : List Byte) (h : Memory.wf f = true) :
    Memory.wf (SMap.setRange Memory.unlisted f k bs) = true := SMap.wf_setRange _ _ _ _ h

theorem Memory.wf_clear (f : Memory) (lo hi : Nat) (h : Memory.wf f = true) : Memory.wf (SMap.clear f lo hi) = true :=
  SMap.wf_clear _ _ _ _ h

theorem Memory.wf_filter (f : Memory) (p : Nat × Byte → Bool) (h : Memory.wf f = true) : Memory.wf (f.filter p) = true :=
  SMap.wf_filter _ _ _ h

theorem Mach.memWf_congr {m m' : Mach} (h : m.MemSame m') (hw : m.MemWf) : m'.MemWf := by
  obtain ⟨h1, _, h2, h3, h4⟩ := h
  simpa [Mach.MemWf, h1, h2, h3, h4] using hw

theorem Mach.memWf_poke (m : Mach) (k : Nat) (bs : List Byte) (h : m.MemWf) : (m.poke k bs).MemWf :=
  ⟨Memory.wf_setRange _ _ _ h.1, h.2⟩

theorem Mach.memWf_retPut (m : Mach) (a : Nat) (bs : List Byte) (h : m.MemWf) : (m.retPut a bs).MemWf :=
  ⟨h.1, h.2.1, h.2.2.1, Memory.wf_setRange _ _ _ h.2.2.2⟩

theorem Mach.memWf_wipeTcm (m : Mach) (c : Nat) (h : m.MemWf) : (m.wipeTcm c).MemWf := ⟨Memory.wf_clear _ _ _ h.1, h.2⟩

theorem Mach.memWf_wipeRange (m : Mach) (lo hi : Nat) (die : Option Nat) (h : m.MemWf) : (m.wipeRange lo hi die).MemWf :=
  ⟨Memory.wf_filter _ _ h.1, h.2⟩

/-- A wiped byte reads 0. -/
theorem Mach.peek_wipeTcm (m : Mach) (c k : Nat) (h : tcmKey c ≤ k) (h' : k < tcmKey c + 0x40000) : (m.wipeTcm c).peek k 1 = [0] := by
  simp [Mach.peek, Mach.wipeTcm, SMap.getRange, SMap.get_clear, h, h', Memory.unlisted]

end Sys2Proof.Machine
end

