-- ==== Sys2Proof/Laws/Units.lean ====
section
/-! SUPPORT. The record of a unit after it was set, and after anything else was; words and fields after a unit was set. -/

namespace Sys2Proof.Machine

/-! ### A unit after it was set -/

@[simp] theorem Mach.slice_setSlice_self (m : Mach) (i : Nat) (d : Slice) : (m.setSlice i d).slice i = d := by simp [Mach.slice, Mach.setSlice]
theorem Mach.slice_setSlice_ne (m : Mach) {i j : Nat} (d : Slice) (h : j ≠ i) : (m.setSlice i d).slice j = m.slice j := by
  simp [Mach.slice, Mach.setSlice, SMap.get_set_ne _ _ _ h]
theorem Mach.slice_congr {m m' : Mach} (h : m'.slices = m.slices) (i : Nat) : m'.slice i = m.slice i := by simp [Mach.slice, h]
@[simp] theorem Mach.timer_setTimer_self (m : Mach) (i : Nat) (d : Timer) : (m.setTimer i d).timer i = d := by simp [Mach.timer, Mach.setTimer]
theorem Mach.timer_setTimer_ne (m : Mach) {i j : Nat} (d : Timer) (h : j ≠ i) : (m.setTimer i d).timer j = m.timer j := by
  simp [Mach.timer, Mach.setTimer, SMap.get_set_ne _ _ _ h]
theorem Mach.timer_congr {m m' : Mach} (h : m'.timers = m.timers) (i : Nat) : m'.timer i = m.timer i := by simp [Mach.timer, h]
@[simp] theorem Mach.group_setGroup_self (m : Mach) (i : Nat) (d : Group) : (m.setGroup i d).group i = d := by simp [Mach.group, Mach.setGroup]
theorem Mach.group_setGroup_ne (m : Mach) {i j : Nat} (d : Group) (h : j ≠ i) : (m.setGroup i d).group j = m.group j := by
  simp [Mach.group, Mach.setGroup, SMap.get_set_ne _ _ _ h]
theorem Mach.group_congr {m m' : Mach} (h : m'.groups = m.groups) (i : Nat) : m'.group i = m.group i := by simp [Mach.group, h]
@[simp] theorem Mach.win_setWin_self (m : Mach) (i : Nat) (d : Win) : (m.setWin i d).win i = d := by simp [Mach.win, Mach.setWin]
theorem Mach.win_setWin_ne (m : Mach) {i j : Nat} (d : Win) (h : j ≠ i) : (m.setWin i d).win j = m.win j := by
  simp [Mach.win, Mach.setWin, SMap.get_set_ne _ _ _ h]
theorem Mach.win_congr {m m' : Mach} (h : m'.wins = m.wins) (i : Nat) : m'.win i = m.win i := by simp [Mach.win, h]
@[simp] theorem Mach.bank_setBank_self (m : Mach) (i : Nat) (d : Bank) : (m.setBank i d).bank i = d := by simp [Mach.bank, Mach.setBank]
theorem Mach.bank_setBank_ne (m : Mach) {i j : Nat} (d : Bank) (h : j ≠ i) : (m.setBank i d).bank j = m.bank j := by
  simp [Mach.bank, Mach.setBank, SMap.get_set_ne _ _ _ h]
theorem Mach.bank_congr {m m' : Mach} (h : m'.banks = m.banks) (i : Nat) : m'.bank i = m.bank i := by simp [Mach.bank, h]
@[simp] theorem Mach.slot_setSlot_self (m : Mach) (i : Nat) (d : Slot) : (m.setSlot i d).slot i = d := by simp [Mach.slot, Mach.setSlot]
theorem Mach.slot_setSlot_ne (m : Mach) {i j : Nat} (d : Slot) (h : j ≠ i) : (m.setSlot i d).slot j = m.slot j := by
  simp [Mach.slot, Mach.setSlot, SMap.get_set_ne _ _ _ h]
theorem Mach.slot_congr {m m' : Mach} (h : m'.slots = m.slots) (i : Nat) : m'.slot i = m.slot i := by simp [Mach.slot, h]
@[simp] theorem Mach.cell_setCell_self (m : Mach) (i : Nat) (d : Cell) : (m.setCell i d).cell i = d := by simp [Mach.cell, Mach.setCell]
theorem Mach.cell_setCell_ne (m : Mach) {i j : Nat} (d : Cell) (h : j ≠ i) : (m.setCell i d).cell j = m.cell j := by
  simp [Mach.cell, Mach.setCell, SMap.get_set_ne _ _ _ h]
theorem Mach.cell_congr {m m' : Mach} (h : m'.cells = m.cells) (i : Nat) : m'.cell i = m.cell i := by simp [Mach.cell, h]
@[simp] theorem Mach.cmp_setCmp_self (m : Mach) (i : Nat) (d : Cmp) : (m.setCmp i d).cmp i = d := by simp [Mach.cmp, Mach.setCmp]
theorem Mach.cmp_setCmp_ne (m : Mach) {i j : Nat} (d : Cmp) (h : j ≠ i) : (m.setCmp i d).cmp j = m.cmp j := by
  simp [Mach.cmp, Mach.setCmp, SMap.get_set_ne _ _ _ h]
theorem Mach.cmp_congr {m m' : Mach} (h : m'.cmps = m.cmps) (i : Nat) : m'.cmp i = m.cmp i := by simp [Mach.cmp, h]
@[simp] theorem Mach.port_setPort_self (m : Mach) (i : Nat) (d : Port) : (m.setPort i d).port i = d := by simp [Mach.port, Mach.setPort]
theorem Mach.port_setPort_ne (m : Mach) {i j : Nat} (d : Port) (h : j ≠ i) : (m.setPort i d).port j = m.port j := by
  simp [Mach.port, Mach.setPort, SMap.get_set_ne _ _ _ h]
theorem Mach.port_congr {m m' : Mach} (h : m'.ports = m.ports) (i : Nat) : m'.port i = m.port i := by simp [Mach.port, h]
@[simp] theorem Mach.wd_setWd_self (m : Mach) (i : Nat) (d : Wd) : (m.setWd i d).wd i = d := by simp [Mach.wd, Mach.setWd]
theorem Mach.wd_setWd_ne (m : Mach) {i j : Nat} (d : Wd) (h : j ≠ i) : (m.setWd i d).wd j = m.wd j := by
  simp [Mach.wd, Mach.setWd, SMap.get_set_ne _ _ _ h]
theorem Mach.wd_congr {m m' : Mach} (h : m'.wds = m.wds) (i : Nat) : m'.wd i = m.wd i := by simp [Mach.wd, h]
@[simp] theorem Mach.reed_setReed_self (m : Mach) (i : Nat) (d : Reed) : (m.setReed i d).reed i = d := by simp [Mach.reed, Mach.setReed]
theorem Mach.reed_setReed_ne (m : Mach) {i j : Nat} (d : Reed) (h : j ≠ i) : (m.setReed i d).reed j = m.reed j := by
  simp [Mach.reed, Mach.setReed, SMap.get_set_ne _ _ _ h]
theorem Mach.reed_congr {m m' : Mach} (h : m'.reeds = m.reeds) (i : Nat) : m'.reed i = m.reed i := by simp [Mach.reed, h]
@[simp] theorem Mach.pair_setPair_self (m : Mach) (i : Nat) (d : Pair) : (m.setPair i d).pair i = d := by simp [Mach.pair, Mach.setPair]
theorem Mach.pair_setPair_ne (m : Mach) {i j : Nat} (d : Pair) (h : j ≠ i) : (m.setPair i d).pair j = m.pair j := by
  simp [Mach.pair, Mach.setPair, SMap.get_set_ne _ _ _ h]
theorem Mach.pair_congr {m m' : Mach} (h : m'.pairs = m.pairs) (i : Nat) : m'.pair i = m.pair i := by simp [Mach.pair, h]
@[simp] theorem Mach.eth_setEth_self (m : Mach) (i : Nat) (d : EthP) : (m.setEth i d).eth i = d := by simp [Mach.eth, Mach.setEth]
theorem Mach.eth_setEth_ne (m : Mach) {i j : Nat} (d : EthP) (h : j ≠ i) : (m.setEth i d).eth j = m.eth j := by
  simp [Mach.eth, Mach.setEth, SMap.get_set_ne _ _ _ h]
theorem Mach.eth_congr {m m' : Mach} (h : m'.eths = m.eths) (i : Nat) : m'.eth i = m.eth i := by simp [Mach.eth, h]
@[simp] theorem Mach.sto_setSto_self (m : Mach) (i : Nat) (d : StoIn) : (m.setSto i d).sto i = d := by simp [Mach.sto, Mach.setSto]
theorem Mach.sto_setSto_ne (m : Mach) {i j : Nat} (d : StoIn) (h : j ≠ i) : (m.setSto i d).sto j = m.sto j := by
  simp [Mach.sto, Mach.setSto, SMap.get_set_ne _ _ _ h]
theorem Mach.sto_congr {m m' : Mach} (h : m'.stos = m.stos) (i : Nat) : m'.sto i = m.sto i := by simp [Mach.sto, h]
@[simp] theorem Mach.vis_setVis_self (m : Mach) (i : Nat) (d : Vis) : (m.setVis i d).vis i = d := by simp [Mach.vis, Mach.setVis]
theorem Mach.vis_setVis_ne (m : Mach) {i j : Nat} (d : Vis) (h : j ≠ i) : (m.setVis i d).vis j = m.vis j := by
  simp [Mach.vis, Mach.setVis, SMap.get_set_ne _ _ _ h]
theorem Mach.vis_congr {m m' : Mach} (h : m'.viss = m.viss) (i : Nat) : m'.vis i = m.vis i := by simp [Mach.vis, h]
@[simp] theorem Mach.stage_setStage_self (m : Mach) (x : Nat) (d : Stage) : (m.setStage x d).stage x = d := by simp [Mach.stage, Mach.setStage]
theorem Mach.stage_setStage_ne (m : Mach) {x y : Nat} (d : Stage) (h : y ≠ x) : (m.setStage x d).stage y = m.stage y := by
  simp [Mach.stage, Mach.setStage, SMap.get_set_ne _ _ _ h]
theorem Mach.stage_congr {m m' : Mach} (h : m'.stages = m.stages) (x : Nat) : m'.stage x = m.stage x := by simp [Mach.stage, h]
@[simp] theorem Mach.qdyn_setQdyn_self (m : Mach) (q : Nat) (d : QDyn) : (m.setQdyn q d).qdyn q = d := by simp [Mach.qdyn, Mach.setQdyn]
theorem Mach.qdyn_setQdyn_ne (m : Mach) {q r : Nat} (d : QDyn) (h : r ≠ q) : (m.setQdyn q d).qdyn r = m.qdyn r := by
  simp [Mach.qdyn, Mach.setQdyn, SMap.get_set_ne _ _ _ h]
@[simp] theorem Mach.reed_setCore_self (m : Mach) (c : Nat) (k : Core) : ((m.setCore c k).reed c).core = k := by simp [Mach.setCore]
theorem Mach.reed_setCore_ne (m : Mach) {c d : Nat} (k : Core) (h : d ≠ c) : (m.setCore c k).reed d = m.reed d := by
  simp [Mach.setCore, Mach.reed_setReed_ne _ _ h]

/-! ### Units after a register, time, a record or memory was set -/

@[simp] theorem Mach.setRg_slice (m : Mach) (a : Nat) (v : W32) (i : Nat) : (m.setRg a v).slice i = m.slice i := Mach.slice_congr (by simp) i
@[simp] theorem Mach.setFld_slice (m : Mach) (f : Fld) (j v : Nat) (i : Nat) : (m.setFld f j v).slice i = m.slice i := Mach.slice_congr (by simp) i
@[simp] theorem Mach.setFlg_slice (m : Mach) (f : Fld) (j : Nat) (b : Bool) (i : Nat) : (m.setFlg f j b).slice i = m.slice i := Mach.slice_congr (by simp) i
@[simp] theorem Mach.raise_slice (m : Mach) (f : Fld) (j : Nat) (i : Nat) : (m.raise f j).slice i = m.slice i := Mach.slice_congr (by simp) i
@[simp] theorem Mach.raiseIf_slice (m : Mach) (b : Bool) (f : Fld) (j : Nat) (i : Nat) : (m.raiseIf b f j).slice i = m.slice i := Mach.slice_congr (by simp) i
@[simp] theorem Mach.countSat_slice (m : Mach) (f : Fld) (j n : Nat) (i : Nat) : (m.countSat f j n).slice i = m.slice i := Mach.slice_congr (by simp) i
@[simp] theorem Mach.countMod_slice (m : Mach) (f : Fld) (j n : Nat) (i : Nat) : (m.countMod f j n).slice i = m.slice i := Mach.slice_congr (by simp) i
@[simp] theorem Mach.refreshFault_slice (m : Mach)  (i : Nat) : (m.refreshFault ).slice i = m.slice i := Mach.slice_congr (by simp) i
@[simp] theorem Mach.setFault_slice (m : Mach) (f : Fld) (i : Nat) : (m.setFault f).slice i = m.slice i := Mach.slice_congr (by simp) i
@[simp] theorem Mach.post_slice (m : Mach) (q : Nat) (b : List Byte) (d : Option (Fld × Nat)) (i : Nat) : (m.post q b d).slice i = m.slice i := Mach.slice_congr (by simp) i
@[simp] theorem Mach.until_slice (m : Mach) (t : Stamp) (i : Nat) : (m.until t).slice i = m.slice i := Mach.slice_congr (by simp) i
@[simp] theorem Mach.poke_slice (m : Mach) (k : Nat) (bs : List Byte) (i : Nat) : (m.poke k bs).slice i = m.slice i := Mach.slice_congr (by simp) i
@[simp] theorem Mach.setRg_timer (m : Mach) (a : Nat) (v : W32) (i : Nat) : (m.setRg a v).timer i = m.timer i := Mach.timer_congr (by simp) i
@[simp] theorem Mach.setFld_timer (m : Mach) (f : Fld) (j v : Nat) (i : Nat) : (m.setFld f j v).timer i = m.timer i := Mach.timer_congr (by simp) i
@[simp] theorem Mach.setFlg_timer (m : Mach) (f : Fld) (j : Nat) (b : Bool) (i : Nat) : (m.setFlg f j b).timer i = m.timer i := Mach.timer_congr (by simp) i
@[simp] theorem Mach.raise_timer (m : Mach) (f : Fld) (j : Nat) (i : Nat) : (m.raise f j).timer i = m.timer i := Mach.timer_congr (by simp) i
@[simp] theorem Mach.raiseIf_timer (m : Mach) (b : Bool) (f : Fld) (j : Nat) (i : Nat) : (m.raiseIf b f j).timer i = m.timer i := Mach.timer_congr (by simp) i
@[simp] theorem Mach.countSat_timer (m : Mach) (f : Fld) (j n : Nat) (i : Nat) : (m.countSat f j n).timer i = m.timer i := Mach.timer_congr (by simp) i
@[simp] theorem Mach.countMod_timer (m : Mach) (f : Fld) (j n : Nat) (i : Nat) : (m.countMod f j n).timer i = m.timer i := Mach.timer_congr (by simp) i
@[simp] theorem Mach.refreshFault_timer (m : Mach)  (i : Nat) : (m.refreshFault ).timer i = m.timer i := Mach.timer_congr (by simp) i
@[simp] theorem Mach.setFault_timer (m : Mach) (f : Fld) (i : Nat) : (m.setFault f).timer i = m.timer i := Mach.timer_congr (by simp) i
@[simp] theorem Mach.post_timer (m : Mach) (q : Nat) (b : List Byte) (d : Option (Fld × Nat)) (i : Nat) : (m.post q b d).timer i = m.timer i := Mach.timer_congr (by simp) i
@[simp] theorem Mach.until_timer (m : Mach) (t : Stamp) (i : Nat) : (m.until t).timer i = m.timer i := Mach.timer_congr (by simp) i
@[simp] theorem Mach.poke_timer (m : Mach) (k : Nat) (bs : List Byte) (i : Nat) : (m.poke k bs).timer i = m.timer i := Mach.timer_congr (by simp) i
@[simp] theorem Mach.setRg_group (m : Mach) (a : Nat) (v : W32) (i : Nat) : (m.setRg a v).group i = m.group i := Mach.group_congr (by simp) i
@[simp] theorem Mach.setFld_group (m : Mach) (f : Fld) (j v : Nat) (i : Nat) : (m.setFld f j v).group i = m.group i := Mach.group_congr (by simp) i
@[simp] theorem Mach.setFlg_group (m : Mach) (f : Fld) (j : Nat) (b : Bool) (i : Nat) : (m.setFlg f j b).group i = m.group i := Mach.group_congr (by simp) i
@[simp] theorem Mach.raise_group (m : Mach) (f : Fld) (j : Nat) (i : Nat) : (m.raise f j).group i = m.group i := Mach.group_congr (by simp) i
@[simp] theorem Mach.raiseIf_group (m : Mach) (b : Bool) (f : Fld) (j : Nat) (i : Nat) : (m.raiseIf b f j).group i = m.group i := Mach.group_congr (by simp) i
@[simp] theorem Mach.countSat_group (m : Mach) (f : Fld) (j n : Nat) (i : Nat) : (m.countSat f j n).group i = m.group i := Mach.group_congr (by simp) i
@[simp] theorem Mach.countMod_group (m : Mach) (f : Fld) (j n : Nat) (i : Nat) : (m.countMod f j n).group i = m.group i := Mach.group_congr (by simp) i
@[simp] theorem Mach.refreshFault_group (m : Mach)  (i : Nat) : (m.refreshFault ).group i = m.group i := Mach.group_congr (by simp) i
@[simp] theorem Mach.setFault_group (m : Mach) (f : Fld) (i : Nat) : (m.setFault f).group i = m.group i := Mach.group_congr (by simp) i
@[simp] theorem Mach.post_group (m : Mach) (q : Nat) (b : List Byte) (d : Option (Fld × Nat)) (i : Nat) : (m.post q b d).group i = m.group i := Mach.group_congr (by simp) i
@[simp] theorem Mach.until_group (m : Mach) (t : Stamp) (i : Nat) : (m.until t).group i = m.group i := Mach.group_congr (by simp) i
@[simp] theorem Mach.poke_group (m : Mach) (k : Nat) (bs : List Byte) (i : Nat) : (m.poke k bs).group i = m.group i := Mach.group_congr (by simp) i
@[simp] theorem Mach.setRg_win (m : Mach) (a : Nat) (v : W32) (i : Nat) : (m.setRg a v).win i = m.win i := Mach.win_congr (by simp) i
@[simp] theorem Mach.setFld_win (m : Mach) (f : Fld) (j v : Nat) (i : Nat) : (m.setFld f j v).win i = m.win i := Mach.win_congr (by simp) i
@[simp] theorem Mach.setFlg_win (m : Mach) (f : Fld) (j : Nat) (b : Bool) (i : Nat) : (m.setFlg f j b).win i = m.win i := Mach.win_congr (by simp) i
@[simp] theorem Mach.raise_win (m : Mach) (f : Fld) (j : Nat) (i : Nat) : (m.raise f j).win i = m.win i := Mach.win_congr (by simp) i
@[simp] theorem Mach.raiseIf_win (m : Mach) (b : Bool) (f : Fld) (j : Nat) (i : Nat) : (m.raiseIf b f j).win i = m.win i := Mach.win_congr (by simp) i
@[simp] theorem Mach.countSat_win (m : Mach) (f : Fld) (j n : Nat) (i : Nat) : (m.countSat f j n).win i = m.win i := Mach.win_congr (by simp) i
@[simp] theorem Mach.countMod_win (m : Mach) (f : Fld) (j n : Nat) (i : Nat) : (m.countMod f j n).win i = m.win i := Mach.win_congr (by simp) i
@[simp] theorem Mach.refreshFault_win (m : Mach)  (i : Nat) : (m.refreshFault ).win i = m.win i := Mach.win_congr (by simp) i
@[simp] theorem Mach.setFault_win (m : Mach) (f : Fld) (i : Nat) : (m.setFault f).win i = m.win i := Mach.win_congr (by simp) i
@[simp] theorem Mach.post_win (m : Mach) (q : Nat) (b : List Byte) (d : Option (Fld × Nat)) (i : Nat) : (m.post q b d).win i = m.win i := Mach.win_congr (by simp) i
@[simp] theorem Mach.until_win (m : Mach) (t : Stamp) (i : Nat) : (m.until t).win i = m.win i := Mach.win_congr (by simp) i
@[simp] theorem Mach.poke_win (m : Mach) (k : Nat) (bs : List Byte) (i : Nat) : (m.poke k bs).win i = m.win i := Mach.win_congr (by simp) i
@[simp] theorem Mach.setRg_bank (m : Mach) (a : Nat) (v : W32) (i : Nat) : (m.setRg a v).bank i = m.bank i := Mach.bank_congr (by simp) i
@[simp] theorem Mach.setFld_bank (m : Mach) (f : Fld) (j v : Nat) (i : Nat) : (m.setFld f j v).bank i = m.bank i := Mach.bank_congr (by simp) i
@[simp] theorem Mach.setFlg_bank (m : Mach) (f : Fld) (j : Nat) (b : Bool) (i : Nat) : (m.setFlg f j b).bank i = m.bank i := Mach.bank_congr (by simp) i
@[simp] theorem Mach.raise_bank (m : Mach) (f : Fld) (j : Nat) (i : Nat) : (m.raise f j).bank i = m.bank i := Mach.bank_congr (by simp) i
@[simp] theorem Mach.raiseIf_bank (m : Mach) (b : Bool) (f : Fld) (j : Nat) (i : Nat) : (m.raiseIf b f j).bank i = m.bank i := Mach.bank_congr (by simp) i
@[simp] theorem Mach.countSat_bank (m : Mach) (f : Fld) (j n : Nat) (i : Nat) : (m.countSat f j n).bank i = m.bank i := Mach.bank_congr (by simp) i
@[simp] theorem Mach.countMod_bank (m : Mach) (f : Fld) (j n : Nat) (i : Nat) : (m.countMod f j n).bank i = m.bank i := Mach.bank_congr (by simp) i
@[simp] theorem Mach.refreshFault_bank (m : Mach)  (i : Nat) : (m.refreshFault ).bank i = m.bank i := Mach.bank_congr (by simp) i
@[simp] theorem Mach.setFault_bank (m : Mach) (f : Fld) (i : Nat) : (m.setFault f).bank i = m.bank i := Mach.bank_congr (by simp) i
@[simp] theorem Mach.post_bank (m : Mach) (q : Nat) (b : List Byte) (d : Option (Fld × Nat)) (i : Nat) : (m.post q b d).bank i = m.bank i := Mach.bank_congr (by simp) i
@[simp] theorem Mach.until_bank (m : Mach) (t : Stamp) (i : Nat) : (m.until t).bank i = m.bank i := Mach.bank_congr (by simp) i
@[simp] theorem Mach.poke_bank (m : Mach) (k : Nat) (bs : List Byte) (i : Nat) : (m.poke k bs).bank i = m.bank i := Mach.bank_congr (by simp) i
@[simp] theorem Mach.setRg_slot (m : Mach) (a : Nat) (v : W32) (i : Nat) : (m.setRg a v).slot i = m.slot i := Mach.slot_congr (by simp) i
@[simp] theorem Mach.setFld_slot (m : Mach) (f : Fld) (j v : Nat) (i : Nat) : (m.setFld f j v).slot i = m.slot i := Mach.slot_congr (by simp) i
@[simp] theorem Mach.setFlg_slot (m : Mach) (f : Fld) (j : Nat) (b : Bool) (i : Nat) : (m.setFlg f j b).slot i = m.slot i := Mach.slot_congr (by simp) i
@[simp] theorem Mach.raise_slot (m : Mach) (f : Fld) (j : Nat) (i : Nat) : (m.raise f j).slot i = m.slot i := Mach.slot_congr (by simp) i
@[simp] theorem Mach.raiseIf_slot (m : Mach) (b : Bool) (f : Fld) (j : Nat) (i : Nat) : (m.raiseIf b f j).slot i = m.slot i := Mach.slot_congr (by simp) i
@[simp] theorem Mach.countSat_slot (m : Mach) (f : Fld) (j n : Nat) (i : Nat) : (m.countSat f j n).slot i = m.slot i := Mach.slot_congr (by simp) i
@[simp] theorem Mach.countMod_slot (m : Mach) (f : Fld) (j n : Nat) (i : Nat) : (m.countMod f j n).slot i = m.slot i := Mach.slot_congr (by simp) i
@[simp] theorem Mach.refreshFault_slot (m : Mach)  (i : Nat) : (m.refreshFault ).slot i = m.slot i := Mach.slot_congr (by simp) i
@[simp] theorem Mach.setFault_slot (m : Mach) (f : Fld) (i : Nat) : (m.setFault f).slot i = m.slot i := Mach.slot_congr (by simp) i
@[simp] theorem Mach.post_slot (m : Mach) (q : Nat) (b : List Byte) (d : Option (Fld × Nat)) (i : Nat) : (m.post q b d).slot i = m.slot i := Mach.slot_congr (by simp) i
@[simp] theorem Mach.until_slot (m : Mach) (t : Stamp) (i : Nat) : (m.until t).slot i = m.slot i := Mach.slot_congr (by simp) i
@[simp] theorem Mach.poke_slot (m : Mach) (k : Nat) (bs : List Byte) (i : Nat) : (m.poke k bs).slot i = m.slot i := Mach.slot_congr (by simp) i
@[simp] theorem Mach.setRg_cell (m : Mach) (a : Nat) (v : W32) (i : Nat) : (m.setRg a v).cell i = m.cell i := Mach.cell_congr (by simp) i
@[simp] theorem Mach.setFld_cell (m : Mach) (f : Fld) (j v : Nat) (i : Nat) : (m.setFld f j v).cell i = m.cell i := Mach.cell_congr (by simp) i
@[simp] theorem Mach.setFlg_cell (m : Mach) (f : Fld) (j : Nat) (b : Bool) (i : Nat) : (m.setFlg f j b).cell i = m.cell i := Mach.cell_congr (by simp) i
@[simp] theorem Mach.raise_cell (m : Mach) (f : Fld) (j : Nat) (i : Nat) : (m.raise f j).cell i = m.cell i := Mach.cell_congr (by simp) i
@[simp] theorem Mach.raiseIf_cell (m : Mach) (b : Bool) (f : Fld) (j : Nat) (i : Nat) : (m.raiseIf b f j).cell i = m.cell i := Mach.cell_congr (by simp) i
@[simp] theorem Mach.countSat_cell (m : Mach) (f : Fld) (j n : Nat) (i : Nat) : (m.countSat f j n).cell i = m.cell i := Mach.cell_congr (by simp) i
@[simp] theorem Mach.countMod_cell (m : Mach) (f : Fld) (j n : Nat) (i : Nat) : (m.countMod f j n).cell i = m.cell i := Mach.cell_congr (by simp) i
@[simp] theorem Mach.refreshFault_cell (m : Mach)  (i : Nat) : (m.refreshFault ).cell i = m.cell i := Mach.cell_congr (by simp) i
@[simp] theorem Mach.setFault_cell (m : Mach) (f : Fld) (i : Nat) : (m.setFault f).cell i = m.cell i := Mach.cell_congr (by simp) i
@[simp] theorem Mach.post_cell (m : Mach) (q : Nat) (b : List Byte) (d : Option (Fld × Nat)) (i : Nat) : (m.post q b d).cell i = m.cell i := Mach.cell_congr (by simp) i
@[simp] theorem Mach.until_cell (m : Mach) (t : Stamp) (i : Nat) : (m.until t).cell i = m.cell i := Mach.cell_congr (by simp) i
@[simp] theorem Mach.poke_cell (m : Mach) (k : Nat) (bs : List Byte) (i : Nat) : (m.poke k bs).cell i = m.cell i := Mach.cell_congr (by simp) i
@[simp] theorem Mach.setRg_cmp (m : Mach) (a : Nat) (v : W32) (i : Nat) : (m.setRg a v).cmp i = m.cmp i := Mach.cmp_congr (by simp) i
@[simp] theorem Mach.setFld_cmp (m : Mach) (f : Fld) (j v : Nat) (i : Nat) : (m.setFld f j v).cmp i = m.cmp i := Mach.cmp_congr (by simp) i
@[simp] theorem Mach.setFlg_cmp (m : Mach) (f : Fld) (j : Nat) (b : Bool) (i : Nat) : (m.setFlg f j b).cmp i = m.cmp i := Mach.cmp_congr (by simp) i
@[simp] theorem Mach.raise_cmp (m : Mach) (f : Fld) (j : Nat) (i : Nat) : (m.raise f j).cmp i = m.cmp i := Mach.cmp_congr (by simp) i
@[simp] theorem Mach.raiseIf_cmp (m : Mach) (b : Bool) (f : Fld) (j : Nat) (i : Nat) : (m.raiseIf b f j).cmp i = m.cmp i := Mach.cmp_congr (by simp) i
@[simp] theorem Mach.countSat_cmp (m : Mach) (f : Fld) (j n : Nat) (i : Nat) : (m.countSat f j n).cmp i = m.cmp i := Mach.cmp_congr (by simp) i
@[simp] theorem Mach.countMod_cmp (m : Mach) (f : Fld) (j n : Nat) (i : Nat) : (m.countMod f j n).cmp i = m.cmp i := Mach.cmp_congr (by simp) i
@[simp] theorem Mach.refreshFault_cmp (m : Mach)  (i : Nat) : (m.refreshFault ).cmp i = m.cmp i := Mach.cmp_congr (by simp) i
@[simp] theorem Mach.setFault_cmp (m : Mach) (f : Fld) (i : Nat) : (m.setFault f).cmp i = m.cmp i := Mach.cmp_congr (by simp) i
@[simp] theorem Mach.post_cmp (m : Mach) (q : Nat) (b : List Byte) (d : Option (Fld × Nat)) (i : Nat) : (m.post q b d).cmp i = m.cmp i := Mach.cmp_congr (by simp) i
@[simp] theorem Mach.until_cmp (m : Mach) (t : Stamp) (i : Nat) : (m.until t).cmp i = m.cmp i := Mach.cmp_congr (by simp) i
@[simp] theorem Mach.poke_cmp (m : Mach) (k : Nat) (bs : List Byte) (i : Nat) : (m.poke k bs).cmp i = m.cmp i := Mach.cmp_congr (by simp) i
@[simp] theorem Mach.setRg_port (m : Mach) (a : Nat) (v : W32) (i : Nat) : (m.setRg a v).port i = m.port i := Mach.port_congr (by simp) i
@[simp] theorem Mach.setFld_port (m : Mach) (f : Fld) (j v : Nat) (i : Nat) : (m.setFld f j v).port i = m.port i := Mach.port_congr (by simp) i
@[simp] theorem Mach.setFlg_port (m : Mach) (f : Fld) (j : Nat) (b : Bool) (i : Nat) : (m.setFlg f j b).port i = m.port i := Mach.port_congr (by simp) i
@[simp] theorem Mach.raise_port (m : Mach) (f : Fld) (j : Nat) (i : Nat) : (m.raise f j).port i = m.port i := Mach.port_congr (by simp) i
@[simp] theorem Mach.raiseIf_port (m : Mach) (b : Bool) (f : Fld) (j : Nat) (i : Nat) : (m.raiseIf b f j).port i = m.port i := Mach.port_congr (by simp) i
@[simp] theorem Mach.countSat_port (m : Mach) (f : Fld) (j n : Nat) (i : Nat) : (m.countSat f j n).port i = m.port i := Mach.port_congr (by simp) i
@[simp] theorem Mach.countMod_port (m : Mach) (f : Fld) (j n : Nat) (i : Nat) : (m.countMod f j n).port i = m.port i := Mach.port_congr (by simp) i
@[simp] theorem Mach.refreshFault_port (m : Mach)  (i : Nat) : (m.refreshFault ).port i = m.port i := Mach.port_congr (by simp) i
@[simp] theorem Mach.setFault_port (m : Mach) (f : Fld) (i : Nat) : (m.setFault f).port i = m.port i := Mach.port_congr (by simp) i
@[simp] theorem Mach.post_port (m : Mach) (q : Nat) (b : List Byte) (d : Option (Fld × Nat)) (i : Nat) : (m.post q b d).port i = m.port i := Mach.port_congr (by simp) i
@[simp] theorem Mach.until_port (m : Mach) (t : Stamp) (i : Nat) : (m.until t).port i = m.port i := Mach.port_congr (by simp) i
@[simp] theorem Mach.poke_port (m : Mach) (k : Nat) (bs : List Byte) (i : Nat) : (m.poke k bs).port i = m.port i := Mach.port_congr (by simp) i
@[simp] theorem Mach.setRg_wd (m : Mach) (a : Nat) (v : W32) (i : Nat) : (m.setRg a v).wd i = m.wd i := Mach.wd_congr (by simp) i
@[simp] theorem Mach.setFld_wd (m : Mach) (f : Fld) (j v : Nat) (i : Nat) : (m.setFld f j v).wd i = m.wd i := Mach.wd_congr (by simp) i
@[simp] theorem Mach.setFlg_wd (m : Mach) (f : Fld) (j : Nat) (b : Bool) (i : Nat) : (m.setFlg f j b).wd i = m.wd i := Mach.wd_congr (by simp) i
@[simp] theorem Mach.raise_wd (m : Mach) (f : Fld) (j : Nat) (i : Nat) : (m.raise f j).wd i = m.wd i := Mach.wd_congr (by simp) i
@[simp] theorem Mach.raiseIf_wd (m : Mach) (b : Bool) (f : Fld) (j : Nat) (i : Nat) : (m.raiseIf b f j).wd i = m.wd i := Mach.wd_congr (by simp) i
@[simp] theorem Mach.countSat_wd (m : Mach) (f : Fld) (j n : Nat) (i : Nat) : (m.countSat f j n).wd i = m.wd i := Mach.wd_congr (by simp) i
@[simp] theorem Mach.countMod_wd (m : Mach) (f : Fld) (j n : Nat) (i : Nat) : (m.countMod f j n).wd i = m.wd i := Mach.wd_congr (by simp) i
@[simp] theorem Mach.refreshFault_wd (m : Mach)  (i : Nat) : (m.refreshFault ).wd i = m.wd i := Mach.wd_congr (by simp) i
@[simp] theorem Mach.setFault_wd (m : Mach) (f : Fld) (i : Nat) : (m.setFault f).wd i = m.wd i := Mach.wd_congr (by simp) i
@[simp] theorem Mach.post_wd (m : Mach) (q : Nat) (b : List Byte) (d : Option (Fld × Nat)) (i : Nat) : (m.post q b d).wd i = m.wd i := Mach.wd_congr (by simp) i
@[simp] theorem Mach.until_wd (m : Mach) (t : Stamp) (i : Nat) : (m.until t).wd i = m.wd i := Mach.wd_congr (by simp) i
@[simp] theorem Mach.poke_wd (m : Mach) (k : Nat) (bs : List Byte) (i : Nat) : (m.poke k bs).wd i = m.wd i := Mach.wd_congr (by simp) i
@[simp] theorem Mach.setRg_reed (m : Mach) (a : Nat) (v : W32) (i : Nat) : (m.setRg a v).reed i = m.reed i := Mach.reed_congr (by simp) i
@[simp] theorem Mach.setFld_reed (m : Mach) (f : Fld) (j v : Nat) (i : Nat) : (m.setFld f j v).reed i = m.reed i := Mach.reed_congr (by simp) i
@[simp] theorem Mach.setFlg_reed (m : Mach) (f : Fld) (j : Nat) (b : Bool) (i : Nat) : (m.setFlg f j b).reed i = m.reed i := Mach.reed_congr (by simp) i
@[simp] theorem Mach.raise_reed (m : Mach) (f : Fld) (j : Nat) (i : Nat) : (m.raise f j).reed i = m.reed i := Mach.reed_congr (by simp) i
@[simp] theorem Mach.raiseIf_reed (m : Mach) (b : Bool) (f : Fld) (j : Nat) (i : Nat) : (m.raiseIf b f j).reed i = m.reed i := Mach.reed_congr (by simp) i
@[simp] theorem Mach.countSat_reed (m : Mach) (f : Fld) (j n : Nat) (i : Nat) : (m.countSat f j n).reed i = m.reed i := Mach.reed_congr (by simp) i
@[simp] theorem Mach.countMod_reed (m : Mach) (f : Fld) (j n : Nat) (i : Nat) : (m.countMod f j n).reed i = m.reed i := Mach.reed_congr (by simp) i
@[simp] theorem Mach.refreshFault_reed (m : Mach)  (i : Nat) : (m.refreshFault ).reed i = m.reed i := Mach.reed_congr (by simp) i
@[simp] theorem Mach.setFault_reed (m : Mach) (f : Fld) (i : Nat) : (m.setFault f).reed i = m.reed i := Mach.reed_congr (by simp) i
@[simp] theorem Mach.post_reed (m : Mach) (q : Nat) (b : List Byte) (d : Option (Fld × Nat)) (i : Nat) : (m.post q b d).reed i = m.reed i := Mach.reed_congr (by simp) i
@[simp] theorem Mach.until_reed (m : Mach) (t : Stamp) (i : Nat) : (m.until t).reed i = m.reed i := Mach.reed_congr (by simp) i
@[simp] theorem Mach.poke_reed (m : Mach) (k : Nat) (bs : List Byte) (i : Nat) : (m.poke k bs).reed i = m.reed i := Mach.reed_congr (by simp) i
@[simp] theorem Mach.setRg_pair (m : Mach) (a : Nat) (v : W32) (i : Nat) : (m.setRg a v).pair i = m.pair i := Mach.pair_congr (by simp) i
@[simp] theorem Mach.setFld_pair (m : Mach) (f : Fld) (j v : Nat) (i : Nat) : (m.setFld f j v).pair i = m.pair i := Mach.pair_congr (by simp) i
@[simp] theorem Mach.setFlg_pair (m : Mach) (f : Fld) (j : Nat) (b : Bool) (i : Nat) : (m.setFlg f j b).pair i = m.pair i := Mach.pair_congr (by simp) i
@[simp] theorem Mach.raise_pair (m : Mach) (f : Fld) (j : Nat) (i : Nat) : (m.raise f j).pair i = m.pair i := Mach.pair_congr (by simp) i
@[simp] theorem Mach.raiseIf_pair (m : Mach) (b : Bool) (f : Fld) (j : Nat) (i : Nat) : (m.raiseIf b f j).pair i = m.pair i := Mach.pair_congr (by simp) i
@[simp] theorem Mach.countSat_pair (m : Mach) (f : Fld) (j n : Nat) (i : Nat) : (m.countSat f j n).pair i = m.pair i := Mach.pair_congr (by simp) i
@[simp] theorem Mach.countMod_pair (m : Mach) (f : Fld) (j n : Nat) (i : Nat) : (m.countMod f j n).pair i = m.pair i := Mach.pair_congr (by simp) i
@[simp] theorem Mach.refreshFault_pair (m : Mach)  (i : Nat) : (m.refreshFault ).pair i = m.pair i := Mach.pair_congr (by simp) i
@[simp] theorem Mach.setFault_pair (m : Mach) (f : Fld) (i : Nat) : (m.setFault f).pair i = m.pair i := Mach.pair_congr (by simp) i
@[simp] theorem Mach.post_pair (m : Mach) (q : Nat) (b : List Byte) (d : Option (Fld × Nat)) (i : Nat) : (m.post q b d).pair i = m.pair i := Mach.pair_congr (by simp) i
@[simp] theorem Mach.until_pair (m : Mach) (t : Stamp) (i : Nat) : (m.until t).pair i = m.pair i := Mach.pair_congr (by simp) i
@[simp] theorem Mach.poke_pair (m : Mach) (k : Nat) (bs : List Byte) (i : Nat) : (m.poke k bs).pair i = m.pair i := Mach.pair_congr (by simp) i
@[simp] theorem Mach.setRg_eth (m : Mach) (a : Nat) (v : W32) (i : Nat) : (m.setRg a v).eth i = m.eth i := Mach.eth_congr (by simp) i
@[simp] theorem Mach.setFld_eth (m : Mach) (f : Fld) (j v : Nat) (i : Nat) : (m.setFld f j v).eth i = m.eth i := Mach.eth_congr (by simp) i
@[simp] theorem Mach.setFlg_eth (m : Mach) (f : Fld) (j : Nat) (b : Bool) (i : Nat) : (m.setFlg f j b).eth i = m.eth i := Mach.eth_congr (by simp) i
@[simp] theorem Mach.raise_eth (m : Mach) (f : Fld) (j : Nat) (i : Nat) : (m.raise f j).eth i = m.eth i := Mach.eth_congr (by simp) i
@[simp] theorem Mach.raiseIf_eth (m : Mach) (b : Bool) (f : Fld) (j : Nat) (i : Nat) : (m.raiseIf b f j).eth i = m.eth i := Mach.eth_congr (by simp) i
@[simp] theorem Mach.countSat_eth (m : Mach) (f : Fld) (j n : Nat) (i : Nat) : (m.countSat f j n).eth i = m.eth i := Mach.eth_congr (by simp) i
@[simp] theorem Mach.countMod_eth (m : Mach) (f : Fld) (j n : Nat) (i : Nat) : (m.countMod f j n).eth i = m.eth i := Mach.eth_congr (by simp) i
@[simp] theorem Mach.refreshFault_eth (m : Mach)  (i : Nat) : (m.refreshFault ).eth i = m.eth i := Mach.eth_congr (by simp) i
@[simp] theorem Mach.setFault_eth (m : Mach) (f : Fld) (i : Nat) : (m.setFault f).eth i = m.eth i := Mach.eth_congr (by simp) i
@[simp] theorem Mach.post_eth (m : Mach) (q : Nat) (b : List Byte) (d : Option (Fld × Nat)) (i : Nat) : (m.post q b d).eth i = m.eth i := Mach.eth_congr (by simp) i
@[simp] theorem Mach.until_eth (m : Mach) (t : Stamp) (i : Nat) : (m.until t).eth i = m.eth i := Mach.eth_congr (by simp) i
@[simp] theorem Mach.poke_eth (m : Mach) (k : Nat) (bs : List Byte) (i : Nat) : (m.poke k bs).eth i = m.eth i := Mach.eth_congr (by simp) i
@[simp] theorem Mach.setRg_sto (m : Mach) (a : Nat) (v : W32) (i : Nat) : (m.setRg a v).sto i = m.sto i := Mach.sto_congr (by simp) i
@[simp] theorem Mach.setFld_sto (m : Mach) (f : Fld) (j v : Nat) (i : Nat) : (m.setFld f j v).sto i = m.sto i := Mach.sto_congr (by simp) i
@[simp] theorem Mach.setFlg_sto (m : Mach) (f : Fld) (j : Nat) (b : Bool) (i : Nat) : (m.setFlg f j b).sto i = m.sto i := Mach.sto_congr (by simp) i
@[simp] theorem Mach.raise_sto (m : Mach) (f : Fld) (j : Nat) (i : Nat) : (m.raise f j).sto i = m.sto i := Mach.sto_congr (by simp) i
@[simp] theorem Mach.raiseIf_sto (m : Mach) (b : Bool) (f : Fld) (j : Nat) (i : Nat) : (m.raiseIf b f j).sto i = m.sto i := Mach.sto_congr (by simp) i
@[simp] theorem Mach.countSat_sto (m : Mach) (f : Fld) (j n : Nat) (i : Nat) : (m.countSat f j n).sto i = m.sto i := Mach.sto_congr (by simp) i
@[simp] theorem Mach.countMod_sto (m : Mach) (f : Fld) (j n : Nat) (i : Nat) : (m.countMod f j n).sto i = m.sto i := Mach.sto_congr (by simp) i
@[simp] theorem Mach.refreshFault_sto (m : Mach)  (i : Nat) : (m.refreshFault ).sto i = m.sto i := Mach.sto_congr (by simp) i
@[simp] theorem Mach.setFault_sto (m : Mach) (f : Fld) (i : Nat) : (m.setFault f).sto i = m.sto i := Mach.sto_congr (by simp) i
@[simp] theorem Mach.post_sto (m : Mach) (q : Nat) (b : List Byte) (d : Option (Fld × Nat)) (i : Nat) : (m.post q b d).sto i = m.sto i := Mach.sto_congr (by simp) i
@[simp] theorem Mach.until_sto (m : Mach) (t : Stamp) (i : Nat) : (m.until t).sto i = m.sto i := Mach.sto_congr (by simp) i
@[simp] theorem Mach.poke_sto (m : Mach) (k : Nat) (bs : List Byte) (i : Nat) : (m.poke k bs).sto i = m.sto i := Mach.sto_congr (by simp) i
@[simp] theorem Mach.setRg_vis (m : Mach) (a : Nat) (v : W32) (i : Nat) : (m.setRg a v).vis i = m.vis i := Mach.vis_congr (by simp) i
@[simp] theorem Mach.setFld_vis (m : Mach) (f : Fld) (j v : Nat) (i : Nat) : (m.setFld f j v).vis i = m.vis i := Mach.vis_congr (by simp) i
@[simp] theorem Mach.setFlg_vis (m : Mach) (f : Fld) (j : Nat) (b : Bool) (i : Nat) : (m.setFlg f j b).vis i = m.vis i := Mach.vis_congr (by simp) i
@[simp] theorem Mach.raise_vis (m : Mach) (f : Fld) (j : Nat) (i : Nat) : (m.raise f j).vis i = m.vis i := Mach.vis_congr (by simp) i
@[simp] theorem Mach.raiseIf_vis (m : Mach) (b : Bool) (f : Fld) (j : Nat) (i : Nat) : (m.raiseIf b f j).vis i = m.vis i := Mach.vis_congr (by simp) i
@[simp] theorem Mach.countSat_vis (m : Mach) (f : Fld) (j n : Nat) (i : Nat) : (m.countSat f j n).vis i = m.vis i := Mach.vis_congr (by simp) i
@[simp] theorem Mach.countMod_vis (m : Mach) (f : Fld) (j n : Nat) (i : Nat) : (m.countMod f j n).vis i = m.vis i := Mach.vis_congr (by simp) i
@[simp] theorem Mach.refreshFault_vis (m : Mach)  (i : Nat) : (m.refreshFault ).vis i = m.vis i := Mach.vis_congr (by simp) i
@[simp] theorem Mach.setFault_vis (m : Mach) (f : Fld) (i : Nat) : (m.setFault f).vis i = m.vis i := Mach.vis_congr (by simp) i
@[simp] theorem Mach.post_vis (m : Mach) (q : Nat) (b : List Byte) (d : Option (Fld × Nat)) (i : Nat) : (m.post q b d).vis i = m.vis i := Mach.vis_congr (by simp) i
@[simp] theorem Mach.until_vis (m : Mach) (t : Stamp) (i : Nat) : (m.until t).vis i = m.vis i := Mach.vis_congr (by simp) i
@[simp] theorem Mach.poke_vis (m : Mach) (k : Nat) (bs : List Byte) (i : Nat) : (m.poke k bs).vis i = m.vis i := Mach.vis_congr (by simp) i
@[simp] theorem Mach.setRg_stage (m : Mach) (a : Nat) (v : W32) (i : Nat) : (m.setRg a v).stage i = m.stage i := Mach.stage_congr (by simp) i
@[simp] theorem Mach.setFld_stage (m : Mach) (f : Fld) (j v : Nat) (i : Nat) : (m.setFld f j v).stage i = m.stage i := Mach.stage_congr (by simp) i
@[simp] theorem Mach.setFlg_stage (m : Mach) (f : Fld) (j : Nat) (b : Bool) (i : Nat) : (m.setFlg f j b).stage i = m.stage i := Mach.stage_congr (by simp) i
@[simp] theorem Mach.raise_stage (m : Mach) (f : Fld) (j : Nat) (i : Nat) : (m.raise f j).stage i = m.stage i := Mach.stage_congr (by simp) i
@[simp] theorem Mach.raiseIf_stage (m : Mach) (b : Bool) (f : Fld) (j : Nat) (i : Nat) : (m.raiseIf b f j).stage i = m.stage i := Mach.stage_congr (by simp) i
@[simp] theorem Mach.countSat_stage (m : Mach) (f : Fld) (j n : Nat) (i : Nat) : (m.countSat f j n).stage i = m.stage i := Mach.stage_congr (by simp) i
@[simp] theorem Mach.countMod_stage (m : Mach) (f : Fld) (j n : Nat) (i : Nat) : (m.countMod f j n).stage i = m.stage i := Mach.stage_congr (by simp) i
@[simp] theorem Mach.refreshFault_stage (m : Mach)  (i : Nat) : (m.refreshFault ).stage i = m.stage i := Mach.stage_congr (by simp) i
@[simp] theorem Mach.setFault_stage (m : Mach) (f : Fld) (i : Nat) : (m.setFault f).stage i = m.stage i := Mach.stage_congr (by simp) i
@[simp] theorem Mach.post_stage (m : Mach) (q : Nat) (b : List Byte) (d : Option (Fld × Nat)) (i : Nat) : (m.post q b d).stage i = m.stage i := Mach.stage_congr (by simp) i
@[simp] theorem Mach.until_stage (m : Mach) (t : Stamp) (i : Nat) : (m.until t).stage i = m.stage i := Mach.stage_congr (by simp) i
@[simp] theorem Mach.poke_stage (m : Mach) (k : Nat) (bs : List Byte) (i : Nat) : (m.poke k bs).stage i = m.stage i := Mach.stage_congr (by simp) i

/-! ### Words and fields after a unit, time, a record or memory was set -/

@[simp] theorem Mach.setSlice_rg (m : Mach) (j : Nat) (d : Slice) (a : Nat) : (m.setSlice j d).rg a = m.rg a := rfl
@[simp] theorem Mach.setSlice_fld (m : Mach) (j : Nat) (d : Slice) (f : Fld) (i : Nat) : (m.setSlice j d).fld f i = m.fld f i := rfl
@[simp] theorem Mach.setSlice_flg (m : Mach) (j : Nat) (d : Slice) (f : Fld) (i : Nat) : (m.setSlice j d).flg f i = m.flg f i := rfl
@[simp] theorem Mach.setTimer_rg (m : Mach) (j : Nat) (d : Timer) (a : Nat) : (m.setTimer j d).rg a = m.rg a := rfl
@[simp] theorem Mach.setTimer_fld (m : Mach) (j : Nat) (d : Timer) (f : Fld) (i : Nat) : (m.setTimer j d).fld f i = m.fld f i := rfl
@[simp] theorem Mach.setTimer_flg (m : Mach) (j : Nat) (d : Timer) (f : Fld) (i : Nat) : (m.setTimer j d).flg f i = m.flg f i := rfl
@[simp] theorem Mach.setGroup_rg (m : Mach) (j : Nat) (d : Group) (a : Nat) : (m.setGroup j d).rg a = m.rg a := rfl
@[simp] theorem Mach.setGroup_fld (m : Mach) (j : Nat) (d : Group) (f : Fld) (i : Nat) : (m.setGroup j d).fld f i = m.fld f i := rfl
@[simp] theorem Mach.setGroup_flg (m : Mach) (j : Nat) (d : Group) (f : Fld) (i : Nat) : (m.setGroup j d).flg f i = m.flg f i := rfl
@[simp] theorem Mach.setWin_rg (m : Mach) (j : Nat) (d : Win) (a : Nat) : (m.setWin j d).rg a = m.rg a := rfl
@[simp] theorem Mach.setWin_fld (m : Mach) (j : Nat) (d : Win) (f : Fld) (i : Nat) : (m.setWin j d).fld f i = m.fld f i := rfl
@[simp] theorem Mach.setWin_flg (m : Mach) (j : Nat) (d : Win) (f : Fld) (i : Nat) : (m.setWin j d).flg f i = m.flg f i := rfl
@[simp] theorem Mach.setBank_rg (m : Mach) (j : Nat) (d : Bank) (a : Nat) : (m.setBank j d).rg a = m.rg a := rfl
@[simp] theorem Mach.setBank_fld (m : Mach) (j : Nat) (d : Bank) (f : Fld) (i : Nat) : (m.setBank j d).fld f i = m.fld f i := rfl
@[simp] theorem Mach.setBank_flg (m : Mach) (j : Nat) (d : Bank) (f : Fld) (i : Nat) : (m.setBank j d).flg f i = m.flg f i := rfl
@[simp] theorem Mach.setSlot_rg (m : Mach) (j : Nat) (d : Slot) (a : Nat) : (m.setSlot j d).rg a = m.rg a := rfl
@[simp] theorem Mach.setSlot_fld (m : Mach) (j : Nat) (d : Slot) (f : Fld) (i : Nat) : (m.setSlot j d).fld f i = m.fld f i := rfl
@[simp] theorem Mach.setSlot_flg (m : Mach) (j : Nat) (d : Slot) (f : Fld) (i : Nat) : (m.setSlot j d).flg f i = m.flg f i := rfl
@[simp] theorem Mach.setCell_rg (m : Mach) (j : Nat) (d : Cell) (a : Nat) : (m.setCell j d).rg a = m.rg a := rfl
@[simp] theorem Mach.setCell_fld (m : Mach) (j : Nat) (d : Cell) (f : Fld) (i : Nat) : (m.setCell j d).fld f i = m.fld f i := rfl
@[simp] theorem Mach.setCell_flg (m : Mach) (j : Nat) (d : Cell) (f : Fld) (i : Nat) : (m.setCell j d).flg f i = m.flg f i := rfl
@[simp] theorem Mach.setCmp_rg (m : Mach) (j : Nat) (d : Cmp) (a : Nat) : (m.setCmp j d).rg a = m.rg a := rfl
@[simp] theorem Mach.setCmp_fld (m : Mach) (j : Nat) (d : Cmp) (f : Fld) (i : Nat) : (m.setCmp j d).fld f i = m.fld f i := rfl
@[simp] theorem Mach.setCmp_flg (m : Mach) (j : Nat) (d : Cmp) (f : Fld) (i : Nat) : (m.setCmp j d).flg f i = m.flg f i := rfl
@[simp] theorem Mach.setPort_rg (m : Mach) (j : Nat) (d : Port) (a : Nat) : (m.setPort j d).rg a = m.rg a := rfl
@[simp] theorem Mach.setPort_fld (m : Mach) (j : Nat) (d : Port) (f : Fld) (i : Nat) : (m.setPort j d).fld f i = m.fld f i := rfl
@[simp] theorem Mach.setPort_flg (m : Mach) (j : Nat) (d : Port) (f : Fld) (i : Nat) : (m.setPort j d).flg f i = m.flg f i := rfl
@[simp] theorem Mach.setWd_rg (m : Mach) (j : Nat) (d : Wd) (a : Nat) : (m.setWd j d).rg a = m.rg a := rfl
@[simp] theorem Mach.setWd_fld (m : Mach) (j : Nat) (d : Wd) (f : Fld) (i : Nat) : (m.setWd j d).fld f i = m.fld f i := rfl
@[simp] theorem Mach.setWd_flg (m : Mach) (j : Nat) (d : Wd) (f : Fld) (i : Nat) : (m.setWd j d).flg f i = m.flg f i := rfl
@[simp] theorem Mach.setReed_rg (m : Mach) (j : Nat) (d : Reed) (a : Nat) : (m.setReed j d).rg a = m.rg a := rfl
@[simp] theorem Mach.setReed_fld (m : Mach) (j : Nat) (d : Reed) (f : Fld) (i : Nat) : (m.setReed j d).fld f i = m.fld f i := rfl
@[simp] theorem Mach.setReed_flg (m : Mach) (j : Nat) (d : Reed) (f : Fld) (i : Nat) : (m.setReed j d).flg f i = m.flg f i := rfl
@[simp] theorem Mach.setPair_rg (m : Mach) (j : Nat) (d : Pair) (a : Nat) : (m.setPair j d).rg a = m.rg a := rfl
@[simp] theorem Mach.setPair_fld (m : Mach) (j : Nat) (d : Pair) (f : Fld) (i : Nat) : (m.setPair j d).fld f i = m.fld f i := rfl
@[simp] theorem Mach.setPair_flg (m : Mach) (j : Nat) (d : Pair) (f : Fld) (i : Nat) : (m.setPair j d).flg f i = m.flg f i := rfl
@[simp] theorem Mach.setEth_rg (m : Mach) (j : Nat) (d : EthP) (a : Nat) : (m.setEth j d).rg a = m.rg a := rfl
@[simp] theorem Mach.setEth_fld (m : Mach) (j : Nat) (d : EthP) (f : Fld) (i : Nat) : (m.setEth j d).fld f i = m.fld f i := rfl
@[simp] theorem Mach.setEth_flg (m : Mach) (j : Nat) (d : EthP) (f : Fld) (i : Nat) : (m.setEth j d).flg f i = m.flg f i := rfl
@[simp] theorem Mach.setSto_rg (m : Mach) (j : Nat) (d : StoIn) (a : Nat) : (m.setSto j d).rg a = m.rg a := rfl
@[simp] theorem Mach.setSto_fld (m : Mach) (j : Nat) (d : StoIn) (f : Fld) (i : Nat) : (m.setSto j d).fld f i = m.fld f i := rfl
@[simp] theorem Mach.setSto_flg (m : Mach) (j : Nat) (d : StoIn) (f : Fld) (i : Nat) : (m.setSto j d).flg f i = m.flg f i := rfl
@[simp] theorem Mach.setVis_rg (m : Mach) (j : Nat) (d : Vis) (a : Nat) : (m.setVis j d).rg a = m.rg a := rfl
@[simp] theorem Mach.setVis_fld (m : Mach) (j : Nat) (d : Vis) (f : Fld) (i : Nat) : (m.setVis j d).fld f i = m.fld f i := rfl
@[simp] theorem Mach.setVis_flg (m : Mach) (j : Nat) (d : Vis) (f : Fld) (i : Nat) : (m.setVis j d).flg f i = m.flg f i := rfl
@[simp] theorem Mach.setCore_rg (m : Mach) (j : Nat) (k : Core) (a : Nat) : (m.setCore j k).rg a = m.rg a := rfl
@[simp] theorem Mach.setCore_fld (m : Mach) (j : Nat) (k : Core) (f : Fld) (i : Nat) : (m.setCore j k).fld f i = m.fld f i := rfl
@[simp] theorem Mach.setCore_flg (m : Mach) (j : Nat) (k : Core) (f : Fld) (i : Nat) : (m.setCore j k).flg f i = m.flg f i := rfl
@[simp] theorem Mach.post_rg (m : Mach) (q : Nat) (b : List Byte) (d : Option (Fld × Nat)) (a : Nat) : (m.post q b d).rg a = m.rg a := rfl
@[simp] theorem Mach.post_fld (m : Mach) (q : Nat) (b : List Byte) (d : Option (Fld × Nat)) (f : Fld) (i : Nat) : (m.post q b d).fld f i = m.fld f i := rfl
@[simp] theorem Mach.post_flg (m : Mach) (q : Nat) (b : List Byte) (d : Option (Fld × Nat)) (f : Fld) (i : Nat) : (m.post q b d).flg f i = m.flg f i := rfl
@[simp] theorem Mach.until_rg (m : Mach) (t : Stamp) (a : Nat) : (m.until t).rg a = m.rg a := rfl
@[simp] theorem Mach.until_fld (m : Mach) (t : Stamp) (f : Fld) (i : Nat) : (m.until t).fld f i = m.fld f i := rfl
@[simp] theorem Mach.until_flg (m : Mach) (t : Stamp) (f : Fld) (i : Nat) : (m.until t).flg f i = m.flg f i := rfl
@[simp] theorem Mach.poke_rg (m : Mach) (k : Nat) (bs : List Byte) (a : Nat) : (m.poke k bs).rg a = m.rg a := rfl
@[simp] theorem Mach.poke_fld (m : Mach) (k : Nat) (bs : List Byte) (f : Fld) (i : Nat) : (m.poke k bs).fld f i = m.fld f i := rfl
@[simp] theorem Mach.poke_flg (m : Mach) (k : Nat) (bs : List Byte) (f : Fld) (i : Nat) : (m.poke k bs).flg f i = m.flg f i := rfl
@[simp] theorem Mach.unreserve_rg (m : Mach) (k n : Nat) (a : Nat) : (m.unreserve k n).rg a = m.rg a := rfl
@[simp] theorem Mach.unreserve_fld (m : Mach) (k n : Nat) (f : Fld) (i : Nat) : (m.unreserve k n).fld f i = m.fld f i := rfl
@[simp] theorem Mach.unreserve_flg (m : Mach) (k n : Nat) (f : Fld) (i : Nat) : (m.unreserve k n).flg f i = m.flg f i := rfl

end Sys2Proof.Machine
end

