-- ==== Sys2Proof/Laws/Step.lean ====
section
/-! SUPPORT. How a row's meaning, an access and what follows a command come out: the lemmas that spare a proof their unfolding. -/

namespace Sys2Proof.Machine

/-! ### A row's meaning -/

/-- A row of a part out of reset completes with its effect. -/
theorem State.completes_of_act {s : State} {c : Instr} {f : Mach → Mach} {P : Mach → Prop} (h : s.m.held = []) (he : exec c s = s.act f)
    (hp : P (f s.m)) : s.Completes c P :=
  ⟨f s.m, by rw [he, State.act]; simp [h], hp⟩

/-- A row that reaches the part in reset completes with its effect. -/
theorem State.completes_of_actAlways {s : State} {c : Instr} {f : Mach → Mach} {P : Mach → Prop} (he : exec c s = s.actAlways f)
    (hp : P (f s.m)) : s.Completes c P := ⟨f s.m, by rw [he, State.actAlways], hp⟩

/-- A part held in reset is left as it is by every row that does not reach it. -/
theorem State.act_held (s : State) (f : Mach → Mach) (h : s.m.held ≠ []) : s.act f = .next s := by simp [State.act, h]

/-! ### What follows a command -/

theorem Mach.settle_held (m : Mach) (item : Nat) (h : m.held ≠ []) : m.settle item = m := by simp [Mach.settle, h]

/-- With no command in flight there is no context to walk through. -/
theorem Mach.eachCtx_nil (m : Mach) (f : Mach → Nat → Ctx → Mach) (h : m.tap.ctxs = []) : m.eachCtx f = m := by
  simp [Mach.eachCtx, h]

/-- Nothing follows a command in a quiet state. -/
theorem Mach.settle_quiet (m : Mach) (item : Nat) (h : m.Quiet) : m.settle item = m := by
  obtain ⟨hh, hs, hf, hc, he, hw⟩ := h
  have hsw : m.swapTry = m := by simp [Mach.swapTry, hw]
  have hm : { m with tap := { m.tap with events := [] } } = m := by rw [← he]
  have ht : m.tapSettle = m := by
    unfold Mach.tapSettle
    split
    · rfl
    · simp only [hsw, he, List.foldl_nil]
      rw [hm, Mach.eachCtx_nil m _ hc]
  simp [Mach.settle, hh, hs, hf, ht]

/-! ### Accesses in the device register range -/

/-- No memory answers in the device register range. -/
theorem memKey_dev (core : Option Nat) (a : Nat) (h : 0x30000000 ≤ a) (h' : a < 0x40000000) : memKey core a = none := by
  unfold memKey
  repeat rw [if_neg (by omega)]

theorem devAt_range {a n : Nat} (h : devAt a n = true) : 0x30000000 ≤ a ∧ a < 0x40000000 := by
  simp only [devAt, Bool.and_eq_true, decide_eq_true_eq] at h
  exact ⟨h.1.1.1.1, h.1.1.1.2⟩

theorem Mach.memAt_dev (m : Mach) (core : Option Nat) {a n : Nat} (h : devAt a n = true) : m.memAt core a n = none := by
  obtain ⟨h1, h2⟩ := devAt_range h
  simp [Mach.memAt, memKey_dev core a h1 h2]

/-- A House supervisor that is not the link may reach every register below the debug block, and that block too. -/
theorem Mach.accessErr_house (m : Mach) (w : Who) (core : Option Nat) {a n : Nat} (acc : Nat) (hg : w.guest = false) (hu : w.user = false)
    (hd : w.isDebug = false) (h : devAt a n = true) (hacc : acc ≠ 2) : m.accessErr w core a n acc = none := by
  obtain ⟨h1, h2⟩ := devAt_range h
  simp [Mach.accessErr, hd, h, Mach.mayReach, memKey_dev core a h1 h2, hg, hu, hacc]

/-- A 32-bit write by a House supervisor is the write of that register, answered written. -/
theorem Mach.writeReg32_house (m : Mach) (r : Req) (a : Nat) (v : W32) (hr : m.HouseSup r) (h : devAt a 4 = true) :
    m.writeReg32 r a v = { m.writeDev (m.who r) a 4 (v.setWidth 64) with resp := .written } := by
  obtain ⟨hg, hu, hd, hw⟩ := hr
  simp [Mach.writeReg32, Mach.writeBy, Mach.access, hw, Mach.busWrite, Mach.accessErr_house m (m.who r) _ 1 hg hu hd h (by decide), Mach.memAt_dev m _ h]

theorem Mach.readBy_house (m : Mach) (r : Req) (a n : Nat) (hr : m.HouseSup r) (h : devAt a n = true) :
    m.readBy r a n = { (m.readDev (m.who r) false a n).2 with resp := .data (m.readDev (m.who r) false a n).1 } := by
  obtain ⟨hg, hu, hd, hw⟩ := hr
  have ho : decide ((m.who r).req = .debug false) = false := by
    simp only [decide_eq_false_iff_not]
    intro he
    simp [Who.isDebug, he] at hd
  simp [Mach.readBy, Mach.access, hw, Mach.busRead, Mach.accessErr_house m (m.who r) _ 0 hg hu hd h (by decide), Mach.memAt_dev m _ h, ho]

/-! ### Blocks of addresses -/

theorem blkOf_sl (x o : Nat) (hx : x < 72) (ho : o < 0x10000) : blkOf (Blk.base .sl x + o) = some (.sl, x) := by
  rw [show Blk.base .sl x = 0x30000000 + 0x10000 * x from rfl]
  unfold blkOf
  repeat rw [if_neg (by omega)]
  rw [if_pos (by omega)]
  congr 2; omega

theorem blkOf_bank (b o : Nat) (hb : b < 16) (ho : o < 0x100) : blkOf (Blk.base .bank b + o) = some (.bank, b) := by
  rw [show Blk.base .bank b = 0x31000000 + 0x1000 * b from rfl]
  unfold blkOf
  repeat rw [if_neg (by omega)]
  rw [if_pos (by omega)]
  repeat rw [if_neg (by omega)]
  rw [if_pos (by omega)]
  congr 2; omega

theorem blkOf_cmp (c o : Nat) (hc : c < 256) (ho : o < 0x80) : blkOf (Blk.base .cmp c + o) = some (.cmp, c) := by
  rw [show Blk.base .cmp c = 0x31100000 + 0x100 * c from rfl]
  unfold blkOf
  repeat rw [if_neg (by omega)]
  rw [if_pos (by omega), if_neg (by omega)]
  congr 2; omega

theorem blkOf_port (p o : Nat) (hp : p < 72) (ho : o < 0x400) : blkOf (Blk.base .port p + o) = some (.port, p) := by
  rw [show Blk.base .port p = 0x31200000 + 0x400 * p from rfl]
  unfold blkOf
  repeat rw [if_neg (by omega)]
  rw [if_pos (by omega)]
  congr 2; omega

theorem blkOf_pg (g o : Nat) (hg : g < 16) (ho : o < 0x40) : blkOf (Blk.base .pg g + o) = some (.pg, g) := by
  rw [show Blk.base .pg g = 0x32000100 + 0x40 * g from rfl]
  unfold blkOf
  repeat rw [if_neg (by omega)]
  rw [if_pos (by omega)]
  congr 2; omega

theorem blkOf_tw (w o : Nat) (hw : w < 64) (ho : o < 0x40) : blkOf (Blk.base .tw w + o) = some (.tw, w) := by
  rw [show Blk.base .tw w = 0x32001000 + 0x40 * w from rfl]
  unfold blkOf
  repeat rw [if_neg (by omega)]
  rw [if_pos (by omega)]
  congr 2; omega

theorem blkOf_queue (q o : Nat) (hq : q < 4096) (ho : o < 0x20) : blkOf (Blk.base .queue q + o) = some (.queue, q) := by
  rw [show Blk.base .queue q = 0x33000000 + 0x20 * q from rfl]
  unfold blkOf
  repeat rw [if_neg (by omega)]
  rw [if_pos (by omega)]
  congr 2; omega

/-- An aligned address of a block is one the device register range takes. -/
theorem devAt_of_blk {a : Nat} {b : Blk × Nat} (h : blkOf a = some b) (hr : 0x30000000 ≤ a) (hr' : a < 0x40000000) (h4 : a % 4 = 0) :
    devAt a 4 = true := by simp [devAt, h, hr, hr', h4]

end Sys2Proof.Machine
end

