-- ==== Sys2Proof/Laws/Canonical.lean ====
section
/-! SUPPORT. The shared operations keep the register file, the open buffers, the contexts and the memories in their canonical form. -/

namespace Sys2Proof.Machine

/-! ### Registers, open buffers, contexts -/

/-- What leaves registers, staging sets and contexts keeps their form. -/
theorem Mach.regsWf_congr {m m' : Mach} (hr : m'.regs = m.regs) (hs : m'.stages = m.stages) (hc : m'.tap.ctxs = m.tap.ctxs) (h : m.RegsWf) :
    m'.RegsWf := by
  refine ⟨by rw [hr]; exact h.1, fun x => ?_, by rw [hc]; exact h.2.2⟩
  rw [Mach.stage_congr hs]
  exact h.2.1 x

theorem Mach.regsWf_setRg (m : Mach) (a : Nat) (v : W32) (h : m.RegsWf) : (m.setRg a v).RegsWf :=
  ⟨m.wf_regs_setRg a v h.1, fun x => h.2.1 x, h.2.2⟩

theorem Mach.regsWf_setFld (m : Mach) (f : Fld) (i v : Nat) (h : m.RegsWf) : (m.setFld f i v).RegsWf := by
  unfold Mach.setFld
  split
  · exact m.regsWf_setRg _ _ h
  · exact Mach.regsWf_setRg _ _ _ (m.regsWf_setRg _ _ h)

theorem Mach.regsWf_setFlg (m : Mach) (f : Fld) (i : Nat) (b : Bool) (h : m.RegsWf) : (m.setFlg f i b).RegsWf := m.regsWf_setFld _ _ _ h

theorem Mach.regsWf_raise (m : Mach) (f : Fld) (i : Nat) (h : m.RegsWf) : (m.raise f i).RegsWf := m.regsWf_setFld _ _ _ h

theorem Mach.regsWf_raiseIf (m : Mach) (b : Bool) (f : Fld) (i : Nat) (h : m.RegsWf) : (m.raiseIf b f i).RegsWf := by
  unfold Mach.raiseIf
  split
  · exact m.regsWf_raise _ _ h
  · exact h

theorem Mach.regsWf_countSat (m : Mach) (f : Fld) (i n : Nat) (h : m.RegsWf) : (m.countSat f i n).RegsWf := m.regsWf_setFld _ _ _ h

theorem Mach.regsWf_countMod (m : Mach) (f : Fld) (i n : Nat) (h : m.RegsWf) : (m.countMod f i n).RegsWf := m.regsWf_setFld _ _ _ h

theorem Mach.regsWf_writePlain (m : Mach) (a : Nat) (v : W32) (h : m.RegsWf) : (m.writePlain a v).RegsWf := by
  unfold Mach.writePlain
  split
  · exact h
  · exact m.regsWf_setRg _ _ h

theorem Mach.regsWf_clearRc (m : Mach) (a : Nat) (h : m.RegsWf) : (m.clearRc a).RegsWf := by
  unfold Mach.clearRc
  split
  · split
    · exact h
    · exact m.regsWf_setRg _ _ h
  · exact h

theorem Mach.regsWf_setFault (m : Mach) (f : Fld) (h : m.RegsWf) : (m.setFault f).RegsWf := by
  have h1 : (m.raise f 0).RegsWf := m.regsWf_raise _ _ h
  unfold Mach.setFault
  generalize m.raise f 0 = n at *
  unfold Mach.refreshFault
  exact n.regsWf_setFlg _ _ _ h1

/-- A staging set whose open buffer has the form may be put in its place. -/
theorem Mach.regsWf_putStage (m : Mach) (x : Nat) (d : Stage) (hd : SMap.wf unmarked d.openW = true) (h : m.RegsWf) :
    Mach.RegsWf { m with stages := SMap.set (fun _ => {}) m.stages x d } := by
  refine ⟨h.1, fun y => ?_, h.2.2⟩
  show SMap.wf unmarked (SMap.get (fun _ => {}) (SMap.set (fun _ => {}) m.stages x d) y).openW = true
  by_cases hy : y = x
  · subst hy; rw [SMap.get_set_self]; exact hd
  · rw [SMap.get_set_ne _ _ _ hy]; exact h.2.1 y

/-- So may one whose flags the registers show. -/
theorem Mach.regsWf_setStage (m : Mach) (x : Nat) (d : Stage) (hd : SMap.wf unmarked d.openW = true) (h : m.RegsWf) :
    (m.setStage x d).RegsWf := by
  unfold Mach.setStage
  dsimp only
  exact Mach.regsWf_setFlg _ _ _ _ (Mach.regsWf_setFlg _ _ _ _ (Mach.regsWf_setFlg _ _ _ _ (Mach.regsWf_setFlg _ _ _ _
    (m.regsWf_putStage x d hd h))))

/-- A fold of steps that keep the form keeps it. -/
theorem Mach.regsWf_foldl {α : Type} (l : List α) (f : Mach → α → Mach) (m : Mach) (hf : ∀ m a, m.RegsWf → (f m a).RegsWf) (h : m.RegsWf) :
    (l.foldl f m).RegsWf := by
  induction l generalizing m with
  | nil => exact h
  | cons a l ih => exact ih _ (hf m a h)

/-! ### Memories -/

theorem Mach.memWf_store (m : Mach) (src k : Nat) (bs : List Byte) (hf : (m.store src k bs).2.flash = m.flash)
    (hh : (m.store src k bs).2.host = m.host) (hr : (m.store src k bs).2.ret = m.ret) (h : m.MemWf) : (m.store src k bs).2.MemWf := by
  refine ⟨?_, by rw [hf]; exact h.2.1, by rw [hh]; exact h.2.2.1, by rw [hr]; exact h.2.2.2⟩
  rw [Mach.store_mem]
  exact Memory.wf_setRange _ _ _ h.1

theorem Mach.memWf_foldl {α : Type} (l : List α) (f : Mach → α → Mach) (m : Mach) (hf : ∀ m a, m.MemWf → (f m a).MemWf) (h : m.MemWf) :
    (l.foldl f m).MemWf := by
  induction l generalizing m with
  | nil => exact h
  | cons a l ih => exact ih _ (hf m a h)

end Sys2Proof.Machine
end

