-- ==== Sys2Proof/Tests/Slice0.lean ====
section
/-! SUPPORT. The model's own tests: commands the well-formedness check refuses, values the spec works out, single commands on small states, and
for every statement with hypotheses a theorem that they are met. Each `premises` lists the hypotheses of the clauses of one part of a statement,
and its `witness` theorem names states and operands that meet them: the pairs are (clause, place in the list of states). The clauses about a
pair loader's hash have theirs in witness_PairLoaderHashes. One clause has none: a load that passes its signature checks rests on Config.ecdsa and Config.gcm, which nothing evaluates. -/

namespace Sys2Proof.Machine

set_option linter.unusedVariables false
set_option maxRecDepth 10000
set_option Elab.async false

/-! ### The hypotheses' predicates as tests -/

def Mach.houseSupB (m : Mach) (r : Req) : Bool := decide ((m.who r).guest = false ∧ (m.who r).user = false ∧ (m.who r).isDebug = false ∧ m.reqWaits r = false)

def Mach.issuingB (m : Mach) (c : Nat) : Bool :=
  decide (m.issues c = true ∧ m.eventDue c = none ∧ m.bpMatch c = false ∧ (m.reed c).core.axn = none)

def Mach.goodCodeB (m : Mach) (k n : Nat) : Bool :=
  (List.range ((k + n - 1) / 8 + 1 - k / 8)).all fun j => decide (SMap.get eccGood m.ecc (k / 8 + j) = .good)

def Mach.startableB (m : Mach) (i op : Nat) (c : Ctx) : Bool :=
  decide (m.ctx i = some c ∧ c.op = op ∧ c.q < 4096 ∧ c.started = false ∧ c.accepted = false ∧ c.final = false ∧ c.micro = false ∧
    m.flg DBG_STAT.TAPH 0 = false ∧ m.barred c = false) && (m.entryOf op).any fun e => decide (e.2.2 ≤ c.plen)

def Mach.steppingB (m : Mach) (i : Nat) (c : Ctx) (u : Micro) : Bool :=
  decide (m.ctx i = some c ∧ m.microOf c = u ∧ m.hasTurn i = true ∧ wordFault c u = 0 ∧ c.q < 4096)

def Ctx.plainB (c : Ctx) (u : Micro) : Bool :=
  decide (u.seq = 0 ∧ c.acts u = true ∧ u.f 80 80 = 0 ∧ u.f 68 68 = 0 ∧ u.f 58 58 = 0 ∧ c.steps + 1 < 65536)

/-- Handler, PA and stack pointer of an entry that fits. -/
def Mach.entryOfVec (m : Mach) (c : Nat) (g : Bool) (vec : Nat) : Option (Nat × Bool × Nat) :=
  match m.descriptor c g vec with
  | (some (h, pa, st, lim), m') =>
    let sp := ((if m.inGuest c = g && !m.atUser c then ((m.reed c).core.gReg 62).toNat else st) + 2 ^ 64 - 256) % 2 ^ 64
    if m' = m ∧ m.flg (if g then SHSTAT.GDFA else SHSTAT.HDFA) c = false ∧ (m.reed c).core.shadow.length < 14 ∧ sp % 16 = 0 ∧ lim ≤ sp ∧
      m.frameFits c g sp = true then some (h, pa, sp) else none
  | (none, _) => none

theorem Mach.houseSupB_iff (m : Mach) (r : Req) : m.houseSupB r = true ↔ m.HouseSup r := by
  simp [Mach.houseSupB, Mach.HouseSup]

theorem Mach.issuingB_iff (m : Mach) (c : Nat) : m.issuingB c = true ↔ m.Issuing c := by
  simp [Mach.issuingB, Mach.Issuing]

theorem Mach.steppingB_iff (m : Mach) (i : Nat) (c : Ctx) (u : Micro) : m.steppingB i c u = true ↔ m.Stepping i c u := by
  simp [Mach.steppingB, Mach.Stepping]

theorem Ctx.plainB_iff (c : Ctx) (u : Micro) : c.plainB u = true ↔ c.plain u := by
  simp [Ctx.plainB, Ctx.plain]

theorem Mach.goodCode_of_goodCodeB {m : Mach} {k n : Nat} (h : m.goodCodeB k n = true) : m.GoodCode k n := by
  intro w h1 h2
  have h3 := List.all_eq_true.mp h (w - k / 8) (List.mem_range.mpr (by omega))
  have h4 : k / 8 + (w - k / 8) = w := by omega
  simpa [h4] using h3

theorem Mach.startable_of_startableB {m : Mach} {i op : Nat} {c : Ctx} (h : m.startableB i op c = true) : m.Startable i op c := by
  unfold Mach.startableB at h
  rw [Bool.and_eq_true, decide_eq_true_eq] at h
  obtain ⟨⟨h1, h2, h3, h4, h5, h6, h7, h8, h9⟩, h10⟩ := h
  cases he : m.entryOf op with
  | none => simp [he] at h10
  | some e => exact ⟨h1, h2, h3, h4, h5, h6, h7, h8, h9, e, he, by simpa [he] using h10⟩

theorem Mach.entryFits_of_entryOfVec {m : Mach} {c vec handler sp : Nat} {g pa : Bool} (h : m.entryOfVec c g vec = some (handler, pa, sp)) :
    m.EntryFits c g vec handler pa sp := by
  cases hd : m.descriptor c g vec with
  | mk o m' =>
    cases o with
    | none => simp [Mach.entryOfVec, hd] at h
    | some d =>
      obtain ⟨h', pa', st, lim⟩ := d
      simp only [Mach.entryOfVec, hd] at h
      obtain ⟨⟨rfl, h1, h2, h3, h4, h5⟩, h⟩ := Option.ite_none_right_eq_some.mp h
      simp only [Option.some.injEq, Prod.mk.injEq] at h
      obtain ⟨rfl, rfl, rfl⟩ := h
      exact ⟨h1, h2, st, lim, hd, rfl, h3, h4, h5⟩

end Sys2Proof.Machine

namespace Sys2Proof.Tests

set_option linter.unusedVariables false
set_option maxRecDepth 10000
set_option Elab.async false

open Sys2Proof.Machine

/-- The machine `m` with fields set: register field, instance and value, in turn. -/
def setW (m : Mach) (l : List (Fld × Nat × Nat)) : Mach := l.foldl (fun m e => m.setFld e.1 e.2.1 e.2.2) m

/-- The machine after reset with fields set. -/
def wm (l : List (Fld × Nat × Nat)) : Mach := setW Mach.reset l

/-- A state with no command waiting. -/
def wst (m : Mach) : State := { m := m, pending := [] }

/-- A core of the House world at supervisor level. -/
def r0 : Req := .reed 0

/-- The machine with the timebase locked. -/
def lk0 : Mach := wm [(TB_STATUS.LOCK, 0, 1)]

/-- The machine a command leaves, where it answers a next state. -/
def after (o : Host.Outcome State Fault Refusal) : Option Mach :=
  match o with
  | .next t => some t.m
  | _ => none

/-- Whether premise `q` of a list is met. -/
def met (l : Option (List Bool)) (q : Nat) : Bool := (l.bind (·[q]?)) == some true

/-! ### Ill-formed commands, one for each check -/

/-- An edge at tick 0, an address out of the device range, a misaligned one, an 8-byte one off its alignment, a high half that is none, a mirror
offset past the window, data lengths a CAN frame cannot have, a frame too short and one too long, and a key that is no word of a memory. -/
theorem test_ill_formed_commands_are_refused :
    [Instr.comparatorInputCrossing 4 ⟨0, 30, false, false⟩ true, .quadratureEdge 3 ⟨0, 1, false, false⟩ false true, .indexEdge 3 ⟨⟨0, 1, false, false⟩, true⟩,
     .stoSafeStateEntry 0 true true ⟨0, 1, false, false⟩, .gateFaultAssert 3 0 ⟨0, 1, false, false⟩, .strobeEdge 2 ⟨⟨0, 1, false, false⟩, true⟩,
     .registerWrite r0 0x10000000 false 5, .registerWrite r0 0x30000002 false 5, .registerWrite r0 0x30000004 true 5,
     .rlLowHalfRead r0 0x30000004, .rlHighHalfRead r0 0x30000008, .rl64BitRead r0 0x40000000, .rcFieldRead r0 0x2FFFFFFC,
     .mirrorWrite r0 3 0x4000 false 5, .mirrorWrite r0 3 0x44 true 5, .canFrameReceive 1 0 5 true 0 (List.replicate 12 0) true,
     .canFrameReceive 1 0 5 true 1 (List.replicate 13 0) true, .ethFrameReceive 0 0 0 (List.replicate 13 0) true,
     .ethFrameReceive 0 0 0 (List.replicate 1523 0) true, .scrubRead 0x10000004 0, .scrubRead 0x30000000 0].all (fun c => !c.wf) = true := by
  decide +kernel

theorem test_ill_formed_edges_of_the_supplies_are_refused :
    Instr.wf (.extfAssert true ⟨0, 1, false, false⟩) = false ∧ Instr.wf (.pfWarnInput true ⟨0, 1, false, false⟩) = false ∧
    Instr.wf (.pfCritInput true ⟨0, 1, false, false⟩) = false ∧ Instr.wf (.supplyMonitorTrip 0 true ⟨0, 1, false, false⟩) = false := by
  decide +kernel

/-- Commands at the edges of the same checks pass. -/
theorem test_well_formed_commands_pass :
    [Instr.comparatorInputCrossing 4 ⟨1, 30, false, false⟩ true, .registerWrite r0 0x3FFFFFFC false 5, .registerWrite r0 0x30000008 true 5,
     .rlHighHalfRead r0 0x3000000C, .mirrorWrite r0 3 0x3FF8 true 5, .canFrameReceive 1 0 5 true 1 (List.replicate 12 0) true,
     .ethFrameReceive 0 0 0 (List.replicate 1522 0) true, .scrubRead 0x10FFFFF8 0].all Instr.wf = true := by
  decide +kernel

/-! ### Values the spec works out -/

/-- The addresses worked from the strides in 01_control_period.md. -/
theorem test_addresses_worked_from_the_strides :
    Blk.base .sl 37 + 0x4000 = 0x30254000 ∧ Blk.base .sl 9 + 0xC000 = 0x3009C000 ∧ Blk.base .sl 69 + 0x8000 = 0x30458000 ∧
    Blk.base .cmp 200 = 0x3110C800 ∧ Blk.base .port 40 = 0x3120A000 ∧ Blk.base .bank 11 = 0x3100B000 := by decide

/-- The edges of the four duties worked in 10_gate_outputs.md (R220 to R223): r and f. -/
theorem test_gate_edges_of_the_worked_duties :
    [30802, 65516, 20, 350].map (fun d => switchAt false d 128000) = [(33920, 94080), (19, 127980), (63980, 64019), (63658, 64342)] := by decide

/-- R64 by hand: the gain of 1 leaves 16 times the code less the offset; a clipped code shows over-range. -/
theorem test_correction_of_a_code :
    corrected 1000 24 32768 = 15976 ∧ corrected (-3) 0 16384 = -24 ∧ clip16 (corrected 2047 0 65535) = 32767 ∧ overRange 2047 0 = true ∧
    overRange (-2048) 0 = true ∧ overRange 2046 32767 = false := by decide

/-- The check value of the CRC-32 of IEEE 802.3 (R453). -/
theorem test_crc32_check_value : crc32 (("123456789".toList.map fun c => BitVec.ofNat 8 c.toNat)) = 0xCBF43926 := by decide +kernel

/-- R492: the identification word of the TAP. -/
theorem test_idcode : (after (exec .idcode (wst Mach.reset))).map (·.resp) = some (.data 0x16450A53) := by decide +kernel

/-! ### Single commands on small states -/

/-- R229: SHUT brings the shutter in with cause 0. -/
theorem test_shut : (after (exec (.gtCmdShut r0 3) (wst { lk0 with now := 777 }))).map
    (fun m => (m.flg AX_GT_STAT.SHUT 3, m.fld AX_GT_CAUSE.CAUSE 3, m.fld AX_GT_SHSTAMP.STAMP 3, m.flg AX_GT_STAT.SHUT 4)) =
      some (true, 1, 777, false) := by decide +kernel

/-- R373, R375: a Guest's write into the timebase block changes nothing. -/
theorem test_guest_write_denied :
    (after (exec (.registerWrite r0 0x32000000 false 0xFFFFFFFF) (wst (wm [(ST.WORLD, 0, 1)])))).map (·.resp) = some .denied := by decide +kernel

/-- R44: a write at the mirror marks the word and leaves the live one. -/
theorem test_mirror_write_marks : (after (exec (.mirrorWrite r0 3 0x2008 false 55) (wst lk0))).map
    (fun m => ((m.stage 3).openW, m.flg AX_STAGE_STAT.OPEN_DIRTY 3, m.fld AX_LIM_VMAX.VAL 3)) =
      some ([(0xE008, some 55)], true, lk0.fld AX_LIM_VMAX.VAL 3) := by decide +kernel

/-- R270, R273: TAIL of an enabled free queue moves on; a step past the ring is a bad doorbell. -/
theorem test_doorbell : let m := wm [(QM_CFG.EN, 5, 1), (QM_CFG.KIND, 5, 2), (QM_IDX.HEAD, 5, 65530), (QM_IDX.TAIL, 5, 65534)]
    (after (exec (.doorbell r0 5 false 2) (wst m))).map (fun m => (m.qTail 5, m.flg QM_STAT.BAD_DB 5)) = some (2, false) ∧
    (after (exec (.doorbell r0 5 false 65531) (wst m))).map (fun m => (m.qTail 5, m.flg QM_STAT.BAD_DB 5)) = some (65534, true) := by
  decide +kernel

/-- R330: ADD of T and the latch, and the overflow of ADDV, on core 3 of a split pair. -/
theorem test_reed_add :
    let m := (wm [(SYS_PAIR_STAT.STATE, 1, 0), (SYS_PAIR_STAT.MODE, 1, 1)]).setReed 3 { core := { latch := [(0, 7)], pc := 0x10000100 } }
    (after (exec (.reedAdd 3 false 0xFFFFFFFFFFFFFFFF) (wst m))).map (fun m => ((m.reed 3).core.resOf 0, (m.reed 3).core.pc)) = some (6, 0x10000110) ∧
    (after (exec (.reedAddv 3 false 0x7FFFFFFFFFFFFFFF) (wst m))).map (fun m => ((m.reed 3).core.resOf 0, m.flg AXF.OVF 3)) =
      some (0x8000000000000006, true) := by decide +kernel

/-- An empty queue ticks once the timebase has locked, and idles before. -/
theorem test_empty_queue_ticks :
    (after (step (wst { lk0 with now := 64 }))).map (·.now) = some 128 ∧ (after (step (wst Mach.reset))).map (·.now) = some 0 := by decide +kernel

/-- A waiting command leaves the queue. -/
theorem test_step_takes_the_front : (match step { wst lk0 with pending := [.vernierRecalibration, .gtCmdShut r0 3] } with
    | .next t => t.pending == [.gtCmdShut r0 3]
    | _ => false) = true := by decide +kernel

/-! ### Premises met: time windows, period groups and register accesses -/

namespace States1

def gOn := wm [(TB_STATUS.LOCK, 0, 1), (TB_PG_CTRL.EN, 0, 1)]

def cA (a : Nat) : Card := (cardAt a).getD { off := 0, n := 1, stride := 4, rst := 0, rd := 0, rw := 0, w1c := 0, w1s := 0, rc := 0, rl := .none, staged := false }

def bA (a : Nat) : Blk × Nat := (blkOf a).getD (.sys, 0)

def rwc (m : Mach) (a : Nat) (v : BitVec 64) := ((wst m), r0, a, v, (cA a), (bA a).1, (bA a).2)

def rds (a : Nat) := ((wst (setW lk0 [(AX_STICKY.DLMISS, 0, 1), (AX_LIM_OUT_P.POS, 0, 0x123456789abcdef)])), r0, a)

def gst : Mach := wm [(ST.WORLD, 0, 1), (ST.LEVEL, 0, 1)]

def wOn (l : List (Fld × Nat × Nat)) := setW gOn l

def vE : BitVec 32 := 0x80000000

def win (d : Win) (l : List (Fld × Nat × Nat)) : Mach := { wOn ((TB_TW_CTRL.EN, 5, 1)::l) with wins := [(5, d)] }

def t0 : List (State × Req × Fin 16 × BitVec 32) :=
  [((wst lk0), r0, 0, 0x80000000), ((wst gOn), r0, 0, 0x12345678), ((wst (setW lk0 [(TB_PG_PHASE.PHASE, 0, 5000)])), r0, 0, 0x80000000)]

def t1 : List (State × Req × Fin 16 × BitVec 32) :=
  [((wst gOn), r0, 0, 0), ((wst (setW gOn [(AX_CTRL.EN, 3, 1)])), r0, 0, 0)]

def t2 : List (State × Fin 16) :=
  [((wst lk0), 0)]

def t3 : List (State × Req × Nat × BitVec 64 × Card × Blk × Nat) :=
  (((List.range 64).map (fun k => 0x37000000+4*k) ++ (List.range 64).map (fun k => 0x32000000+4*k) ++ (List.range 16).map (fun k => 0x31000400+4*k)
    ++ (List.range 64).map (fun k => 0x35004000+4*k)).map (fun a => rwc (lk0) a 0xFFFFFFFFFFFFFFFF))

def t5 : List (State × Req × Nat) :=
  ([0x32000008, 0x3200000C, 0x30008000, AX_LIM_OUT_P.POS.addr 0, AX_LIM_OUT_P.POS.addr 0+4, 0x37000000, 0x38000000, 0x33000000].map rds)

def t6 : List (State × Req × Nat × Bool × BitVec 64) :=
  [((wst gst), r0, 0x32000000, false, 5)]

def t7 : List (State × Req × Fin 64 × BitVec 32) :=
  [((wst gOn), r0, 5, vE), ((wst (wOn [(TB_TW_OPEN.BOUND, 5, 100), (TB_TW_CLOSE.BOUND, 5, 900)])), r0, 5, vE)]

def t8 : List (State × Fin 64) :=
  [((wst (win {pgMode := true, pg := 0, open_ := 5, close := 100} [])), 5), ((wst (win {pgMode := false, pg := 0, open_ := 5, close := 100} [])), 5)]

end States1

namespace States14a

def wt : Mach := { lk0 with stages := [(3, {tapLock := true, waiting := [{req := .reed 1, off := 0xE040, wide := false, val := 99}]})] }

def wl : Mach := { lk0 with stages := [(3, {tapLock := true, waiting := [{req := .debug true, off := 0xE040, wide := false, val := 99}]})] }

def gF : Mach := wm [(TB_STATUS.LOCK, 0, 1), (TB_PG_CTRL.EN, 0, 1), (TB_PG_SF.OFS, 0, 100), (TB_PG_CF.OFS, 0, 100), (TB_PG_AF.OFS, 0, 100)]

def gF2 (d : Group) : Mach := { gF with groups := [(0, d)] }

def t0 : List (State × Req × Nat × Bool × BitVec 64) :=
  [((wst wt), (.reed 1), 0x32000000, false, 5), ((wst wl), (.debug true), 0x32000000, true, 5)]

def t1 : List (State × Fin 16) :=
  [((wst gF), 0), ((wst (gF2 {kS := 1})), 0), ((wst (gF2 {kC := 1})), 0)]

end States14a

def premisesRegisterWriteByAccessCodes (s : State) (r : Req) (a : Nat) (_v : BitVec 64) (c : Card) (b : Blk) (i : Nat) : List Bool :=
  let pre := decide (s.m.held = []) && s.m.houseSupB r && decide (cardAt a = some c) && decide (blkOf a = some (b, i)) && decide (b = .sys ∨ b = .tb ∨ b = .cell ∨ b = .vis)
  [pre && devAt a 4,
   pre && (devAt a 8 && (decide (blkOf (a + 4) = some (b, i)) && ((match cardAt (a + 4) with | some d => (true) | _ => false))))]

def premisesRegisterReads (s : State) (r : Req) (a : Nat) : List Bool :=
  let pre := decide (s.m.held = []) && s.m.houseSupB r
  [pre && (devAt a 4 && (decide (rlPart a = .low))),
   pre && (devAt a 4 && (decide (rlPart a = .high))),
   pre && (devAt a 8 && (decide (rlPart a = .low))),
   pre && (devAt a 4 && (decide (rlPart a = .none))),
   pre]

def premisesDeniedAccessesChangeNothing (s : State) (r : Req) (a : Nat) (wide : Bool) (_v : BitVec 64) : List Bool :=
  [decide (s.m.held = []) && (decide ((s.m.who r).isDebug = false) && (decide (s.m.reqWaits r = false) && (devAt a (if wide then 8 else 4)
     && (decide ((s.m.who r).user = true ∨ ((s.m.who r).guest = true ∧ (a < 0x33000000 ∨ 0x34000000 ≤ a)))))))]

def premisesAccessesBehindAWaitingWrite (s : State) (r : Req) (_a : Nat) (_wide : Bool) (_v : BitVec 64) : List Bool :=
  let pre := decide (s.m.held = []) && s.m.reqWaits r
  [pre && decide (Req.isLink r = false),
   pre && Req.isLink r]

def premisesWindowControl (s : State) (r : Req) (w : Fin 64) (v : BitVec 32) : List Bool :=
  let pg := TB_TW_CTRL.PG.of v
  let byGroup : Bool := TB_TW_CTRL.MODE.of v ≠ 0
  let op := s.m.fld TB_TW_OPEN.BOUND w.val
  let cl := s.m.fld TB_TW_CLOSE.BOUND w.val
  let pre := decide (s.m.held = []) && s.m.houseSupB r && decide (s.m.flg TB_TW_CTRL.EN w.val = false)
  [pre && decide (cl ≤ op ∨ (byGroup = true ∧ s.m.pgP pg * 64 < cl)),
   pre && (decide (¬ (cl ≤ op ∨ (byGroup = true ∧ s.m.pgP pg * 64 < cl))) && (decide (byGroup = true ∨ s.m.now ≤ cl + 128)))]

def premisesWindowTime (s : State) (w : Fin 64) : List Bool :=
  let d := s.m.win w.val
  let pre := decide (s.m.held = []) && s.m.flg TB_TW_CTRL.EN w.val
  [pre && (d.pgMode && (s.m.pgOn d.pg && (decide (d.act ≠ 2)))),
   pre && (decide (d.pgMode = false) && (decide (d.act ≠ 2)))]

def premisesGroupConfiguration (s : State) (r : Req) (g : Fin 16) (_v : BitVec 32) : List Bool :=
  let pre := decide (s.m.held = []) && s.m.houseSupB r
  [pre && s.m.pgOn g.val,
   pre && decide (s.m.pgOn g.val = false),
   pre,
   pre && (decide (s.m.pgOn g.val = false) && (decide (s.m.groupErr g.val = 0))),
   pre && (decide (s.m.pgOn g.val = false) && (decide (s.m.groupErr g.val ≠ 0)))]

def premisesGroupDisable (s : State) (r : Req) (g : Fin 16) (_v : BitVec 32) : List Bool :=
  let pre := decide (s.m.held = []) && s.m.houseSupB r && s.m.pgOn g.val
  [pre && decide (∃ x ∈ s.m.members g.val, s.m.en x = true),
   pre && decide (∀ x ∈ s.m.members g.val, s.m.en x = false)]

def premisesFencesTakeTheNextOfTheirKind (s : State) (g : Fin 16) : List Bool :=
  let d := s.m.group g.val
  let pre := decide (s.m.held = [])
  [pre && (s.m.pgOn g.val && (decide (s.m.commitFirst g.val (s.m.sampleStamp g.val d.kS) = false)
     && (decide (s.m.applyFirst g.val (s.m.sampleStamp g.val d.kS) = false)))),
   pre && (s.m.pgOn g.val
     && (decide (s.m.commitFirst g.val (s.m.sampleStamp g.val d.kS) = true ∨ s.m.applyFirst g.val (s.m.sampleStamp g.val d.kS) = true))),
   pre && s.m.pgOn g.val,
   pre && (s.m.pgOn g.val && (decide (s.m.commitFirst g.val (s.m.applyStamp g.val d.kA) = false))),
   pre && (s.m.pgOn g.val && (s.m.commitFirst g.val (s.m.applyStamp g.val d.kA))),
   pre && decide (s.m.pgOn g.val = false)]

theorem witness_RegisterWrites :
    (∀ p ∈ [(0, 0), (1, 66)], met (States1.t3[p.2]?.map fun (s, r, a, v, c, b, i) => premisesRegisterWriteByAccessCodes s r a v c b i) p.1 = true) ∧
    (∀ p ∈ [(0, 0)], met (States1.t6[p.2]?.map fun (s, r, a, wide, v) => premisesDeniedAccessesChangeNothing s r a wide v) p.1 = true) ∧
    (∀ p ∈ [(0, 0), (1, 1)], met (States14a.t0[p.2]?.map fun (s, r, a, wide, v) => premisesAccessesBehindAWaitingWrite s r a wide v) p.1 = true) := by decide +kernel

theorem witness_RegisterReads :
    (∀ p ∈ [(0, 0), (1, 1), (2, 0), (3, 2), (4, 0)], met (States1.t5[p.2]?.map fun (s, r, a) => premisesRegisterReads s r a) p.1 = true) := by decide +kernel

theorem witness_TimeWindows :
    (∀ p ∈ [(0, 0), (1, 1)], met (States1.t7[p.2]?.map fun (s, r, w, v) => premisesWindowControl s r w v) p.1 = true) ∧
    (∀ p ∈ [(0, 0), (1, 1)], met (States1.t8[p.2]?.map fun (s, w) => premisesWindowTime s w) p.1 = true) := by decide +kernel

theorem witness_PeriodGroups :
    (∀ p ∈ [(0, 1), (1, 0), (2, 0), (3, 0), (4, 2)], met (States1.t0[p.2]?.map fun (s, r, g, v) => premisesGroupConfiguration s r g v) p.1 = true) ∧
    (∀ p ∈ [(0, 1), (1, 0)], met (States1.t1[p.2]?.map fun (s, r, g, v) => premisesGroupDisable s r g v) p.1 = true) := by decide +kernel

/-! ### Premises met: staging, slices, trace and commissioning -/

namespace States2

def gOn := wm [(TB_STATUS.LOCK, 0, 1), (TB_PG_CTRL.EN, 0, 1), (TB_PG_STAT.RUN, 0, 1)]

def cAt (x o : Nat) : Card := (findCard (cardsOf .sl x) (liveOff o)).getD { off := 0, n := 1, stride := 4, rst := 0, rd := 0, rw := 0, w1c := 0, w1s := 0, rc := 0, rl := .none, staged := false }

def stg (m : Mach) (x : Nat) (d : Stage) : Mach := { m with stages := [(x, d)] }

def dO : Stage := {openW := [(0xE040, some 7)], closedW := [(0xE044, some 3)]}

def rdy (l : List (Fld × Nat × Nat)) := setW gOn (((List.range 16).map (fun b => (CB_STAT.READY, b, 1))) ++ l)

def port0 := setW (rdy []) [(PP_CTRL.EN, 3, 1), (AX_VBUS_FIX.MANT, 3, 0x40000), (AX_BUS.BUSCH, 3, 15), (AX_POLE.POLES, 3, 1)]

def sl (m : Mach) (x : Nat) (d : Slice) : Mach := { m with slices := SMap.set (fun _ => {}) m.slices x d }

def fl : Flight := { k := 0, sample := 5, wake := 6, dyn := {} }

def trm (d : Trace) (l : List (Fld × Nat × Nat)) := sl (setW gOn ((AX_TRC_DBASE.DBASE, 3, 0x80000000)::l)) 3 { trace := d }

def cm (m : Mach) (x : Nat) (c : Comm) : Mach := m.setComm x c

def t0 : List (State × Req × Fin 72 × Nat × Bool × BitVec 64 × Card) :=
  [((wst gOn), r0, 3, 0x2040, false, 0x123456789a, (cAt 3 0xE040)), ((wst gOn), r0, 3, 0x2040, true, 0x123456789a, (cAt 3 0xE040)),
    ((wst (stg gOn 3 {tapLock := true})), r0, 3, 0x2040, true, 0x123456789a, (cAt 3 0xE040))]

def t1 : List (State × Req × Fin 72 × BitVec 16) :=
  [((wst (stg gOn 3 dO)), r0, 3, 9), ((wst (stg gOn 3 {dO with closed := true, locked := true})), r0, 3, 9),
    ((wst (stg gOn 3 {dO with tapLock := true, closed := true, locked := true})), r0, 3, 9)]

def t2 : List (State × Fin 16 × Nat) :=
  [((wst (stg gOn 3 {dO with closed := true})), 0, 3), ((wst (stg (setW gOn [(TB_PG_CTRL.APPLY_HOLD, 0, 1)]) 3 {dO with closed := true})), 0, 3)]

def t3 : List (State × Req × Fin 72 × BitVec 32) :=
  [((wst gOn), r0, 3, 0x80000000), ((wst (rdy [(AX_CTRL.EN, 3, 1)])), r0, 3, 0x80000000), ((wst (rdy [])), r0, 70, 0x80000000),
    ((wst (setW (rdy []) [(SYS_PD_STAT.ON, 0, 0)])), r0, 3, 0x80000000)]

def t4 : List (State × Req × Fin 72 × BitVec 32 × Fin 16) :=
  [((wst (rdy [(AX_CTRL.EN, 3, 1), (AX_STATE.RUN, 3, 1)])), r0, 3, 0, 5), ((wst (setW lk0 [(AX_CTRL.EN, 3, 1)])), r0, 3, 0, 5), ((wst (rdy [])), r0, 3,
    0, 5), ((wst (rdy [(AX_CTRL.EN, 64, 1), (AX_CTRL.EN, 3, 1), (AX_CTRL.MODE, 3, 2)])), r0, 64, 0, 5)]

def t5 : List (State × Fin 72 × Nat) :=
  [((wst (sl port0 3 {await := some (0, 100)})), 3, 200), ((wst (sl port0 3 {await := some (7, 100)})), 3, 200),
    ((wst (sl port0 3 {flight := some fl})), 3, 200), ((wst (sl port0 3 {late := some fl, flight := some fl})), 3, 200)]

def t6 : List (State × Req × Fin 72 × BitVec 32) :=
  [((wst (trm {} [(AX_TRC_CTRL.MODE, 3, 2), (AX_TRC_CTRL.DSZ, 3, 12)])), r0, 3, 0x12345678),
    ((wst (trm {ring := [List.replicate 32 1#8]} [(AX_TRC_CTRL.MODE, 3, 1), (AX_TRC_CTRL.DSZ, 3, 12)])), r0, 3, 0x12345678)]

def t7 : List (State × Req × Fin 64) :=
  [((wst (sl (rdy [(AX_CTRL.EN, 3, 1), (AX_STATE.RUN, 3, 1), (AX_LIM_STAT.PHASE, 3, 4)]) 3 {})), r0, 3), ((wst (rdy [(AX_CTRL.EN, 64, 1), (AX_STATE.RUN,
    64, 1), (CV_BRK.EN, 64, 1)])), r0, 3)]

def t8 : List (State × Req × Fin 64 × Fin 8 × BitVec 2) :=
  [((wst (rdy [])), r0, 3, 1, 0), ((wst (rdy [])), .pcie, 3, 1, 0)]

def t9 : List (State × Req × Fin 64) :=
  [((wst (rdy [])), r0, 3), ((wst (cm (rdy [(AX_CTRL.EN, 3, 1), (AX_STATE.RUN, 3, 1)]) 3 {part := 1, seq := 1})), r0, 3),
    ((wst (cm (rdy []) 3 {part := 1, seq := 1, k := 100, len := 0})), r0, 3), ((wst (cm (rdy []) 3 {part := 2, seq := 2, k := 100, len := 0})), r0,
    3), ((wst (cm (rdy []) 3 {part := 2, seq := 4, k := 100, len := 0})), r0, 3), ((wst (cm (rdy []) 3 {part := 3, seq := 4, k := 100, len := 0})),
    r0, 3)]

def t10 : List (State × Fin 64) :=
  [((wst (rdy [(AX_CM_ADAPT.NT_EN, 3, 1)])), 3), ((wst (cm (rdy []) 3 {mvReady := true})), 3), ((wst (cm (rdy [(AX_CM_MI_SAMIN.EXP, 3, 16),
    (AX_CM_MI_SAMIN.MANT, 3, 0x40000)]) 3 {mvReady := true})), 3)]

end States2

namespace States13b

def rdy (l : List (Fld × Nat × Nat)) := setW (wm [(TB_STATUS.LOCK, 0, 1), (TB_PG_CTRL.EN, 0, 1), (TB_PG_STAT.RUN, 0, 1)]) l

def one : List (Int × Int) := [(1, 0), (0, 0), (0, 0), (0, 0), (1, 0), (0, 0), (0, 0), (1, 0), (0, 0), (1, 0), (1, 0), (1, 0), (1, 0), (1, 0), (4, 0)]

def t1 : List (State × Req × Fin 64) :=
  [((wst ((rdy []).setComm 3 {part := 1, seq := 1, k := 100, len := 0, sums := one})), r0, 3),
    ((wst ((rdy []).setComm 3 {part := 1, seq := 4, k := 100, len := 0, sums := one})), r0, 3)]

end States13b

namespace States14b

def gOn := wm [(TB_STATUS.LOCK, 0, 1), (TB_PG_CTRL.EN, 0, 1), (TB_PG_STAT.RUN, 0, 1)]

def stg (m : Mach) (x : Nat) (d : Stage) : Mach := { m with stages := [(x, d)] }

def dO : Stage := {openW := [(0xE040, some 7)], closedW := [(0xE044, some 3)]}

def rdy (l : List (Fld × Nat × Nat)) := setW gOn (((List.range 16).map (fun b => (CB_STAT.READY, b, 1))) ++ l)

def cmp0 : List (Fld × Nat × Nat) := [(AX_CM_F0.V, 3, 160), (AX_CM_F1.V, 3, 1600), (AX_CM_TLEN.V, 3, 1024), (AX_CM_STAT.MASS_OK, 3, 1),
    (AX_CM_STAT.RESP_OK, 3, 1), (AX_CTRL.EN, 3, 1), (AX_STATE.RUN, 3, 1), (AX_LIM_STAT.AT_REST, 3, 1)]

def t0 : List (State × Fin 16 × Nat) :=
  [((wst (stg gOn 3 {dO with closed := true, locked := true, held := true})), 0, 3)]

def t1 : List (State × Req × Fin 72 × BitVec 32 × Fin 16) :=
  [((wst (rdy [(AX_STATE.RUN, 3, 1)])), r0, 3, 0, 5)]

def t2 : List (State × Req × Fin 64 × Fin 8 × BitVec 2) :=
  [((wst (rdy cmp0)), r0, 3, 1, 0)]

end States14b

def premisesMirrorWrites (s : State) (r : Req) (x : Fin 72) (off : Nat) (wide : Bool) (_v : BitVec 64) (c : Card) : List Bool :=
  let o := 0xC000 + off
  let pre := decide (s.m.held = []) && s.m.houseSupB r && decide (off + (if wide then 4 else 0) < 0x3F80) && decide (off % (if wide then 8 else 4) = 0) && decide (findCard (cardsOf .sl x.val) (liveOff o) = some c) && c.staged && decide (¬ (64 ≤ x.val ∧ liveOff o = CV_FFB.MANT.off))
  [pre && (decide (s.m.mirrorWaits (s.m.who r) x.val = false) && (decide (wide = false))),
   pre && (decide (s.m.mirrorWaits (s.m.who r) x.val = false) && (wide
     && ((match findCard (cardsOf .sl x.val) (liveOff (o + 4)) with | some d => (d.staged && (decide (¬ (64 ≤ x.val ∧ liveOff (o + 4) = CV_FFB.MANT.off)))) | _ => false)))),
   pre && s.m.mirrorWaits (s.m.who r) x.val]

def premisesStageCloseAndInterlock (s : State) (r : Req) (x : Fin 72) (_tag : BitVec 16) : List Bool :=
  let d := s.m.stage x.val
  let pre := decide (s.m.held = []) && s.m.houseSupB r
  [pre && (decide (s.m.mirrorWaits (s.m.who r) x.val = false) && (decide ((d.closed && d.locked) = false))),
   pre && (decide (s.m.mirrorWaits (s.m.who r) x.val = false) && (decide ((d.closed && d.locked) = true))),
   pre && d.tapLock,
   pre && (decide (d.tapLock = false) && (decide (d.waiting = []) && (decide (s.m.behind = []))))]

def premisesStageLockAndApply (s : State) (g : Fin 16) (x : Nat) : List Bool :=
  let d := s.m.stage x
  let pre := decide (s.m.held = []) && s.m.pgOn g.val && decide (x ∈ s.m.members g.val)
  [pre && (d.closed && (decide (s.m.flg TB_PG_CTRL.APPLY_HOLD g.val = false))),
   pre && decide (d.closed = false ∨ s.m.flg TB_PG_CTRL.APPLY_HOLD g.val = true),
   pre && (d.closed && (d.locked && (decide (s.m.commitFirst g.val (s.m.applyStamp g.val (s.m.group g.val).kA) = false) && (d.held))))]

def premisesSliceEnable (s : State) (r : Req) (x : Fin 72) (_v : BitVec 32) : List Bool :=
  let pre := decide (s.m.held = []) && s.m.houseSupB r
  [pre && s.m.liveSlice x.val,
   pre && (decide (s.m.liveSlice x.val = false) && (decide (∃ i ∈ slotsOf x.val, s.m.flg CB_STAT.READY (i / 16) = false))),
   pre && (decide (s.m.liveSlice x.val = false) && (decide (∀ i ∈ slotsOf x.val, s.m.flg CB_STAT.READY (i / 16) = true)
     && (decide (s.m.pdOn (13 + quadOf x.val) = false)))),
   pre && (decide (s.m.liveSlice x.val = false) && (decide (∀ i ∈ slotsOf x.val, s.m.flg CB_STAT.READY (i / 16) = true) && (s.m.pdOn (13 + quadOf x.val)
     && (decide (64 ≤ x.val)))))]

def premisesSliceDisableAndRegroup (s : State) (r : Req) (x : Fin 72) (_v : BitVec 32) (pg : Fin 16) : List Bool :=
  let pre := decide (s.m.held = []) && s.m.houseSupB r
  [pre && (s.m.en x.val && (decide (x.val < 64 ∨ s.m.companion x.val = none) && (s.m.flg TB_PG_STAT.RUN (s.m.pgOf x.val)))),
   pre && (s.m.en x.val && (decide (x.val < 64 ∨ s.m.companion x.val = none) && (decide (s.m.flg TB_PG_STAT.RUN (s.m.pgOf x.val) = false)))),
   pre && (s.m.liveSlice x.val && (decide (64 ≤ x.val) && ((s.m.companion x.val).isSome))),
   pre && (decide (s.m.liveSlice x.val = false) && (decide (s.m.pgOf x.val ≠ pg.val))),
   pre && (decide (s.m.en x.val = false) && (s.m.liveSlice x.val && (decide (x.val < 64 ∨ s.m.companion x.val = none))))]

def premisesWakeAndDeposit (s : State) (x : Fin 72) (_t : Nat) : List Bool :=
  let pre := decide (s.m.held = [])
  [pre && (match (s.m.slice x.val).await with | some (k, st) => (decide ((s.m.group (s.m.pgOf x.val)).kC = k)) | _ => false),
   pre && (match (s.m.slice x.val).await with | some (k, st) => (decide ((s.m.group (s.m.pgOf x.val)).kC ≠ k)) | _ => false),
   pre && decide ((s.m.slice x.val).await = none),
   pre && (decide ((s.m.slice x.val).late = none) && ((match (s.m.slice x.val).flight with | some fl => (decide (fl.done = none)) | _ => false))),
   pre && (match (s.m.slice x.val).late with | some fl => (true) | _ => false)]

def premisesTraceCommands (s : State) (r : Req) (x : Fin 72) (v : BitVec 32) : List Bool :=
  let tr := (s.m.slice x.val).trace
  let pre := decide (s.m.held = []) && s.m.houseSupB r
  [pre && (([false, true] : List (Bool)).any fun base => decide (base = true ∨ AX_TRC_CTRL.SWTRIG.of v = 0)),
   pre && (match tr.ring with | e :: rest => (decide (s.m.trcMode x.val = 1 ∨ (s.m.trcMode x.val = 2 ∧ tr.left = some 0 ∧ s.m.flg AX_TRC_STAT.DONE x.val = false))) | _ => false),
   pre && decide (tr.ring = [])]

def premisesLimiterAndBroker (s : State) (r : Req) (_x : Fin 64) : List Bool :=
  let pre := decide (s.m.held = []) && s.m.houseSupB r
  [pre && (([0, 1, 2, 3] : List (Fin 8)).any fun c => s.m.member (64 + c.val) && (s.m.pgOn (s.m.pgOf (64 + c.val)) && (s.m.coupling))),
   pre && (([0, 1, 2, 3] : List (Fin 8)).any fun c => decide (s.m.member (64 + c.val) = false ∨ s.m.pgOn (s.m.pgOf (64 + c.val)) = false ∨ s.m.coupling = false))]

def premisesCommissioningStarts (s : State) (r : Req) (x : Fin 64) (gset : Fin 8) (seed : BitVec 2) : List Bool :=
  let pre := decide (s.m.held = []) && s.m.houseSupB r
  [pre && ((cmStart x gset seed r).any fun e => let m1 := s.m.setFld AX_CM_STAT.SEQ x.val e.2.1; (s.m.who r).cmWriter
     && (decide (m1.cmRefusal x.val e.2.1 e.2.2 = 0))),
   pre && ((cmStart x gset seed r).any fun e => let m1 := s.m.setFld AX_CM_STAT.SEQ x.val e.2.1; (s.m.who r).cmWriter
     && (decide (m1.cmRefusal x.val e.2.1 e.2.2 ≠ 0))),
   pre && decide ((s.m.who r).cmWriter = false)]

def premisesCommissioningEnds (s : State) (r : Req) (x : Fin 64) : List Bool :=
  let c := s.m.comm x.val
  let pre := decide (s.m.held = [])
  [pre && ((s.m.who r).cmWriter && (decide (s.m.reqWaits r = false) && (decide (c.part = 0)))),
   pre && ((s.m.who r).cmWriter && (decide (s.m.reqWaits r = false) && (decide (c.part ≠ 0) && (decide ((s.m.liveSlice x.val
     && s.m.pgOn (s.m.pgOf x.val)) = true))))),
   pre && ((s.m.who r).cmWriter && (decide (s.m.reqWaits r = false) && (decide (c.part ≠ 0) && (decide ((s.m.liveSlice x.val
     && s.m.pgOn (s.m.pgOf x.val)) = false))))),
   pre && decide (c.part = 0 ∨ ((c.part = 1 ∨ c.part = 2) ∧ c.k < 64 + c.len)),
   pre && (decide (c.part = 1) && (decide (64 + c.len ≤ c.k) && (decide (massSolve c.sums (fun k => Config.free (s.m.fresh + k)) = none)))),
   pre && (decide (c.part = 1) && (decide (64 + c.len ≤ c.k) && (decide (massSolve c.sums (fun k => Config.free (s.m.fresh + k)) ≠ none)
     && (decide (c.seq = 4))))),
   pre && (decide (c.part = 1) && (decide (64 + c.len ≤ c.k) && (decide (massSolve c.sums (fun k => Config.free (s.m.fresh + k)) ≠ none)
     && (decide (c.seq ≠ 4))))),
   pre && (decide (c.part = 2) && (decide (64 + c.len ≤ c.k) && (decide (c.seq = 4)))),
   pre && (decide (c.part = 2) && (decide (64 + c.len ≤ c.k) && (decide (c.seq ≠ 4)))),
   pre && decide (c.part = 3)]

def premisesAdaptationIntervals (s : State) (x : Fin 64) : List Bool :=
  let c := s.m.comm x.val
  let small := (pairDy c.estA).lt (s.m.co AX_CM_MI_SAMIN.MANT x.val).dy
  let pre := decide (s.m.held = [])
  [pre && decide (c.mvReady = false),
   pre && (c.mvReady && (small)),
   pre && (c.mvReady && (decide (small = false))),
   pre && decide (s.m.flg AX_CM_ADAPT.NT_EN x.val = false),
   pre && (s.m.flg AX_CM_ADAPT.NT_EN x.val && (decide (c.ntRe = []) && (decide (c.ntIm = []))))]

theorem witness_FencesWakesAndDeposits :
    (∀ p ∈ [(0, 1), (1, 0), (2, 0), (3, 2), (4, 0)], met (States14a.t1[p.2]?.map fun (s, g) => premisesFencesTakeTheNextOfTheirKind s g) p.1 = true) ∧
    (∀ p ∈ [(5, 0)], met (States1.t2[p.2]?.map fun (s, g) => premisesFencesTakeTheNextOfTheirKind s g) p.1 = true) ∧
    (∀ p ∈ [(0, 0), (1, 1), (2, 2), (3, 2), (4, 3)], met (States2.t5[p.2]?.map fun (s, x, t) => premisesWakeAndDeposit s x t) p.1 = true) := by decide +kernel

theorem witness_StagingSets :
    (∀ p ∈ [(0, 0), (1, 1), (2, 2)], met (States2.t0[p.2]?.map fun (s, r, x, off, wide, v, c) => premisesMirrorWrites s r x off wide v c) p.1 = true) ∧
    (∀ p ∈ [(0, 0), (1, 1), (2, 2), (3, 0)], met (States2.t1[p.2]?.map fun (s, r, x, tag) => premisesStageCloseAndInterlock s r x tag) p.1 = true) ∧
    (∀ p ∈ [(0, 0), (1, 1)], met (States2.t2[p.2]?.map fun (s, g, x) => premisesStageLockAndApply s g x) p.1 = true) ∧
    (∀ p ∈ [(2, 0)], met (States14b.t0[p.2]?.map fun (s, g, x) => premisesStageLockAndApply s g x) p.1 = true) := by decide +kernel

theorem witness_SlicesEnableAndDisable :
    (∀ p ∈ [(0, 1), (1, 0), (2, 3), (3, 2)], met (States2.t3[p.2]?.map fun (s, r, x, v) => premisesSliceEnable s r x v) p.1 = true) ∧
    (∀ p ∈ [(0, 0), (1, 1), (2, 3), (3, 2)], met (States2.t4[p.2]?.map fun (s, r, x, v, pg) => premisesSliceDisableAndRegroup s r x v pg) p.1 = true) ∧
    (∀ p ∈ [(4, 0)], met (States14b.t1[p.2]?.map fun (s, r, x, v, pg) => premisesSliceDisableAndRegroup s r x v pg) p.1 = true) := by decide +kernel

theorem witness_TraceLimiterAndBroker :
    (∀ p ∈ [(0, 0), (1, 1), (2, 0)], met (States2.t6[p.2]?.map fun (s, r, x, v) => premisesTraceCommands s r x v) p.1 = true) ∧
    (∀ p ∈ [(0, 1), (1, 0)], met (States2.t7[p.2]?.map fun (s, r, x) => premisesLimiterAndBroker s r x) p.1 = true) := by decide +kernel

theorem witness_CommissioningStarts :
    (∀ p ∈ [(0, 0)], met (States14b.t2[p.2]?.map fun (s, r, x, gset, seed) => premisesCommissioningStarts s r x gset seed) p.1 = true) ∧
    (∀ p ∈ [(1, 0), (2, 1)], met (States2.t8[p.2]?.map fun (s, r, x, gset, seed) => premisesCommissioningStarts s r x gset seed) p.1 = true) := by decide +kernel

theorem witness_CommissioningEndsAndAdapts :
    (∀ p ∈ [(0, 0), (1, 1), (2, 2), (3, 0), (4, 2), (7, 4), (8, 3), (9, 5)], met (States2.t9[p.2]?.map fun (s, r,
      x) => premisesCommissioningEnds s r x) p.1 = true) ∧
    (∀ p ∈ [(5, 1), (6, 0)], met (States13b.t1[p.2]?.map fun (s, r, x) => premisesCommissioningEnds s r x) p.1 = true) ∧
    (∀ p ∈ [(0, 0), (1, 2), (2, 1), (3, 1), (4, 0)], met (States2.t10[p.2]?.map fun (s, x) => premisesAdaptationIntervals s x) p.1 = true) := by decide +kernel

/-! ### Premises met: gate timers, converters, comparators and position ports -/

namespace States3

def gOn := wm [(TB_STATUS.LOCK, 0, 1), (TB_PG_CTRL.EN, 0, 1), (TB_PG_STAT.RUN, 0, 1), (TB_STATUS.VN_CAL, 0, 1)]

def sw (l : List (Fld × Nat × Nat)) := { setW gOn l with now := 777 }

def oth : Mach := sw [(TB_PG_STAT.RUN, 0, 0)]

def tm (m : Mach) (x : Nat) (t : Timer) : Mach := { m with timers := [(x, t)] }

def pw := sw [(AX_GT_CTRL.OE, 3, 1), (AX_CTRL.EN, 3, 1), (AX_STATE.RUN, 3, 1)]

def ed : Edge := ⟨100, 30, false, false⟩

def ed2 : Edge := ⟨100, 1, false, true⟩

def so (m : Mach) (d : StoIn) : Mach := { m with stos := [(0, d)] }

def bk (l : List (Fld × Nat × Nat)) := sw ([(CB_CTRL.EN, 0, 1), (CB_STAT.READY, 0, 1), (CB_CAL_STAT.SPARE, 0, 13), (CB_CELL_ROLE.ROLE, 13, 1)]++l)

def cl (m : Mach) (i : Nat) (c : Cell) : Mach := { m with cells := [(i, c)] }

def bn (m : Mach) (d : Bank) : Mach := { m with banks := [(0, d)] }

def cE (l : List (Fld × Nat × Nat)) := sw ([(CMP_CTRL.EN, 4, 1), (CMP_CTRL.EN, 5, 1)]++l)

def cp (m : Mach) (d : Cmp) : Mach := { m with cmps := [(4, d)] }

def t0 : List (State × Req × Fin 72) :=
  [((wst (sw [])), r0, 3), ((wst (sw [(AX_GT_STAT.SHUT, 3, 1), (AX_CTRL.EN, 3, 1), (AX_STATE.RUN, 3, 1), (AX_GT_CAUSE.CAUSE, 3, 5),
    (AX_GT_SHSTAMP.STAMP, 3, 55)])), r0, 3), ((wst (sw [(AX_GT_STAT.SHUT, 3, 1), (AX_GT_STAT.FLT, 3, 1), (AX_GT_FLT.ACT, 3, 2)])), r0, 3)]

def t1 : List (State × Fin 72 × Fin 4 × Fin 8) :=
  [((wst (tm pw 3 {legs := [(0, {started := true, live := true, pend := true, m := 4})]})), 3, 0, 0),
    ((wst (tm pw 3 {legs := [(0, {started := true, live := true, d := 30000})], gates := [(0, {on := true})]})), 3, 0, 0), ((wst oth), 3, 0, 0)]

def t2 : List (State × Fin 72 × Fin 4 × Fin 8) :=
  ([50, 100, 500, 1000, 2000].map fun dd => ((wst (tm (setW pw [(AX_GT_LEG.MINP, 3,
    2000)]) 3 {legs := [(0, {started := true, live := true, d := dd})]})), 3, 0, 0))

def t3 : List (State × Fin 72 × Fin 2 × Edge) :=
  [((wst (setW pw [(AX_GT_FLT.EN, 3, 1), (AX_GT_FLT.ACT, 3, 2)])), 3, 0, ed), ((wst (setW pw [(AX_GT_FLT.EN, 3, 1), (AX_GT_FLT.ACT, 3, 2),
    (AX_GT_STAT.FLT, 3, 1)])), 3, 0, ed2)]

def t4 : List (State × Fin 8 × Bool × Bool × Edge) :=
  ([true, false].flatMap (fun ch => [true, false].map (fun low => ((wst (sw [])), 0, ch, low, ed)))++ [((wst (setW (so (sw []) {}) [(OP_STO_STAT.SAFE,
    0, 1), (AX_GT_CTRL.STOSEL, 3, 0), (AX_GT_STAT.STO, 3, 1)])), 0, true, true, ed), ((wst (so (sw []) {hi0 := false, differ := some 5})), 0, true,
    true, ed)])

def t5 : List (State × Fin 16 × Fin 14) :=
  [((wst (bk [])), 0, 3), ((wst (bk [])), 0, 13), ((wst (cl (bk []) 3 {hold := some {stamp := 100, slot := some 3}})), 0, 3)]

def t6 : List (State × Req × Fin 16 × Fin 13 × BitVec 32) :=
  [((wst (bk [(CB_SLOT_STAT.LOCKED, 3, 1)])), r0, 0, 3, 0x01020304), ((wst (bk [])), r0, 0, 3, 0x0F000004), ((wst (bk [])), r0, 0, 3,
    (BitVec.ofNat 32 (putBits 0 CB_INJ_REQ.SRC.hi CB_INJ_REQ.SRC.lo 15))), ((wst (sw [])), r0, 0, 3, 0x0F000004),
    ((wst (bn (bk []) {reqs := List.replicate 4 {}})), r0, 0, 3, 0x01020304),
    ((wst (bn (bk []) {reqs := [{held := some (100, 5), ofs := 3, gain := 32768}]})), r0, 0, 3, 0x71020304)]

def t7 : List (State × Req × Fin 16 × BitVec 32 × BitVec 140) :=
  [((wst (sw [])), r0, 0, 0x80000000, 5), ((wst (sw [(SYS_PD_STAT.ON, 0, 0)])), r0, 0, 0x80000000, 5), ((wst (bk [])), r0, 0, 0, 5),
    ((wst (setW (bk []) [(AX_CTRL.EN, 3, 1)])), r0, 0, 0, 5), ((wst (bn (setW (bk []) [(CB_STAT.READY, 0, 0)]) {done := List.range 14})), r0, 0, 0,
    5), ((wst (bn (setW (bk []) [(CB_STAT.READY, 0, 0), (CB_CAL_STAT.BAD, 0, 3)]) {done := List.range 14})), r0, 0, 0, 5)]

def t8 : List (State × Req × Fin 16) :=
  [((wst (bk [(CB_CAL_STAT.PHASE, 0, 1)])), r0, 0), ((wst (bn (bk [(CB_CAL_CTRL.AUTO, 0, 1)]) {gapFrom := some 100})), r0, 0),
    ((wst (bn (bk [(CB_CAL_STAT.PHASE, 0, 2)]) {pairs := 64, sum := 0})), r0, 0), ((wst (bn (bk [(CB_CAL_STAT.PHASE, 0,
    2)]) {pairs := 64, sum := 100000})), r0, 0), ((wst (bn (bk [(CB_CAL_STAT.PHASE, 0, 2)]) {pairs := 64, sum := 100000, second := true})), r0, 0),
    ((wst (sw [(CB_CTRL.EN, 0, 1)])), r0, 0)]

def t9 : List (State × Req × Fin 256 × BitVec 32) :=
  [((wst (sw [])), r0, 4, 0), ((wst (sw [(SYS_PD_STAT.ON, 0, 0)])), r0, 4, 0), ((wst (cE [])), r0, 4, 0), ((wst (cE [])), r0, 4, 0x80000001),
    ((wst (cE [])), r0, 4, 0xBF000000)]

def t10 : List (State × Req × Fin 256 × Fin 128 × BitVec 32 × BitVec 10) :=
  [((wst (sw [])), r0, 4, 2, 0x12345678, 77), ((wst (cE [(CMP_THR.THR, 4, 100), (CMP_THR.THR, 5, 50)])), r0, 4, 2, 0x12345678, 77),
    ((wst (cE [(CMP_THR.THR, 4, 100), (CMP_WIN_CTRL.EN, 2, 1)])), r0, 4, 2, 0x12345678, 77), ((wst (cE [(CMP_CTRL.THR_SYNC, 4, 1), (CMP_CTRL.ARM, 4,
    1)])), r0, 4, 2, (BitVec.ofNat 32 (putBits (putBits 0 CMP_ACT.CHOP.hi CMP_ACT.CHOP.lo 1) CMP_ACT.LEG.hi CMP_ACT.LEG.lo 3)), 77)]

def t11 : List (State × Fin 256 × Edge × Bool) :=
  [((wst (cp (cE []) {settled := true})), 4, ed, true), ((wst (cE [])), 4, ed, true),
    ((wst (cp (cE []) {settled := true, raw := some false, check := some {kind := 2, running := true}})), 4, ed, true)]

def t12 : List (State × Req × Fin 256 × BitVec 32) :=
  [((wst (sw [])), r0, 4, 0), ((wst (cE [])), r0, 4, 0), ((wst (cE [])), r0, 4, 0xFFFFFFFF), ((wst (bn (setW (bk []) [(CMP_CTRL.EN, 4, 1)]) {})), r0, 4,
    0), ((wst (cp (cE [(CMP_CHK_RES.BUSY, 4, 1)]) {settled := true, check := some {kind := 1, running := true, endAt := 50}})), r0, 4, 0),
    ((wst (cp (cE [(CMP_CHK_RES.BUSY, 4, 1), (CMP_CHK_CFG.AUTO, 4,
    1)]) {settled := true, check := some {kind := 2, running := true, endAt := 50, inconcl := true}})), r0, 4, 0)]

end States3

namespace States3b

def gOn := wm [(TB_STATUS.LOCK, 0, 1), (TB_PG_CTRL.EN, 0, 1), (TB_PG_STAT.RUN, 0, 1), (TB_STATUS.VN_CAL, 0, 1)]

def sw (l : List (Fld × Nat × Nat)) := { setW gOn l with now := 777 }

def ed : Edge := ⟨100, 30, false, false⟩

def pE (l : List (Fld × Nat × Nat)) := sw ([(PP_CTRL.EN, 4, 1)]++l)

def pt (m : Mach) (d : Port) : Mach := { m with ports := [(4, d)] }

def t0 : List (State × Req × Fin 72 × BitVec 32 × BitVec 64) :=
  [((wst (sw [])), r0, 4, 0x80000000, 99), ((wst (pt (pE []) {txn := some {}})), r0, 4, 0x80000000, 99), ((wst (pE [(AX_CTRL.EN, 4, 1)])), r0, 4, 0,
    99), ((wst (sw [(PP_CTRL.IF, 4, 2)])), r0, 4, (((sw [(PP_CTRL.IF, 4, 2)]).rg (PP_CTRL.EN.addr 4)) ||| 0x80000000), 0xFFFFFFFFFFFFFFFF)]

def t1 : List (State × Fin 72 × Edge × Bool × Bool) :=
  [((wst (pE [])), 4, ed, true, true), ((wst (pt (pE []) {edge := some (6400+20, true, 1)})), 4, ed, false, true)]

def t2 : List (State × Req × Fin 72 × BitVec 32) :=
  ([1, 2, 3].flatMap (fun k => [((wst (pE [(PP_CTRL.IF, 4, k)])), r0, 4, 0), ((wst (pt (pE [(PP_CTRL.IF, 4, k)]) {txn := some {}})), r0, 4, 0),
    ((wst (pt (pE [(PP_CTRL.IF, 4, k)]) {biss := some {wr := true, sent := 47}})), r0, 4, 0xFFFFFFFF)]))

end States3b

namespace States13c

def bk : Mach := { wm [(TB_STATUS.LOCK, 0, 1), (CB_CTRL.EN, 0, 1), (CB_STAT.READY, 0, 1)] with cells := [(3, {hold := some {stamp := 100, slot := some 3}})] }

def t1 : List (State × Fin 72 × Edge × Bool × Bool) :=
  [((wst bk), 3, ⟨100, 30, false, false⟩, false, false)]

end States13c

namespace States14c

def gOn := wm [(TB_STATUS.LOCK, 0, 1), (TB_PG_CTRL.EN, 0, 1), (TB_PG_STAT.RUN, 0, 1), (TB_STATUS.VN_CAL, 0, 1)]

def sw (l : List (Fld × Nat × Nat)) := { setW gOn l with now := 777 }

def tm (m : Mach) (x : Nat) (t : Timer) : Mach := { m with timers := [(x, t)] }

def pw := sw [(AX_GT_CTRL.OE, 3, 1), (AX_CTRL.EN, 3, 1), (AX_STATE.RUN, 3, 1)]

def lg (d : Nat) : SMap Leg := [(0, {started := true, live := true, d := d})]

def short : List Mach := (List.range 20).flatMap fun k => [0, 1].map fun c => tm (setW pw [(AX_GT_CTRL.CMODE, 3, c), (AX_GT_LEG.MINP, 3,
    2000)]) 3 {legs := lg (65500 - 90 * k)}

def bk (l : List (Fld × Nat × Nat)) := sw ([(CB_CTRL.EN, 0, 1), (CB_STAT.READY, 0, 1), (CB_CAL_STAT.SPARE, 0, 13), (CB_CELL_ROLE.ROLE, 13, 1)]++l)

def cl (m : Mach) (i : Nat) (c : Cell) : Mach := { m with cells := [(i, c)] }

def hf : Mach := cl (bk []) 3 {hold := some {stamp := 100, slot := some 3, first := true}}

def cE (l : List (Fld × Nat × Nat)) := sw ([(CMP_CTRL.EN, 4, 1), (CMP_CTRL.EN, 5, 1)]++l)

def cp (m : Mach) (d : Cmp) : Mach := { m with cmps := [(4, d)] }

def ed : Edge := ⟨100, 30, false, false⟩

def bn (m : Mach) (d : Bank) : Mach := { m with banks := [(0, d)] }

def pE (l : List (Fld × Nat × Nat)) := sw ([(PP_CTRL.EN, 4, 1)]++l)

def pt (m : Mach) (d : Port) : Mach := { m with ports := [(4, d)] }

def t0 : List (State × Fin 72 × Fin 4 × Fin 8) :=
  (short.map fun m => ((wst m), 3, 0, 1))

def t1 : List (State × Fin 72 × Fin 4 × Fin 8) :=
  [((wst (tm pw 3 {legs := lg 30000, gates := [(1, {on := true, at_ := 100000})]})), 3, 0, 1),
    ((wst (tm pw 3 {legs := lg 30000, gates := [(1, {on := true})]})), 3, 0, 0)]

def t2 : List (State × Fin 16 × Fin 14) :=
  [((wst { hf with slots := [(3, {order := 0})]}), 0, 3), ((wst { hf with slots := [(3, {order := 2, absorbed := 1})]}), 0, 3)]

def t4 : List (State × Fin 256 × Edge × Bool) :=
  [((wst (cp (cE []) {settled := true, raw := some false, blank := some 900, hit := true})), 4, ed, true),
    ((wst (cp (cE []) {settled := true, raw := some false, starts := [(1, 2)]})), 4, ed, true)]

def t5 : List (State × Req × Fin 256 × BitVec 32) :=
  [((wst (bn (cE []) {reqs := [{held := some (100, 5), check := true, use := 0, cmp := 3}]})), r0, 3, 0)]

def t6 : List (State × Req × Fin 72 × BitVec 32) :=
  [((wst (pt (pE [(PP_CTRL.IF, 4, 1)]) {txn := some {dead := true}})), r0, 4, 0)]

end States14c

def premisesShutterCommands (s : State) (r : Req) (x : Fin 72) : List Bool :=
  let pre := decide (s.m.held = []) && s.m.houseSupB r
  [pre && (decide ((s.m.slice x.val).comm.part ≠ 1) && (decide ((s.m.slice x.val).comm.part ≠ 2))),
   pre && s.m.releaseBlocked x.val,
   pre && (decide (s.m.releaseBlocked x.val = false) && (s.m.flg AX_GT_STAT.SHUT x.val && (decide ((s.m.liveSlice x.val
     && s.m.flg TB_PG_STAT.RUN (s.m.pgOf x.val)) = true)))),
   pre && (decide (s.m.releaseBlocked x.val = false) && (decide ((s.m.liveSlice x.val && s.m.flg TB_PG_STAT.RUN (s.m.pgOf x.val)) = false)))]

def premisesCarrierAndGateEdges (s : State) (x : Fin 72) (l : Fin 4) (g : Fin 8) : List Bool :=
  let lg := (s.m.timer x.val).leg l.val
  let pre := decide (s.m.held = [])
  [pre && (s.m.carrierRuns x.val && (decide (s.m.interleaved x.val = true ∨ l.val = 0) && (decide (l.val < s.m.usedLegs x.val) && (lg.pend)))),
   pre && decide (s.m.carrierRuns x.val = false),
   pre && (decide (g.val / 2 < legsOf x.val) && (decide (s.m.rank x.val (g.val / 2) = 7) && (((s.m.timer x.val).leg (g.val / 2)).started
     && (let tm := s.m.timer x.val; let tl := tm.leg (g.val / 2); let c := s.m.carrierAt x.val (g.val / 2) tl.m;
     let p := switchAt (s.m.flg AX_GT_CTRL.CMODE x.val) tl.d (s.m.tc x.val); (tm.gate g.val).on
     && (decide (g.val % 2 = 0 ∨ ((tm.gate g.val).at_ : Int) < c + p.1 + 64)))))),
   pre && (decide (g.val / 2 < legsOf x.val) && (decide (s.m.rank x.val (g.val / 2) = 7) && (((s.m.timer x.val).leg (g.val / 2)).started
     && (let tm := s.m.timer x.val; let tl := tm.leg (g.val / 2); let c := s.m.carrierAt x.val (g.val / 2) tl.m;
     let p := switchAt (s.m.flg AX_GT_CTRL.CMODE x.val) tl.d (s.m.tc x.val); (tm.gate g.val).on && (decide (g.val % 2 = 1)
     && (decide (c + p.1 + 64 ≤ ((tm.gate g.val).at_ : Int)))))))),
   pre && (decide (g.val / 2 < legsOf x.val) && (decide (s.m.rank x.val (g.val / 2) = 7) && (((s.m.timer x.val).leg (g.val / 2)).started
     && (let tm := s.m.timer x.val; decide ((tm.gate g.val).on = false)
     && (decide ((tm.gate (if g.val % 2 = 0 then g.val + 1 else g.val - 1)).on = true)))))),
   pre && (decide (g.val / 2 < legsOf x.val) && (decide (s.m.rank x.val (g.val / 2) = 7) && (((s.m.timer x.val).leg (g.val / 2)).started
     && (let tm := s.m.timer x.val; let tl := tm.leg (g.val / 2); let c := s.m.carrierAt x.val (g.val / 2) tl.m;
     let p := switchAt (s.m.flg AX_GT_CTRL.CMODE x.val) tl.d (s.m.tc x.val); let dt := s.m.legDT x.val (g.val / 2);
     let mp := s.m.legMINP x.val (g.val / 2); decide ((tm.gate g.val).on = false) && (decide (g.val % 2 = 0)
     && (decide ((tm.gate (g.val + 1)).on = false) && (let t : Int := max (c + p.1 + dt) ((tm.gate (g.val + 1)).offAt + dt);
     let w : Int := c + p.2 - t; decide (0 < w) && (decide (w < mp))))))))),
   pre && (decide (g.val / 2 < legsOf x.val) && (decide (s.m.rank x.val (g.val / 2) = 7) && (((s.m.timer x.val).leg (g.val / 2)).started
     && (let tm := s.m.timer x.val; let tl := tm.leg (g.val / 2); let c := s.m.carrierAt x.val (g.val / 2) tl.m;
     let p := switchAt (s.m.flg AX_GT_CTRL.CMODE x.val) tl.d (s.m.tc x.val); let dt := s.m.legDT x.val (g.val / 2);
     let mp := s.m.legMINP x.val (g.val / 2); decide ((tm.gate g.val).on = false) && (decide (g.val % 2 = 1)
     && (decide ((tm.gate (g.val - 1)).on = false) && (decide (tl.lowDue = none) && (decide (tl.pend = false)
     && (let t : Int := max (c + p.2 + dt) ((tm.gate (g.val - 1)).offAt + dt); let w : Int := c + s.m.tc x.val + p.1 - t; decide (0 < w)
     && (decide (w < mp)))))))))))]

def premisesGateFaultInputs (s : State) (x : Fin 72) (i : Fin 2) (_e : Edge) : List Bool :=
  let pre := decide (s.m.held = [])
  [pre && (s.m.pdOn (13 + quadOf x.val) && (s.m.flg (AX_GT_FLT.EN.sh (4 * i.val)) x.val && (decide (bitOf (s.m.fld AX_GT_STAT.FLT x.val) i.val = false)
     && (decide (2 ≤ s.m.fld (AX_GT_FLT.ACT.sh (4 * i.val)) x.val))))),
   pre && bitOf (s.m.fld AX_GT_STAT.FLT x.val) i.val,
   pre && decide (bitOf (s.m.fld AX_GT_STAT.FLT x.val) i.val = false)]

def premisesSafeTorqueOff (s : State) (i : Fin 8) (_ch : Bool) (low : Bool) (_e : Edge) : List Bool :=
  [low,
   decide (s.m.held = []) && ((match s.m.stoDue i.val with | some t => (true) | _ => false)),
   decide (s.m.held = []) && (decide (s.m.stoDue i.val = none)),
   decide (s.m.held = []) && ((match (s.m.sto i.val).differ with | some t => (decide (s.m.stoHeld i.val = false)) | _ => false))]

def premisesConversionsOfABank (s : State) (b : Fin 16) (c : Fin 14) : List Bool :=
  let i := 16 * b.val + c.val
  let sl := s.m.fld CB_CELL_ROLE.SLOT i
  let n := s.m.slotNext (16 * b.val + sl)
  let pre := decide (s.m.held = []) && s.m.flg CB_STAT.READY b.val
  [pre && (decide (s.m.fld CB_CELL_ROLE.ROLE i = 0) && (decide ((s.m.cell i).hold = none)
     && (decide (s.m.handoverDue b.val sl n.2.2.1 n.1 n.2.2.2 = false)))),
   pre && (decide (s.m.fld CB_CELL_ROLE.ROLE i = 1) && (decide ((s.m.cell i).hold = none) && (decide (s.m.fld CB_CAL_STAT.PHASE b.val = 0)))),
   pre && (match (s.m.cell i).hold with | some h => (true) | _ => false),
   pre && ((match (s.m.cell i).hold with | some h => ((match h.slot with | some j => (decide (j < 13) && (decide ((s.m.bank b.val).reqs.any (fun q => q.held = some (h.stamp, c.val)) = false) && (decide (h.first = false)))) | _ => false)) | _ => false)),
   pre && ((match (s.m.cell i).hold with | some h => ((match h.slot with | some j => (decide (j < 13) && (decide ((s.m.bank b.val).reqs.any (fun q => q.held = some (h.stamp, c.val)) = false) && (let k := 16 * b.val + j; h.first && (decide ((s.m.slot k).order = 0))))) | _ => false)) | _ => false)),
   pre && ((match (s.m.cell i).hold with | some h => ((match h.slot with | some j => (decide (j < 13) && (decide ((s.m.bank b.val).reqs.any (fun q => q.held = some (h.stamp, c.val)) = false) && (let k := 16 * b.val + j; h.first && (decide ((s.m.slot k).order ≠ 0) && (decide ((s.m.slot k).absorbed ≠ 0)))))) | _ => false)) | _ => false)),
   pre && (([5, 0x800] : List (BitVec 12)).any fun code => (match (s.m.cell i).hold with | some h => ((match h.slot with | some j => (decide (j < 13) && (decide ((s.m.bank b.val).reqs.any (fun q => q.held = some (h.stamp, c.val)) = false) && (let raw := corrected code.toInt (s.m.cellOfs i) (s.m.cellGain i); overRange code.toInt raw))) | _ => false)) | _ => false))]

def premisesFiltersAndInjections (s : State) (r : Req) (b : Fin 16) (j : Fin 13) (v : BitVec 32) : List Bool :=
  let k := 16 * b.val + j.val
  let pre := decide (s.m.held = []) && s.m.houseSupB r
  [pre && s.m.flg CB_SLOT_STAT.LOCKED k,
   pre && decide (s.m.flg CB_SLOT_STAT.LOCKED k = false),
   pre && decide (s.m.spareReady b.val = false),
   pre && (let src := CB_INJ_REQ.SRC.of v; let ok : Bool := !(7 < src || (src = 4 && CB_INJ_REQ.CMP.of v / 16 ≠ b.val)); s.m.spareReady b.val
     && (decide (ok = false))),
   pre && (let src := CB_INJ_REQ.SRC.of v; let ok : Bool := !(7 < src || (src = 4 && CB_INJ_REQ.CMP.of v / 16 ≠ b.val)); s.m.spareReady b.val && (ok
     && (decide (4 ≤ (s.m.bank b.val).reqs.length)))),
   pre && (let src := CB_INJ_REQ.SRC.of v; let ok : Bool := !(7 < src || (src = 4 && CB_INJ_REQ.CMP.of v / 16 ≠ b.val)); s.m.spareReady b.val && (ok
     && (decide ((s.m.bank b.val).reqs.length < 4) && (decide (CB_INJ_REQ.TIMED.of v = 0))))),
   pre && ((match (s.m.bank b.val).reqs with | q :: rest => ((match q.held with | some (st, c) => (decide (q.check = false) && (decide (q.use = 0))) | _ => false)) | _ => false))]

def premisesBankStartAndStop (s : State) (r : Req) (b : Fin 16) (_v : BitVec 32) (_phase : BitVec 140) : List Bool :=
  let pre := decide (s.m.held = []) && s.m.houseSupB r
  [pre && (decide (s.m.flg CB_CTRL.EN b.val = false) && (s.m.pdOn (18 + b.val))),
   pre && (decide (s.m.flg CB_CTRL.EN b.val = false) && (decide (s.m.pdOn (18 + b.val) = false))),
   pre && (s.m.flg CB_CTRL.EN b.val && (decide (∃ j ∈ bankSlots b.val, s.m.liveSlice (slotOwner j) = true))),
   pre && (s.m.flg CB_CTRL.EN b.val && (decide (∀ j ∈ bankSlots b.val, s.m.liveSlice (slotOwner j) = false))),
   pre && (decide (s.m.flg CB_STAT.READY b.val = false) && (s.m.flg CB_CTRL.EN b.val && (decide (14 ≤ (s.m.bank b.val).done.length)
     && (let good := (List.range 14).filter (fun c => !bitOf (s.m.fld CB_CAL_STAT.BAD b.val) c); decide (good.length < 13))))),
   pre && (decide (s.m.flg CB_STAT.READY b.val = false) && (s.m.flg CB_CTRL.EN b.val && (decide (14 ≤ (s.m.bank b.val).done.length)
     && (let good := (List.range 14).filter (fun c => !bitOf (s.m.fld CB_CAL_STAT.BAD b.val) c); decide (13 ≤ good.length)))))]

def premisesCalibrationOfABank (s : State) (r : Req) (b : Fin 16) : List Bool :=
  let d := s.m.bank b.val
  let pre := decide (s.m.held = []) && s.m.houseSupB r
  [pre && (s.m.spareReady b.val && (decide (s.m.fld CB_CAL_STAT.PHASE b.val ≠ 0))),
   pre && (s.m.spareReady b.val && (decide (s.m.fld CB_CAL_STAT.PHASE b.val = 0)
     && ((match d.gapFrom with | some t => (decide (s.m.flg CB_CAL_CTRL.AUTO b.val = true ∨ 0 < d.left)) | _ => false)))),
   pre && (decide (s.m.fld CB_CAL_STAT.PHASE b.val = 2) && (decide (64 ≤ d.pairs) && (decide (d.sum.natAbs ≤ s.m.calMatch b.val * 64)))),
   pre && (decide (s.m.fld CB_CAL_STAT.PHASE b.val = 2) && (decide (64 ≤ d.pairs) && (decide (s.m.calMatch b.val * 64 < d.sum.natAbs) && (d.second)))),
   pre && (decide (s.m.fld CB_CAL_STAT.PHASE b.val = 2) && (decide (64 ≤ d.pairs) && (decide (s.m.calMatch b.val * 64 < d.sum.natAbs)
     && (decide (d.second = false))))),
   pre && (([0, 1, 2, 3] : List (Fin 14)).any fun c => ([0, 57344] : List (Int)).any fun p => ([0, 1,
     5] : List (Int)).any fun n => s.m.flg CB_CTRL.EN b.val && (decide (s.m.flg CB_STAT.READY b.val = false) && (decide (c.val ∉ d.done)
     && (let g := roundDiv (57344 * 32768) (p - n).toNat; decide (n < p) && (decide (g < 65536)))))),
   pre && (([0, 1, 2, 3] : List (Fin 14)).any fun c => ([0, 1, 5] : List (Int)).any fun z => ([0, 57344] : List (Int)).any fun p => ([0, 1,
     5] : List (Int)).any fun n => s.m.flg CB_CTRL.EN b.val && (decide (s.m.flg CB_STAT.READY b.val = false) && (decide (c.val ∉ d.done)
     && (let g := roundDiv (57344 * 32768) (p - n).toNat; decide (1024 < z.natAbs ∨ p ≤ n ∨ g < 31457 ∨ 34079 < g))))),
   pre && (([0, 1, 2, 3] : List (Fin 14)).any fun c => ([0, 1, 5] : List (Int)).any fun z => ([0, 57344] : List (Int)).any fun p => ([0, 1,
     5] : List (Int)).any fun n => s.m.flg CB_CTRL.EN b.val && (decide (s.m.flg CB_STAT.READY b.val = false) && (decide (c.val ∉ d.done)
     && (let g := roundDiv (57344 * 32768) (p - n).toNat; decide (z.natAbs ≤ 1024) && (decide (n < p) && (decide (31457 ≤ g)
     && (decide (g ≤ 34079))))))))]

def premisesComparatorControl (s : State) (r : Req) (c : Fin 256) (v : BitVec 32) : List Bool :=
  let pre := decide (s.m.held = []) && s.m.houseSupB r && decide (s.m.inWindow c.val = false)
  [pre && (decide (s.m.flg CMP_CTRL.ARM c.val = false) && (decide (CMP_CTRL.ARM.of v = 0) && (decide (s.m.flg CMP_CTRL.EN c.val = false)
     && (s.m.pdOn (34 + c.val / 64))))),
   pre && (decide (s.m.flg CMP_CTRL.ARM c.val = false) && (decide (CMP_CTRL.ARM.of v = 0) && (decide (s.m.flg CMP_CTRL.EN c.val = false)
     && (decide (s.m.pdOn (34 + c.val / 64) = false))))),
   pre && (decide (s.m.flg CMP_CTRL.ARM c.val = false) && (decide (CMP_CTRL.ARM.of v = 0) && (s.m.flg CMP_CTRL.EN c.val))),
   pre && (decide (s.m.flg CMP_CTRL.ARM c.val = false) && (s.m.flg CMP_CTRL.EN c.val && (decide (CMP_CTRL.EN.of v = 1)
     && (decide (badChop (s.m.rg (CMP_ACT.OWN.addr c.val)) = false))))),
   pre && (decide (s.m.flg CMP_CTRL.ARM c.val = false) && (decide (s.m.flg CMP_CTRL.EN c.val = false) && (decide (CMP_CTRL.EN.of v = 0)))),
   pre && decide (CMP_CTRL.EN.of v = bit (s.m.flg CMP_CTRL.EN c.val)),
   pre && (decide (s.m.flg CMP_CTRL.ARM c.val = false) && (s.m.flg CMP_CTRL.EN c.val && (decide (CMP_CTRL.EN.of v = 1)
     && (decide (CMP_CTRL.ARM.of v = 0) && (decide (CMP_CTRL.MODE.of v ≠ s.m.fld CMP_CTRL.MODE c.val))))))]

def premisesComparatorSettings (s : State) (r : Req) (c : Fin 256) (w : Fin 128) (v : BitVec 32) (_thr : BitVec 10) : List Bool :=
  let pre := decide (s.m.held = []) && s.m.houseSupB r
  [pre && decide (s.m.flg CMP_CTRL.THR_SYNC c.val = false),
   pre && (decide ((s.m.flg CMP_CTRL.ARM c.val && badChop v) = true)),
   pre && (decide ((s.m.flg CMP_CTRL.ARM c.val && badChop v) = false)),
   pre && (decide (s.m.flg CMP_CTRL.ARM (2 * w.val) = false) && (decide (s.m.flg CMP_WIN_CTRL.EN w.val = false)
     && (decide (¬ (s.m.flg CMP_CTRL.EN (2 * w.val) = true ∧ s.m.flg CMP_CTRL.EN (2 * w.val + 1) = true ∧ s.m.flg CMP_CTRL.ARM (2 * w.val + 1) = false ∧ s.m.fld CMP_THR.THR (2 * w.val + 1) < s.m.fld CMP_THR.THR (2 * w.val)))))),
   pre && (decide (s.m.flg CMP_CTRL.ARM (2 * w.val) = false) && (decide (s.m.flg CMP_WIN_CTRL.EN w.val = false) && (s.m.flg CMP_CTRL.EN (2 * w.val)
     && (s.m.flg CMP_CTRL.EN (2 * w.val + 1) && (decide (s.m.flg CMP_CTRL.ARM (2 * w.val + 1) = false)
     && (decide (s.m.fld CMP_THR.THR (2 * w.val + 1) < s.m.fld CMP_THR.THR (2 * w.val)))))))),
   pre && (decide (s.m.flg CMP_CTRL.ARM (2 * w.val) = false) && (s.m.flg CMP_WIN_CTRL.EN w.val))]

def premisesComparatorInputs (s : State) (c : Fin 256) (_e : Edge) (trip : Bool) : List Bool :=
  let d := s.m.cmp c.val
  let pre := decide (s.m.held = []) && s.m.flg CMP_CTRL.EN c.val
  [pre && (d.settled && (decide (d.raw ≠ some trip) && (decide (d.blank = none) && (decide (d.starts = []) && (d.masked))))),
   pre && (d.settled && (decide (d.raw ≠ some trip) && (decide (d.blank = none) && (decide (d.starts = []) && (decide (d.masked = false)
     && (decide (s.m.inWindow c.val = false) && (decide (s.m.flg CMP_CTRL.ARM c.val = false)
     && (decide (∀ w ∈ List.range 64, s.m.flg TB_TW_CTRL.EN w = false) && (trip
     && (decide (s.m.flg CMP_STAT.UNRES c.val = true ∨ s.m.flg CMP_STAT.OUT c.val = false))))))))))),
   pre && ((match d.blank with | some t => (decide (d.starts = []) && (d.hit && (decide (d.raw = some false)))) | _ => false)),
   pre && (([0, 1, 2, 3, 5, 0x10000000] : List (Nat)).any fun t => ([0, 1, 2, 3, 5, 0x10000000] : List (Nat)).any fun n => decide (d.blank = none)
     && (decide (d.starts = [(t, n)]))),
   pre && (decide (d.blank = none) && (decide (d.starts = []))),
   pre && decide (d.settled = false)]

def premisesComparatorChecks (s : State) (r : Req) (c : Fin 256) (v : BitVec 32) : List Bool :=
  let d := s.m.cmp c.val
  let pre := decide (s.m.held = []) && s.m.houseSupB r
  [pre && decide (s.m.flg CMP_CTRL.EN c.val = false ∨ s.m.flg CMP_CHK_RES.BUSY c.val = true),
   pre && (s.m.flg CMP_CTRL.EN c.val && (decide (s.m.flg CMP_CHK_RES.BUSY c.val = false) && (decide (s.m.inWindow c.val = false)
     && (decide (CMP_CHK.WHEN.of v = 0))))),
   pre && (s.m.flg CMP_CTRL.EN c.val && (decide (s.m.flg CMP_CHK_RES.BUSY c.val = false) && (decide (s.m.inWindow c.val = false)
     && (decide (CMP_CHK.WHEN.of v ≠ 0))))),
   pre && decide (s.m.flg CMP_CTRL.EN c.val = false ∨ s.m.flg CMP_CTRL.ARM (s.m.actOf c.val) = true),
   pre && (s.m.flg CMP_CTRL.EN c.val && (decide (s.m.flg CMP_CHK_RES.BUSY c.val = false) && (decide (s.m.inWindow c.val = false)
     && (decide (s.m.flg CMP_CTRL.ARM c.val = false) && (decide (CMP_CHK.WHEN.of v = 0) && (s.m.spareReady (c.val / 16)
     && (decide ((s.m.bank (c.val / 16)).reqs.length < 4)))))))),
   pre && (([0, 1, 2, 3] : List (Fin 16)).any fun b => (match (s.m.bank b.val).reqs with | q :: rest => ((match q.held with | some (st, cl) => (q.check && (decide (q.use = 0) && (decide (q.cmp = c.val) && (decide (s.m.flg CMP_ACT.EVT (s.m.actOf c.val) = false) && (decide (s.m.flg CMP_ACT.FAILSHUT (s.m.actOf c.val) = false)))))) | _ => false)) | _ => false)),
   pre && ((match d.check with | some k => (k.running && (decide (k.kind ≠ 3) && (decide (s.m.flg CMP_ACT.EVT (s.m.actOf c.val) = false) && (decide (s.m.flg CMP_ACT.FAILSHUT (s.m.actOf c.val) = false))))) | _ => false)),
   pre && decide (s.m.fld CMP_CHK_CFG.AUTO c.val ≠ 0)]

def premisesPortControl (s : State) (r : Req) (p : Fin 72) (v : BitVec 32) (_w : BitVec 64) : List Bool :=
  let pre := decide (s.m.held = []) && s.m.houseSupB r
  [pre && (decide (s.m.flg PP_CTRL.EN p.val = false) && (let asked := portCtrlRest.foldl (fun m f => m.setFld f p.val (f.of v)) s.m;
     decide (asked.portErr p.val = 0))),
   pre && (decide (s.m.flg PP_CTRL.EN p.val = false) && (let asked := portCtrlRest.foldl (fun m f => m.setFld f p.val (f.of v)) s.m;
     decide (asked.portErr p.val ≠ 0))),
   pre && (s.m.flg PP_CTRL.EN p.val && (s.m.portLive p.val)),
   pre && (s.m.flg PP_CTRL.EN p.val && (decide (s.m.portLive p.val = false)))]

def premisesPortEdges (s : State) (p : Fin 72) (e : Edge) (chB : Bool) (level : Bool) : List Bool :=
  let d := s.m.port p.val
  let stable := s.m.accepts p.val (if chB then d.atB else d.atA) e
  let pre := decide (s.m.held = [])
  [pre && decide ((if chB then d.b else d.a) = level ∨ stable = false),
   pre && (decide ((if chB then d.b else d.a) ≠ level) && (stable && (s.m.flg PP_CTRL.EN p.val && (decide (s.m.fld PP_CTRL.IF p.val = 0)
     && (decide (d.edge = none)))))),
   pre && (decide ((if chB then d.b else d.a) ≠ level) && (stable && (s.m.flg PP_CTRL.EN p.val && (decide (s.m.fld PP_CTRL.IF p.val = 0)
     && ((match d.edge with | some (t, c, x, st') => (decide (c ≠ chB) && (decide (edgeRaw e < t + 80))) | _ => false)))))),
   pre && (s.m.flg PP_CTRL.EN p.val && (decide (s.m.fld PP_CTRL.IDX p.val = 0) && (s.m.accepts p.val d.atZ e
     && (decide (∀ w ∈ List.range 64, s.m.flg TB_TW_CTRL.EN w = false))))),
   pre && (s.m.flg PP_CTRL.EN p.val && (s.m.accepts p.val d.atZ e))]

def premisesPortSerial (s : State) (r : Req) (p : Fin 72) (_v : BitVec 32) : List Bool :=
  let d := s.m.port p.val
  let g := s.m.portGroup p.val
  let pre := decide (s.m.held = []) && s.m.houseSupB r
  [pre && (s.m.flg PP_CTRL.EN p.val && (decide (s.m.fld PP_CTRL.IF p.val ≠ 0) && (s.m.pgOn g && (decide (d.txn = none) && (decide (d.biss = none)))))),
   pre && (s.m.flg PP_CTRL.EN p.val && (decide (s.m.fld PP_CTRL.IF p.val ≠ 0) && (s.m.pgOn g && (decide (d.txn ≠ none))))),
   pre && (match d.txn with | some x => (decide (x.dead = false)) | _ => false),
   pre && (match d.txn with | some x => (x.dead) | _ => false),
   pre && (decide (s.m.fld PP_CTRL.IF p.val = 3) && (decide (d.biss = none))),
   pre && decide (s.m.fld PP_CTRL.IF p.val ≠ 3 ∨ d.biss ≠ none),
   pre && (match d.biss with | some b => (true) | _ => false)]

theorem witness_ShutterCommands :
    (∀ p ∈ [(0, 0), (1, 2), (2, 1), (3, 0)], met (States3.t0[p.2]?.map fun (s, r, x) => premisesShutterCommands s r x) p.1 = true) := by decide +kernel

theorem witness_GateEdgesAndFaults :
    (∀ p ∈ [(0, 0), (1, 2), (2, 1)], met (States3.t1[p.2]?.map fun (s, x, l, g) => premisesCarrierAndGateEdges s x l g) p.1 = true) ∧
    (∀ p ∈ [(3, 0), (4, 1)], met (States14c.t1[p.2]?.map fun (s, x, l, g) => premisesCarrierAndGateEdges s x l g) p.1 = true) ∧
    (∀ p ∈ [(5, 2)], met (States3.t2[p.2]?.map fun (s, x, l, g) => premisesCarrierAndGateEdges s x l g) p.1 = true) ∧
    (∀ p ∈ [(6, 8)], met (States14c.t0[p.2]?.map fun (s, x, l, g) => premisesCarrierAndGateEdges s x l g) p.1 = true) ∧
    (∀ p ∈ [(0, 0), (1, 1), (2, 0)], met (States3.t3[p.2]?.map fun (s, x, i, e) => premisesGateFaultInputs s x i e) p.1 = true) := by decide +kernel

theorem witness_SafeTorqueOff :
    (∀ p ∈ [(0, 0), (1, 0), (2, 5), (3, 5)], met (States3.t4[p.2]?.map fun (s, i, ch, low, e) => premisesSafeTorqueOff s i ch low e) p.1 = true) := by decide +kernel

theorem witness_ConversionsOfABank :
    (∀ p ∈ [(0, 0), (1, 1), (2, 2), (3, 2), (6, 2)], met (States3.t5[p.2]?.map fun (s, b, c) => premisesConversionsOfABank s b c) p.1 = true) ∧
    (∀ p ∈ [(4, 0), (5, 1)], met (States14c.t2[p.2]?.map fun (s, b, c) => premisesConversionsOfABank s b c) p.1 = true) := by decide +kernel

theorem witness_FiltersAndInjections :
    (∀ p ∈ [(0, 0), (1, 1), (2, 3), (3, 2), (4, 4), (5, 0), (6, 5)], met (States3.t6[p.2]?.map fun (s, r, b, j,
      v) => premisesFiltersAndInjections s r b j v) p.1 = true) := by decide +kernel

theorem witness_BanksAndCalibration :
    (∀ p ∈ [(0, 0), (1, 1), (2, 3), (3, 2), (4, 5), (5, 4)], met (States3.t7[p.2]?.map fun (s, r, b, v,
      phase) => premisesBankStartAndStop s r b v phase) p.1 = true) ∧
    (∀ p ∈ [(0, 0), (1, 1), (2, 2), (3, 4), (4, 3), (5, 5), (6, 5), (7, 5)], met (States3.t8[p.2]?.map fun (s, r,
      b) => premisesCalibrationOfABank s r b) p.1 = true) := by decide +kernel

theorem witness_ComparatorControlAndSettings :
    (∀ p ∈ [(0, 0), (1, 1), (2, 2), (3, 3), (4, 0), (5, 0), (6, 4)], met (States3.t9[p.2]?.map fun (s, r, c,
      v) => premisesComparatorControl s r c v) p.1 = true) ∧
    (∀ p ∈ [(0, 0), (1, 3), (2, 0), (3, 0), (4, 1), (5, 2)], met (States3.t10[p.2]?.map fun (s, r, c, w, v,
      thr) => premisesComparatorSettings s r c w v thr) p.1 = true) := by decide +kernel

theorem witness_ComparatorInputsAndChecks :
    (∀ p ∈ [(0, 2), (1, 0), (4, 0), (5, 1)], met (States3.t11[p.2]?.map fun (s, c, e, trip) => premisesComparatorInputs s c e trip) p.1 = true) ∧
    (∀ p ∈ [(2, 0), (3, 1)], met (States14c.t4[p.2]?.map fun (s, c, e, trip) => premisesComparatorInputs s c e trip) p.1 = true) ∧
    (∀ p ∈ [(0, 0), (1, 1), (2, 2), (3, 0), (4, 3), (6, 4), (7, 5)], met (States3.t12[p.2]?.map fun (s, r, c,
      v) => premisesComparatorChecks s r c v) p.1 = true) ∧
    (∀ p ∈ [(5, 0)], met (States14c.t5[p.2]?.map fun (s, r, c, v) => premisesComparatorChecks s r c v) p.1 = true) := by decide +kernel

theorem witness_PositionPorts :
    (∀ p ∈ [(0, 0), (1, 3), (2, 2), (3, 1)], met (States3b.t0[p.2]?.map fun (s, r, p, v, w) => premisesPortControl s r p v w) p.1 = true) ∧
    (∀ p ∈ [(0, 0)], met (States13c.t1[p.2]?.map fun (s, p, e, chB, level) => premisesPortEdges s p e chB level) p.1 = true) ∧
    (∀ p ∈ [(1, 0), (2, 1), (3, 0), (4, 0)], met (States3b.t1[p.2]?.map fun (s, p, e, chB, level) => premisesPortEdges s p e chB level) p.1 = true) ∧
    (∀ p ∈ [(0, 0), (1, 1), (2, 1), (4, 6), (5, 0), (6, 2)], met (States3b.t2[p.2]?.map fun (s, r, p, v) => premisesPortSerial s r p v) p.1 = true) ∧
    (∀ p ∈ [(3, 0)], met (States14c.t6[p.2]?.map fun (s, r, p, v) => premisesPortSerial s r p v) p.1 = true) := by decide +kernel

/-! ### Premises met: queues and the outside ports -/

namespace States4

def gOn := wm [(TB_STATUS.LOCK, 0, 1), (TB_STATUS.VN_CAL, 0, 1)]

def sw (l : List (Fld × Nat × Nat)) := { setW gOn l with now := 777 }

def qw (q kind : Nat) (l : List (Fld × Nat × Nat)) := sw ([(QM_CFG.EN, q, 1), (QM_CFG.KIND, q, kind), (QM_BASE.BASE, q, 0x400000), (QM_LINK.AGENT, q,
    if kind = 0 then 17 else portAgent q)]++l)

def qo (q kind : Nat) (l : List (Fld × Nat × Nat)) := sw ([(QM_CFG.KIND, q, kind), (QM_BASE.BASE, q, 0x400000), (QM_LINK.AGENT, q,
    if kind = 0 then 17 else portAgent q)]++l)

def cf (kind : Nat) (en : Nat) : W32 := BitVec.ofNat 32 (putBits (putBits (en * 2^QM_CFG.EN.lo) QM_CFG.KIND.hi QM_CFG.KIND.lo kind) QM_CFG.LOG2.hi QM_CFG.LOG2.lo 5)

def ps (m : Mach) (q n : Nat) : Mach := { m with posts := [{queue := q, bytes := List.replicate n 7#8, drop := some (AX_TRC_DBASE.DBASE, 3)}, {queue := q, bytes := []}] }

def et (m : Mach) (d : EthP) : Mach := { m with eths := [(0, d)] }

def desc (a len id : Nat) : List Byte := bytesOfNat 4 a ++ bytesOfNat 2 len ++ bytesOfNat 2 0x3400 ++ bytesOfNat 8 0 ++ bytesOfNat 4 id
    ++ bytesOfNat 12 0

def dq (q : Nat) (m : Mach) (ds : List (List Byte)) : Mach := (setW m [(QM_CFG.EN, q, 1), (QM_CFG.KIND, q, 3), (QM_BASE.BASE, q, 0x400000),
    (QM_IDX.TAIL, q, ds.length)]).poke 0x10000000 ds.flatten

def ethm := sw [(OP_ETH_CTRL.EN, 0, 1), (OP_ETH_STAT.LINK, 0, 1)]

def ebuf (m : Mach) := m.poke 0x10001000 ((List.range 100).map (BitVec.ofNat 8))

def tun := setW ethm [(OP_ETH_CTRL.TUN, 0, 1)]

def pay (q n k : Nat) : List Byte := bytesOfNat 2 0x4B44 ++ bytesOfNat 2 q ++ bytesOfNat 4 n ++ (List.range k).map (BitVec.ofNat 8)

def tq (l : List (Fld × Nat × Nat)) := setW tun ([(QM_CFG.EN, 3220, 1), (QM_CFG.KIND, 3220, 0), (QM_BASE.BASE, 3220, 0x400000)] ++ l)

def fm (m : Nat) := sw [(OP_FLD_CTRL.EN, 1, 1), (OP_FLD_CTRL.MODE, 1, m), (OP_FLD_STAT.REC, 1, 5)]

def vi (l : List (Nat × Nat)) (h : Bool) : Mach := { sw [] with viss := [(2, {pulses := l, high := h})] }

def t1 : List (State × Req × Fin 4096 × BitVec 32) :=
  [((wst (sw [])), r0, 4095, 0xFFFFFFFF), ((wst (qo 5 1 [(QM_STAT.CFG_ERR, 5, 3)])), r0, 5, (cf 1 0)), ((wst (qo 5 1 [])), r0, 5, (cf 0 0)),
    ((wst (qw 5 1 [])), r0, 5, (cf 1 0))]

def t2 : List (State × Req × Fin 4096 × Bool × BitVec 16) :=
  ([0, 1, 2, 3].flatMap fun k => [((wst (qw 5 k [(QM_IDX.HEAD, 5, 65530), (QM_IDX.TAIL, 5, 5)])), r0, 5, false, 5), ((wst (qw 5 k [(QM_IDX.HEAD, 5,
    65530), (QM_IDX.TAIL, 5, 5)])), r0, 5, true, 0), ((wst (qw 5 k [(QM_IDX.HEAD, 5, 65530), (QM_IDX.TAIL, 5, 5)])), r0, 5, false, 9),
    ((wst (qw 5 k [(QM_IDX.HEAD, 5, 65530), (QM_IDX.TAIL, 5, 5)])), r0, 5, false, 11)])

def t3 : List (State × Req × Fin 4096 × BitVec 32) :=
  [((wst (sw [])), r0, 5, 0x12345678), ((wst (ps (qw 5 1 []) 6 32)), r0, 5, 0x12345678),
    ((wst ({ (qw 5 1 [(QM_STAT.PEND, 5, 3)]) with queues := [(5, {pend := 3, since := some 100, cnt := 4, time := 9})]})), r0, 5, 0x0)]

def t4 : List (State × Req × Fin 2 × Fin 4 × Fin 3 × Bool) :=
  [((wst (sw [(OP_PCIE_STAT.UP, 0, 1), (OP_PCIE_STAT.GEN, 0, 2)])), r0, 0, 3, 2, true), ((wst (et (sw [(OP_ETH_GCL_CTRL.RUN, 0, 1),
    (OP_ETH_GCL_CTRL.PEND, 0, 1)]) {next := some {entries := [(3, 100), (4, 200)], cycle := 1000, start := 5}, ofs := 7})), r0, 0, 1, 1, false)]

def t5 : List (State × Fin 2 × Fin 8 × Nat × List Byte × Bool) :=
  [((wst (sw [])), 0, 0, 999, [1, 2, 3], true), ((wst ethm), 0, 0, 999, [1, 2, 3], true), ((wst (dq 3208 ethm [desc 0x10001000 100 9])), 0, 0, 999, [1,
    2, 3], true), ((wst (dq 3200 (ebuf ethm) [desc 0x10001000 20 9])), 0, 0, 999, [1, 2, 3], true)]

def t6 : List (State × BitVec 48 × List Byte) :=
  [((wst (tq [])), 0x112233445566, (pay 3220 2 128)), ((wst (tq [])), 0x112233445566, (pay 3220 2 127))]

def t7 : List (State × Fin 8 × Nat × BitVec 29 × Bool × BitVec 8 × List Byte) :=
  ([fm 0, setW (fm 0) [(OP_FLD_STAT.REC, 1, 0)], setW (fm 0) [(OP_FLD_FILT.EN, 1, 1), (OP_FLD_MASK.MASK, 1, 0x1FFFFFFF), (OP_FLD_FILT.ID, 1, 77)],
    dq 3331 (fm 0) [desc 0x10001000 100 9], dq 3330 (ebuf (fm 0)) [desc 0x10001000 8 9],
    dq 3330 (setW (ebuf { fm 0 with tecs := [(1, 250)]}) [(OP_FLD_STAT.TEC, 1, 250)]) [desc 0x10001000 8 9], dq 3331 (fm 1) [desc 0x10001000 100 9],
    dq 3330 (ebuf (fm 1)) [desc 0x10001000 8 9]].map fun m => ((wst m), 1, 999, 0x1234, true, 3, [1, 2, 3]))

def t8 : List (State × Fin 16 × Edge) :=
  [((wst (vi [] false)), 2, ⟨100, 30, false, false⟩), ((wst (vi [(1000, 50)] false)), 2, ⟨100, 30, false, false⟩), ((wst (vi [(1000, 50)] true)), 2,
    ⟨100, 30, false, false⟩), ((wst (setW (vi [(1000, 50)] true) [(OP_VIS_SEN.EN, 0, 4), (OP_VIS_SFILT.V, 0, 10), (OP_VIS_SQ.EN, 0, 1),
    (OP_VIS_SQ.QUEUE, 0, 9)])), 2, ⟨100, 1, false, true⟩)]

end States4

namespace States14d

def gOn := wm [(TB_STATUS.LOCK, 0, 1), (TB_STATUS.VN_CAL, 0, 1)]

def sw (l : List (Fld × Nat × Nat)) := { setW gOn l with now := 777 }

def qw (q kind : Nat) (l : List (Fld × Nat × Nat)) := sw ([(QM_CFG.EN, q, 1), (QM_CFG.KIND, q, kind), (QM_BASE.BASE, q, 0x400000), (QM_LINK.AGENT, q,
    if kind = 0 then 17 else portAgent q)]++l)

def ps (m : Mach) (q n : Nat) : Mach := { m with posts := [{queue := q, bytes := List.replicate n 7#8, drop := some (AX_TRC_DBASE.DBASE, 3)}, {queue := q, bytes := []}] }

def fm (m : Nat) := sw [(OP_FLD_CTRL.EN, 1, 1), (OP_FLD_CTRL.MODE, 1, m), (OP_FLD_STAT.REC, 1, 5)]

def t0 : List (State × Req × Fin 4096 × Bool × BitVec 16) :=
  [((wst (sw [])), r0, 3712, false, 5)]

def t1 : List (State × Req × Fin 4096 × BitVec 32) :=
  [((wst (ps (qw 5 1 ((List.range 32).map fun k => (SYS_PD_STAT.ON, k, 0))) 5 32)), r0, 5, 0x0)]

def t2 : List (State × Fin 8 × Nat × BitVec 29 × Bool × BitVec 8 × List Byte) :=
  [((wst { fm 1 with des := [(1, (100, 1000000))] }), 1, 999, 0x1234, true, 3, [1, 2, 3])]

end States14d

def premisesQueueConfiguration (s : State) (r : Req) (q : Fin 4096) (v : BitVec 32) : List Bool :=
  let pre := decide (s.m.held = []) && s.m.houseSupB r
  [pre && decide (3712 ≤ q.val),
   pre && (decide (q.val < 3712) && (decide (s.m.flg QM_CFG.EN q.val = false) && (let m0 := s.m.putFlds qmCfgRest q.val v;
     decide (m0.enableErr q.val = 0)))),
   pre && (decide (q.val < 3712) && (decide (s.m.flg QM_CFG.EN q.val = false) && (let m0 := s.m.putFlds qmCfgRest q.val v;
     decide (m0.enableErr q.val ≠ 0)))),
   pre && (decide (q.val < 3712) && (s.m.flg QM_CFG.EN q.val))]

def premisesDoorbells (s : State) (r : Req) (q : Fin 4096) (side : Bool) (i : BitVec 16) : List Bool :=
  let ok := s.m.flg QM_CFG.EN q.val && sideMoves (s.m.fld QM_CFG.KIND q.val) side && s.m.indexOk q.val side i.toNat
  let pre := decide (s.m.held = []) && s.m.houseSupB r
  [pre && decide (3712 ≤ q.val),
   pre && (decide (q.val < 3712) && (ok && (side))),
   pre && (decide (q.val < 3712) && (ok && (decide (side = false)))),
   pre && (decide (q.val < 3712) && (decide (ok = false)))]

def premisesRecordsAndModeration (s : State) (r : Req) (q : Fin 4096) (_v : BitVec 32) : List Bool :=
  let pre := decide (s.m.held = []) && s.m.houseSupB r
  [pre && decide (s.m.posts = []),
   pre && (match s.m.posts with | p :: ps => (decide (s.m.outReady p.queue 1 = false)) | _ => false),
   pre && ((match s.m.posts with | p :: ps => (s.m.outReady p.queue 1 && (decide (p.queue < 4096) && (decide (s.m.flg QM_CFG.SPACE p.queue = false) && (decide (s.m.flg QM_CFG.WB p.queue = false) && (decide (s.m.memAt none (s.m.qEntry p.queue (s.m.qTail p.queue)) p.bytes.length = none)))))) | _ => false)),
   pre && decide (s.m.modDue q.val = none),
   pre && (match s.m.modDue q.val with | some t => (true) | _ => false),
   pre && decide (q.val < 3712)]

def premisesLinkAndEthernet (s : State) (r : Req) (p : Fin 2) (_gen : Fin 4) (_width : Fin 3) (_up : Bool) : List Bool :=
  let pre := decide (s.m.held = []) && s.m.houseSupB r
  [pre && s.m.flg OP_PCIE_STAT.UP 0,
   pre && s.m.pdOn 44,
   pre && (s.m.flg OP_ETH_GCL_CTRL.RUN p.val
     && ((match (s.m.eth p.val).change with | some (t, d) => ((match (s.m.eth p.val).stampAt t with | some st => (true) | _ => false)) | _ => false)))]

def premisesFramesInAndOut (s : State) (p : Fin 2) (tc : Fin 8) (t : Nat) (frame : List Byte) (_ok : Bool) : List Bool :=
  let u := s.m.until t
  let c := frameClass frame tc.val
  let rx := ethQueue p.val c true
  let tx := ethQueue p.val tc.val false
  let pre := decide (s.m.held = [])
  [pre && decide (s.m.ethLive p.val = false),
   pre && (s.m.ethLive p.val && (decide (p.val = 0 → s.m.flg OP_ETH_CTRL.TUN 0 = false)
     && ((match u.portTake rx (u.qFill rx) with | (none, m1) => (true) | _ => false)))),
   pre && (s.m.ethLive p.val && (decide (p.val = 0 → s.m.flg OP_ETH_CTRL.TUN 0 = false)
     && ((match u.portTake rx (u.qFill rx) with | (some d, m1) => (true) | _ => false)))),
   pre && (s.m.ethLive p.val && (decide ((s.m.eth p.val).live = none) && (decide ((s.m.eth p.val).next = none)
     && ((match u.portFrame tx with | (some (d, some bs), m1) => (true) | _ => false)))))]

def premisesCommandTunnel (s : State) (_src : BitVec 48) (b : List Byte) : List Bool :=
  let q := natOfBytes ((b.drop 2).take 2) % 4096
  let n := natOfBytes ((b.drop 4).take 1)
  let pre := decide (s.m.held = []) && s.m.ethLive 0 && s.m.flg OP_ETH_CTRL.TUN 0
  [pre && (decide (natOfBytes (b.take 2) = 0x4B44) && (decide (1 ≤ n) && (decide (n ≤ 22) && (decide (8 + 64 * n ≤ b.length) && (decide (3216 ≤ q)
     && (decide (q < 3248) && (s.m.flg QM_CFG.EN q && (decide (s.m.fld QM_CFG.KIND q = 0) && (decide (s.m.qFill q + n ≤ s.m.qN q)))))))))),
   pre && decide (¬ (natOfBytes (b.take 2) = 0x4B44 ∧ 1 ≤ n ∧ n ≤ 22 ∧ 8 + 64 * n ≤ b.length ∧ 3216 ≤ q ∧ q < 3248 ∧ s.m.flg QM_CFG.EN q = true ∧ s.m.fld QM_CFG.KIND q = 0 ∧ s.m.qFill q + n ≤ s.m.qN q))]

def premisesFieldPorts (s : State) (f : Fin 8) (t : Nat) (id : BitVec 29) (ide : Bool) (_info : BitVec 8) (_data : List Byte) : List Bool :=
  let u := s.m.until t
  let rx := 3329 + 2 * f.val
  let tx := 3328 + 2 * f.val
  let pre := decide (s.m.held = [])
  [pre && (s.m.fldLive f.val false && (decide (s.m.flg OP_FLD_STAT.BOFF f.val = false)
     && (decide (s.m.canAccepts f.val ide (if ide then id.toNat else id.toNat % 2048) = false)))),
   pre && (s.m.fldLive f.val false && (decide (s.m.flg OP_FLD_STAT.BOFF f.val = false)
     && (decide (s.m.canAccepts f.val ide (if ide then id.toNat else id.toNat % 2048) = true)
     && ((match (u.setFld OP_FLD_STAT.REC f.val (u.fld OP_FLD_STAT.REC f.val - 1)).portTake rx (u.qFill rx) with | (some d, m1) => (true) | _ => false))))),
   pre && (s.m.fldLive f.val false && (decide (s.m.flg OP_FLD_STAT.BOFF f.val = false)
     && ((match u.portFrame tx with | (some (d, some bs), m1) => (decide (255 < s.m.tec f.val + 8)) | _ => false)))),
   pre && (s.m.fldLive f.val true && (s.m.deHigh f.val t)),
   pre && (s.m.fldLive f.val true && (decide (s.m.deHigh f.val t = false)
     && ((match u.portTake rx (u.qFill rx) with | (some d, m1) => (true) | _ => false)))),
   pre && (s.m.fldLive f.val true && ((match u.portFrame tx with | (some (d, some bs), m1) => (true) | _ => false)))]

def premisesVisionEdges (s : State) (o : Fin 16) (_e : Edge) : List Bool :=
  let d := s.m.vis o.val
  let pre := decide (s.m.held = [])
  [pre && (match d.pulses with | p :: ps => (decide (d.high = false)) | _ => false),
   pre && (match d.pulses with | p :: ps => (d.high) | _ => false),
   pre && decide (d.pulses = []),
   pre && (let rising := bitOf (s.m.fld OP_VIS_SEN.EDGE 0) o.val; true),
   pre && (s.m.pdOn 0 && (bitOf (s.m.fld OP_VIS_SEN.EN 0) o.val && (let rising := !bitOf (s.m.fld OP_VIS_SEN.EDGE 0) o.val; s.m.flg OP_VIS_SQ.EN 0
     && (decide (∀ w ∈ List.range 64, s.m.flg TB_TW_CTRL.EN w = false)))))]

theorem witness_QueueConfiguration :
    (∀ p ∈ [(0, 0), (1, 1), (2, 2), (3, 3)], met (States4.t1[p.2]?.map fun (s, r, q, v) => premisesQueueConfiguration s r q v) p.1 = true) := by decide +kernel

theorem witness_DoorbellsRecordsModeration :
    (∀ p ∈ [(0, 0)], met (States14d.t0[p.2]?.map fun (s, r, q, side, i) => premisesDoorbells s r q side i) p.1 = true) ∧
    (∀ p ∈ [(1, 5), (2, 0), (3, 1)], met (States4.t2[p.2]?.map fun (s, r, q, side, i) => premisesDoorbells s r q side i) p.1 = true) ∧
    (∀ p ∈ [(0, 0), (1, 1), (3, 0), (4, 2), (5, 0)], met (States4.t3[p.2]?.map fun (s, r, q, v) => premisesRecordsAndModeration s r q v) p.1 = true) ∧
    (∀ p ∈ [(2, 0)], met (States14d.t1[p.2]?.map fun (s, r, q, v) => premisesRecordsAndModeration s r q v) p.1 = true) := by decide +kernel

theorem witness_LinkAndEthernet :
    (∀ p ∈ [(0, 0), (1, 0), (2, 1)], met (States4.t4[p.2]?.map fun (s, r, p, gen, width, up) => premisesLinkAndEthernet s r p gen width up) p.1 = true) := by decide +kernel

theorem witness_FramesAndTunnel :
    (∀ p ∈ [(0, 0), (1, 1), (2, 2), (3, 3)], met (States4.t5[p.2]?.map fun (s, p, tc, t, frame,
      ok) => premisesFramesInAndOut s p tc t frame ok) p.1 = true) ∧
    (∀ p ∈ [(0, 0), (1, 1)], met (States4.t6[p.2]?.map fun (s, src, b) => premisesCommandTunnel s src b) p.1 = true) := by decide +kernel

theorem witness_FieldPortsAndVision :
    (∀ p ∈ [(0, 2), (1, 3), (2, 5), (4, 6), (5, 7)], met (States4.t7[p.2]?.map fun (s, f, t, id, ide, info,
      data) => premisesFieldPorts s f t id ide info data) p.1 = true) ∧
    (∀ p ∈ [(3, 0)], met (States14d.t2[p.2]?.map fun (s, f, t, id, ide, info, data) => premisesFieldPorts s f t id ide info data) p.1 = true) ∧
    (∀ p ∈ [(0, 1), (1, 2), (2, 0), (3, 0), (4, 3)], met (States4.t8[p.2]?.map fun (s, o, e) => premisesVisionEdges s o e) p.1 = true) := by decide +kernel

/-! ### Premises met: the Reed cores -/

namespace States5

def run (l : List (Fld × Nat × Nat)) : Mach := { setW Mach.reset ((List.range 8).map (fun p => (SYS_PAIR_STAT.STATE, p, 0)) ++ l) with now := 7777 }

def core (m : Mach) (c : Nat) (r : Reed) : Mach := m.setReed c r

def kk : Core := { g := [(1, 5), (62, 0x10008000)], latch := [(0, 7), (1, 0xFFFFFFFFFFFFFFFF), (2, 3), (3, 9), (4, 0x4000000000000000), (5, 0x1122334455667788), (6, 0x10)], pc := 0x10000100, res := [(0, 11), (1, 12)], busy := 3 }

def split1 := [(SYS_PAIR_STAT.MODE, 1, 1)]

def ms0 : List Mach := [core (run split1) 3 {core := kk}, core (run []) 2 {core := kk, wfe := true}, core (run [(AXE.OVF, 2, 1), (AXE.DIVZ, 2, 1),
    (AXE.NX, 2, 1)]) 2 {core := {kk with latch := SMap.set (fun _ => 0) kk.latch 2 0}, first := true}]

def bun1 : Nat := (List.range 6).foldl (fun b i => b + [0x10505 % 0x100 + 0x10000 + 0x700, 0x0100 + 6, 0x5000 + 7, 0x80000, 0x0200 + 0x50,
    0x10000+0x100+0x45].getD i 0 * 2 ^ (20*i)) 0

def bun2 : Nat := 3 * 2^124 + 0x8000 * 2^108 + 0x4108 + (0x80000 + 2^17*1 + 0x0109) * 2^20 + 0x6040 * 2^40

def wb (m : Mach) (a : Nat) (b : Nat) : Mach := m.poke a (bytesOfNat 16 b)

def kr (p : Rep) : Core := { kk with rep := some p }

def p0 : Rep := { count := 3, left := 3, first := 0x100000F0, body := 1, pos := 0 }

def mem8 (m : Mach) := m.poke 0x10001FE8 ((List.range 64).map (fun i => BitVec.ofNat 8 (0x85 + 3*i)))

def sbe : SbEntry := { addr := 0x10002000, bytes := bytesOfNat 8 0x8877665544332211, guest := false, user := false }

def sbd : SbEntry := { addr := 0x30030000+0xC048, bytes := bytesOfNat 4 0x88776655, guest := false, user := false }

def sbt : SbEntry := { addr := 0x48, bytes := bytesOfNat 4 0x88776655, guest := false, user := false }

def vec (m : Mach) : Mach := [4, 5, 8, 9, 10, 16].foldl (fun m v => m.poke (0x10010000 + 16*v) (bytesOfNat 4 (0x10020000 + 0x100*v + 1 + 2 * (v%2))
    ++ bytesOfNat 4 0x10040000 ++ bytesOfNat 4 0x1000 ++ bytesOfNat 4 1)) m

def hv := ctlAddr 3 0x10

def vm (m : Mach) : Mach := (vec m).setRg hv 0x10010001 |>.setRg (ctlAddr 2 0x10) 0x10010001

def t0 : List (State × Fin 16 × BitVec 64) :=
  (ms0.flatMap fun m => [0, 5, 0x7FFFFFFFFFFFFFFF, 0x8000000000000000, 0xFFFFFFFFFFFFFFFF].map fun t => ((wst m), 3, t))

def t1 : List (State × Fin 16 × BitVec 64) :=
  (ms0.flatMap fun m => [0, 0x4000000000000000, 0x7FFFFFFFFFFFFFFF, 0x7FF0000000000000, 0xBFF8000000000000].map fun t => ((wst m), 3, t))

def t2 : List (State × Fin 16) :=
  ([wb (core (run split1) 3 {core := kk}) 0x10000100 bun1, wb (core (run []) 2 {core := kk}) 0x10000100 bun2, core (run split1) 3 {core := kr p0},
    core (run split1) 3 {core := kr {p0 with pos := 1}}, core (run split1) 3 {core := kr {p0 with pos := 1, left := 1}},
    core (run split1) 3 {core := kr {p0 with pos := 1, left := 1, held := some 77}}].flatMap fun m => [((wst m), 3)])

def t3 : List (State × Fin 16) :=
  ([wb (core (setW (run split1) [(⟨.ctl, 4, 31, 0⟩, 3, 9)]) 3 {core := kk}) 0x10000100 bun1].flatMap fun m => [((wst m), 3)])

def t4 : List (State × Fin 16 × BitVec 64) :=
  ([core (run split1) 3 {core := kk}, core (run []) 2 {core := kk}, core (run split1) 3 {core := kk, sb := [sbe, sbe]},
    core (run []) 2 {core := kk, resv := some 0x10002000}, core (run []) 2 {core := kk, resv := some 0x10002008},
    core (run []) 2 {core := kk, sb := [sbt, sbe], fenced := true, resv := some 0x10002000},
    core (run []) 2 {core := kk, sb := List.replicate 8 sbe, ldFence := 3}].flatMap fun m => [0x10001FF0, 0x10001FF1, 0x10002000-0x10,
    0x10002001-0x10, 0xFFFFFFFFFFFFFFF0, 0x38, 0x3000FFF0, 0, 1, 2].map fun t => ((wst (mem8 m)), 3, t))

def t5 : List (State × Fin 16 × BitVec 64) :=
  (([core (run split1) 3 {core := kk, sb := [sbd, sbe]},
    core {run split1 with stages := [(3, {locked := true, tapLock := true})]} 3 {core := kk, sb := [sbd, sbe]},
    core (run []) 2 {core := kk, sb := [sbt]},
    {core (run []) 2 {core := kk, sb := [sbe]} with ecc := [(0x10002000/8, .bad true)]}]).map fun m => ((wst (mem8 m)), 3, 0))

def t7 : List (State × Fin 16 × BitVec 64) :=
  (([core (run split1) 3 {core := kk}, core (run split1) 3 {core := kr p0, sb := [sbe], resv := some 3},
    core (run []) 2 {core := kr {p0 with held := some 99}, wfe := true}]).flatMap fun m => [0x10000101, 5].map fun t => ((wst (vm m)), 3, t))

end States5

namespace States5b

def run (l : List (Fld × Nat × Nat)) : Mach := { setW Mach.reset ((List.range 8).map (fun p => (SYS_PAIR_STAT.STATE, p, 0)) ++ l) with now := 7777 }

def core (m : Mach) (c : Nat) (r : Reed) : Mach := m.setReed c r

def kk : Core := { g := [(1, 5), (62, 0x10008000)], latch := [(0, 7), (1, 0xFFFFFFFFFFFFFFFF), (2, 3), (3, 9), (4, 0x4000000000000000), (5, 0x1122334455667788), (6, 0x10)], pc := 0x10000100, res := [(0, 11), (1, 12)], busy := 3 }

def split1 := [(SYS_PAIR_STAT.MODE, 1, 1)]

def sbe : SbEntry := { addr := 0x10002000, bytes := bytesOfNat 8 0x8877665544332211, guest := false, user := false }

def withC (k : Core) (j : Nat) : Core := k.setLatch 7 (BitVec.ofNat 64 j)

def ctlSt : List Mach := (List.range 0x45).map (fun j => core (run split1) 3 {core := withC kk j})

def vec (m : Mach) : Mach := [4, 5, 8, 9, 10, 16, 17, 18,
    19].foldl (fun m v => m.poke (0x10010000 + 16*v) (bytesOfNat 4 (0x10020000 + 0x100*v + 1 + 2 * (v%2)) ++ bytesOfNat 4 0x10040000
    ++ bytesOfNat 4 0x1000 ++ bytesOfNat 4 1)) m

def vecg (m : Mach) : Mach := [9, 16, 17, 18].foldl (fun m v => m.poke (0x10011000 + 16*v) (bytesOfNat 4 (0x10020000 + 0x100*v + 1 + 2 * (v%2))
    ++ bytesOfNat 4 0x10040000 ++ bytesOfNat 4 0x1000 ++ bytesOfNat 4 3)) m

def vm (m : Mach) : Mach := (((vecg (vec m)).setRg (ctlAddr 3 0x10) 0x10010001 |>.setRg (ctlAddr 2 0x10) 0x10010001).setRg (ctlAddr 3 0x11) 0x10011001).setRg (ctlAddr 2 0x11) 0x10011001

def brk := [(DBG_CTRL.BRKEN, 0, 0xFF), (DBG_SESS.ACTIVE, 0, 1)]

def evs : List Mach := [core (run [(ST.EM, 2, 0)]) 2 {core := kk, lorders := true, wdwarn := true}, core (run [(ST.EM, 2,
    0)]) 2 {core := kk, sterrG := true}, core (run [(ST.EM, 2, 0)]) 2 {core := kk, sterrH := true, wfe := true},
    {core (run [(ST.EM, 2, 0)]) 2 {core := kk} with qevents := [(4, ([7, 9], true))]},
    {core (run [(ST.EM, 2, 0), (ST.WORLD, 2, 1)]) 2 {core := kk} with qevents := [(5, ([7, 9], false))]},
    core (run split1) 3 {core := {kk with axn := some 63}}, core (run split1) 3 {core := {kk with axn := some 3}}]

def t1 : List (State × Fin 16 × BitVec 64) :=
  (ctlSt.flatMap fun m => [((wst m), 3, 0xFFFFFFFFFFFFFFFF), ((wst m), 3, 0x5555555512345678)])

def t3 : List (State × Fin 16 × BitVec 64) :=
  ([core (run [(ST.LEVEL, 2, 0)]) 2 {core := withC kk 5}, core (run [(ST.LEVEL, 2, 0)]) 2 {core := withC kk 0}, core (run [(ST.WORLD, 2,
    1)]) 2 {core := withC kk 0x15}, core (run [(ST.WORLD, 2, 1)]) 2 {core := withC {kk with old := [(0, some 0x80000010), (6, some 3)]} 0x0},
    core (run [(QM_CFG.EN, 5, 1), (QM_CFG.KIND, 5, 2), (QM_IDX.HEAD, 5, 10), (QM_IDX.TAIL, 5, 20)]) 2 {core := {kk with latch := [(8, 5)]}},
    core (run [(QM_CFG.EN, 5, 1), (QM_CFG.OWNER, 5, 1), (ST.LEVEL, 2, 0), (QM_CFG.KIND, 5, 2), (QM_IDX.HEAD, 5, 10), (QM_IDX.TAIL, 5,
    20)]) 2 {core := {kk with latch := [(8, 5)]}}, core (run []) 2 {core := kk, sb := [sbe]}].flatMap fun m => [4, 15, 22, 7,
    0x18].map fun t => ((wst m), 3, t))

def t4 : List (State × Fin 16 × BitVec 64) :=
  (([core (run split1) 3 {core := kk}, core (run []) 2 {core := kk}, core (run brk) 2 {core := kk, wfe := true, wdwarn := true, first := true},
    core (run (split1++[(ST.LEVEL, 3, 0)])) 3 {core := kk, sb := [sbe]}, core (run [(ST.WORLD, 2, 1)]) 2 {core := kk}]).flatMap fun m => [0x10000101,
    5].map fun t => ((wst (vm m)), 3, t))

def t5 : List (State × Fin 16 × BitVec 64) :=
  (evs.map fun m => ((wst (vm m)), 3, 0))

end States5b

namespace States5c

def run (l : List (Fld × Nat × Nat)) : Mach := { setW Mach.reset ((List.range 8).map (fun p => (SYS_PAIR_STAT.STATE, p, 0)) ++ l) with now := 7777 }

def core (m : Mach) (c : Nat) (r : Reed) : Mach := m.setReed c r

def kk : Core := { g := [(1, 5), (62, 0x10008000)], latch := [(0, 7), (1, 0xFFFFFFFFFFFFFFFF), (2, 3), (3, 9), (4, 0x4000000000000000), (5, 0x1122334455667788), (6, 0x10)], pc := 0x10000100, res := [(0, 11), (1, 12)], busy := 3 }

def split1 := [(SYS_PAIR_STAT.MODE, 1, 1)]

def vec (m : Mach) : Mach := [4, 5, 8, 9, 10, 16].foldl (fun m v => m.poke (0x10010000 + 16*v) (bytesOfNat 4 (0x10020000 + 0x100*v + 1 + 2 * (v%2))
    ++ bytesOfNat 4 0x10040000 ++ bytesOfNat 4 0x1000 ++ bytesOfNat 4 1)) m

def vecg (m : Mach) : Mach := [9, 11, 13, 16].foldl (fun m v => m.poke (0x10011000 + 16*v) (bytesOfNat 4 (0x10020000 + 0x100*v + 1 + 2 * (v%2))
    ++ bytesOfNat 4 0x10040000 ++ bytesOfNat 4 0x1000 ++ bytesOfNat 4 3)) m

def vm (m : Mach) : Mach := (((vecg (vec m)).setRg (ctlAddr 3 0x10) 0x10010001 |>.setRg (ctlAddr 2 0x10) 0x10010001).setRg (ctlAddr 3 0x11) 0x10011001).setRg (ctlAddr 2 0x11) 0x10011001

def brk2 := [(DBG_CTRL.BRKEN, 0, 0xFF), (DBG_SESS.ACTIVE, 0, 1), (DBG_SESS.HOUSE, 0, 1)]

def t0 : List (State × Fin 16 × BitVec 64) :=
  ([core (run brk2) 2 {core := kk, wfe := true, resv := some 4},
    core (run (brk2++split1)) 3 {core := kk, wfe := true, haltReq := none}].map fun m => ((wst (vm m)), 3, 0))

end States5c

def premisesReedIntegerUnits (s : State) (c : Fin 16) (t : BitVec 64) : List Bool :=
  let n := s.m.coreIdx c.val
  let k := (s.m.reed n).core
  let pre := decide (s.m.held = []) && s.m.issuingB n && decide (k.rep = none)
  [pre,
   pre && (([false, true] : List (Bool)).any fun u => let o := k.latchReg (bit u); ([((), t.toInt + o.toInt), ((),
     t.toInt - o.toInt)]).any fun e => let f := if e.2 < -(2 ^ 63) ∨ 2 ^ 63 ≤ e.2 then fOVF else 0; decide (f &&& (s.m.inForce n 6).toNat = 0)),
   pre && (let o := k.latchReg 2; let f := if o = 0 then fDIVZ else 0; decide (f &&& (s.m.inForce n 6).toNat = 0))]

def premisesReedFloatingPoint (s : State) (c : Fin 16) (t : BitVec 64) : List Bool :=
  let n := s.m.coreIdx c.val
  let o := (s.m.reed n).core.latchReg 4
  let pre := decide (s.m.held = []) && s.m.issuingB n && decide ((s.m.reed n).core.rep = none)
  [pre && (([((), 1), ((), 2), ((), 3), ((), 4), ((), 5), ((), 6), ((), 7), ((), 8), ((), 9), ((), 10), ((), 11), ((),
     12)]).any fun e => decide ((fpuOp e.2 t o).2 &&& (s.m.inForce n 6).toNat = 0)),
   pre && (decide (t = o) && (decide ((F64.of t).isNan = false))),
   pre && ((F64.of t).isNan && (decide (F64.of t ≠ .nan false) && (decide (F64.of o ≠ .nan false))))]

def premisesReedBundlesAndRepeats (s : State) (c : Fin 16) : List Bool :=
  let n := s.m.coreIdx c.val
  let k := (s.m.reed n).core
  let pre := decide (s.m.held = []) && s.m.issuingB n
  [pre && ((match s.m.fetch n with | (.ok b, m1) => (decide (encCause b k.rep.isSome = none) && (decide (k.rep = none) && (decide (bunFmt b ≠ 2) && (decide (∀ mv ∈ movesOf k b, trigOf mv.1 = none) && (decide (((movesOf k b).map Prod.fst).Nodup)))))) | _ => false)),
   pre && (([0, 5] : List (BitVec 20)).any fun f => decide (k.rep = none) && (decide (bitsOf f.toNat 14 12 = 0)
     && (let count := if bitOf f.toNat 15 then f.toNat % 4096 else (s.m.rg (ctlAddr n 1)).toNat; decide (count ≠ 0)))),
   pre && (([0, 5] : List (BitVec 20)).any fun f => decide (k.rep = none) && (decide (bitsOf f.toNat 14 12 = 0)
     && (let count := if bitOf f.toNat 15 then f.toNat % 4096 else (s.m.rg (ctlAddr n 1)).toNat; decide (count = 0)))),
   pre && (match k.rep with | some p => (decide (p.pos < p.body)) | _ => false),
   pre && ((match k.rep with | some p => (decide (p.body ≤ p.pos) && (decide (1 < p.left))) | _ => false)),
   pre && ((match k.rep with | some p => (decide (p.body ≤ p.pos) && (decide (p.left ≤ 1))) | _ => false))]

def premisesReedMemory (s : State) (c : Fin 16) (t : BitVec 64) : List Bool :=
  let n := s.m.coreIdx c.val
  let r := s.m.reed n
  let k := r.core
  let a := (t + k.latchReg 6).toNat % 2 ^ 32
  let w := s.m.whoCore n
  let pre := decide (s.m.held = [])
  [pre && (s.m.issuingB n && (decide (k.rep = none) && (([((), 1, fun v : Nat => (BitVec.ofNat 8 v).signExtend 64), ((), 1, fun v => BitVec.ofNat 64 v),
     ((), 2, fun v => (BitVec.ofNat 16 v).signExtend 64), ((), 2, fun v => BitVec.ofNat 64 v), ((), 4, fun v => (BitVec.ofNat 32 v).signExtend 64),
     ((), 4, fun v => BitVec.ofNat 64 v), ((), 8, fun v => BitVec.ofNat 64 v)]).any fun e => decide (s.m.accessFault n w a e.2.1 0 = none)
     && (decide (r.ldFence = 0) && (decide (¬ (0x30000000 ≤ a ∧ a < 0x40000000))
     && ((match s.m.memAt (some n) a e.2.1 with | some key => (s.m.goodCodeB key e.2.1 && (decide (youngest r.sb a e.2.1 = none))) | _ => false))))))),
   pre && (s.m.issuingB n && (decide (k.rep = none) && (([((), 1, fun v : Nat => (BitVec.ofNat 8 v).signExtend 64), ((), 1, fun v => BitVec.ofNat 64 v),
     ((), 2, fun v => (BitVec.ofNat 16 v).signExtend 64), ((), 2, fun v => BitVec.ofNat 64 v), ((), 4, fun v => (BitVec.ofNat 32 v).signExtend 64),
     ((), 4, fun v => BitVec.ofNat 64 v), ((), 8, fun v => BitVec.ofNat 64 v)]).any fun e => decide (s.m.accessFault n w a e.2.1 0 = none)
     && (decide (r.ldFence = 0) && (decide (¬ (0x30000000 ≤ a ∧ a < 0x40000000))
     && ((match youngest r.sb a e.2.1 with | some x => (x.covers a e.2.1 && (decide ((halves a e.2.1).length = 1))) | _ => false))))))),
   pre && (s.m.issuingB n && (decide (k.rep = none) && (([((), 1), ((), 2), ((), 4), ((), 8)]).any fun e => decide (s.m.accessFault n w a e.2 1 = none)
     && (s.m.sbRoom n a e.2)))),
   pre && (s.m.issuingB n && (decide (k.rep = none) && (decide (a % 8 = 0) && (lockable a && (decide (s.m.accessFault n w a 8 0 = none)
     && ((match s.m.memAt (some n) a 8 with | some key => (s.m.goodCodeB key 8 && (decide (r.ldFence = 0) && (decide (youngest r.sb a 8 = none)))) | _ => false))))))),
   pre && (s.m.issuingB n && (decide (k.rep = none) && (decide (a % 8 = 0) && (lockable a && (decide (s.m.accessFault n w a 8 1 = none)
     && (decide (r.sb = []) && ((match r.resv with | some key => (decide (memKey (some n) a = some key)) | _ => false)))))))),
   pre && (s.m.issuingB n && (decide (k.rep = none) && (decide (a % 8 = 0) && (lockable a && (decide (s.m.accessFault n w a 8 1 = none)
     && (decide (r.sb = []) && (decide (r.resv = none)))))))),
   pre && (s.m.issuingB n && (decide (k.rep = none) && (decide (t.toNat % 4 = 0)))),
   pre && (s.m.issuingB n && (decide (k.rep = none) && (decide (t.toNat % 4 ≠ 0) && (decide (r.sb = []))))),
   pre && (s.m.issuingB n && (decide (k.rep = none) && (decide (t.toNat % 4 ≠ 0) && (decide (r.sb ≠ []))))),
   pre && decide (r.sb = []),
   pre && ((match r.sb with | e :: rest => (decide (s.m.sbStalled n e = false) && ((match s.m.memAt (some n) e.addr e.bytes.length with | some key => (decide (e.bytes ≠ []) && (decide (rest ≠ [] ∨ s.m.safePair (n / 2) = false ∨ s.m.pState (n / 2) ≠ 1))) | _ => false))) | _ => false)),
   pre && (match r.sb with | e :: rest => (s.m.sbStalled n e) | _ => false),
   pre]

def premisesReedBranches (s : State) (c : Fin 16) (t : BitVec 64) : List Bool :=
  let n := s.m.coreIdx c.val
  let r := s.m.reed n
  let k := r.core
  let pre := decide (s.m.held = []) && s.m.issuingB n
  [pre && (([((), t.toNat % 2 ^ 32, false), ((), (k.pc + 16 * t.toNat) % 2 ^ 32, false), ((), t.toNat % 2 ^ 32, true), ((),
     (k.pc + 16 * t.toNat) % 2 ^ 32, true)]).any fun e => decide (e.2.1 % 16 = 0) && (decide (k.rep = none))),
   pre && (([((), t.toNat % 2 ^ 32, false), ((), (k.pc + 16 * t.toNat) % 2 ^ 32, false), ((), t.toNat % 2 ^ 32, true), ((),
     (k.pc + 16 * t.toNat) % 2 ^ 32, true)]).any fun e => decide (e.2.1 % 16 ≠ 0)
     && ((s.m.entryOfVec n (s.m.inGuest n) 4).any fun (handler, pa, sp) => true))]

def premisesReedControlRegisters (s : State) (c : Fin 16) (t : BitVec 64) : List Bool :=
  let n := s.m.coreIdx c.val
  let r := s.m.reed n
  let k := r.core
  let pre := decide (s.m.held = []) && s.m.issuingB n && decide (k.rep = none)
  [pre && (crKnown t.toNat && (s.m.crMay n t.toNat && (decide (t = 4)))),
   pre && (crKnown t.toNat && (s.m.crMay n t.toNat && (decide (t.toNat ∈ [0, 1, 3, 5, 6, 7])))),
   pre && (let j := (k.latchReg 7).toNat; crKnown j && (s.m.crMay n j && (decide (j ≠ 0 ∨ s.m.atUser n = false) && (decide (j = 1))))),
   pre && (let j := (k.latchReg 7).toNat; crKnown j && (s.m.crMay n j && (decide (j ≠ 0 ∨ s.m.atUser n = false) && (crSync j)))),
   pre && decide (s.m.safePair (n / 2) = false),
   pre && (s.m.safePair (n / 2) && (decide (r.sb = []) && (decide (r.resv = none)))),
   pre && (([((), false), ((), true)]).any fun e => let q := (k.latchReg 8).toNat % 4096; let i := t.toNat % 65536;
     let own := (!s.m.inGuest n && !s.m.atUser n) || s.m.inGuest n = s.m.flg QM_CFG.OWNER q;
     let ok := own && s.m.flg QM_CFG.EN q && sideMoves (s.m.fld QM_CFG.KIND q) e.2 && s.m.indexOk q e.2 i; decide (r.sb = []) && (ok && (e.2))),
   pre && (([((), false), ((), true)]).any fun e => let q := (k.latchReg 8).toNat % 4096; let i := t.toNat % 65536;
     let own := (!s.m.inGuest n && !s.m.atUser n) || s.m.inGuest n = s.m.flg QM_CFG.OWNER q;
     let ok := own && s.m.flg QM_CFG.EN q && sideMoves (s.m.fld QM_CFG.KIND q) e.2 && s.m.indexOk q e.2 i; decide (r.sb = []) && (ok
     && (decide (e.2 = false)))),
   pre && (([((), false), ((), true)]).any fun e => let q := (k.latchReg 8).toNat % 4096; let i := t.toNat % 65536;
     let own := (!s.m.inGuest n && !s.m.atUser n) || s.m.inGuest n = s.m.flg QM_CFG.OWNER q;
     let ok := own && s.m.flg QM_CFG.EN q && sideMoves (s.m.fld QM_CFG.KIND q) e.2 && s.m.indexOk q e.2 i; decide (r.sb = []) && (decide (ok = false)
     && (own))),
   pre && (([((), false), ((), true)]).any fun e => let q := (k.latchReg 8).toNat % 4096; let i := t.toNat % 65536;
     let own := (!s.m.inGuest n && !s.m.atUser n) || s.m.inGuest n = s.m.flg QM_CFG.OWNER q;
     let ok := own && s.m.flg QM_CFG.EN q && sideMoves (s.m.fld QM_CFG.KIND q) e.2 && s.m.indexOk q e.2 i; decide (r.sb = []) && (decide (ok = false)
     && (decide (own = false))))]

def premisesReedExceptions (s : State) (c : Fin 16) (_t : BitVec 64) : List Bool :=
  let n := s.m.coreIdx c.val
  let r := s.m.reed n
  let k := r.core
  let g := s.m.inGuest n
  let pre := decide (s.m.held = [])
  [pre && (s.m.issuingB n && (decide (k.rep = none) && ((s.m.entryOfVec n g 8).any fun (handler, pa, sp) => true))),
   pre && (s.m.issuingB n && (decide (k.rep = none) && (decide (s.m.events n ≠ []) && (decide (r.wfe = false))))),
   pre && (s.m.issuingB n && (decide (k.rep = none) && (decide (s.m.events n = [])))),
   pre && (s.m.issuingB n && (decide (k.rep = none) && (s.m.brkHalts n && (decide (r.sb = []))))),
   pre && (s.m.issuingB n && (decide (k.rep = none) && (decide (s.m.brkHalts n = false) && ((s.m.entryOfVec n g 9).any fun (handler, pa, sp) => true)))),
   pre && (s.m.issuingB n && (decide (k.rep = none) && (decide (s.m.atUser n = false)
     && ((match s.m.eretFrame n (k.gReg 62).toNat with | (.ok ws, m2) => decide (m2 = s.m) | _ => false))))),
   pre && (s.m.issuingB n && (decide (k.rep = none) && (s.m.atUser n && ((s.m.entryOfVec n g 5).any fun (handler, pa, sp) => true)))),
   pre && (s.m.issues n && (k.axn.isSome
     && ((match s.m.fetch n with | (.ok b, m1) => (s.m.axDelivers n (movesOf k b) && ((s.m.entryOfVec n g 10).any fun (handler, pa, sp) => true)) | _ => false)))),
   pre && (s.m.issues n && (decide (k.axn = none))),
   pre && (s.m.issues n && (decide (s.m.eventDue n = none))),
   pre && (s.m.issues n
     && ((match s.m.eventDue n with | some (v, gv) => (decide (v ≠ 16) && ((s.m.entryOfVec n gv v).any fun (handler, pa, sp) => true)) | _ => false))),
   pre && (s.m.issues n && ((match s.m.eventDue n with | some (16, gv) => ((s.m.entryOfVec n gv 16).any fun (handler, pa, sp) => true) | _ => false)))]

theorem witness_ReedArithmetic :
    (∀ p ∈ [(0, 0), (1, 0), (2, 0)], met (States5.t0[p.2]?.map fun (s, c, t) => premisesReedIntegerUnits s c t) p.1 = true) ∧
    (∀ p ∈ [(0, 0), (1, 1), (2, 2)], met (States5.t1[p.2]?.map fun (s, c, t) => premisesReedFloatingPoint s c t) p.1 = true) := by decide +kernel

theorem witness_ReedBundlesRepeatsBranches :
    (∀ p ∈ [(0, 0), (2, 0), (3, 2), (4, 3), (5, 4)], met (States5.t2[p.2]?.map fun (s, c) => premisesReedBundlesAndRepeats s c) p.1 = true) ∧
    (∀ p ∈ [(1, 0)], met (States5.t3[p.2]?.map fun (s, c) => premisesReedBundlesAndRepeats s c) p.1 = true) ∧
    (∀ p ∈ [(0, 0), (1, 0)], met (States5.t7[p.2]?.map fun (s, c, t) => premisesReedBranches s c t) p.1 = true) := by decide +kernel

theorem witness_ReedMemory :
    (∀ p ∈ [(0, 0), (1, 20), (2, 0), (3, 0), (4, 30), (5, 0), (6, 0), (7, 1), (8, 21), (9, 0), (10, 20), (12, 0)], met (States5.t4[p.2]?.map fun (s, c,
      t) => premisesReedMemory s c t) p.1 = true) ∧
    (∀ p ∈ [(11, 1)], met (States5.t5[p.2]?.map fun (s, c, t) => premisesReedMemory s c t) p.1 = true) := by decide +kernel

theorem witness_ReedControlRegisters :
    (∀ p ∈ [(0, 0), (1, 3), (3, 10), (5, 0), (6, 21), (7, 22), (8, 0), (9, 10)], met (States5b.t3[p.2]?.map fun (s, c,
      t) => premisesReedControlRegisters s c t) p.1 = true) ∧
    (∀ p ∈ [(2, 2), (4, 0)], met (States5b.t1[p.2]?.map fun (s, c, t) => premisesReedControlRegisters s c t) p.1 = true) := by decide +kernel

theorem witness_ReedExceptions :
    (∀ p ∈ [(0, 1), (1, 1), (4, 1), (5, 1), (7, 5), (8, 0), (9, 1), (10, 0), (11, 3)], met (States5b.t5[p.2]?.map fun (s, c,
      t) => premisesReedExceptions s c t) p.1 = true) ∧
    (∀ p ∈ [(2, 0), (6, 6)], met (States5b.t4[p.2]?.map fun (s, c, t) => premisesReedExceptions s c t) p.1 = true) ∧
    (∀ p ∈ [(3, 0)], met (States5c.t0[p.2]?.map fun (s, c, t) => premisesReedExceptions s c t) p.1 = true) := by decide +kernel

/-! ### Premises met: pairs, memory, supervision, resets and clock -/

namespace States6

def run (l : List (Fld × Nat × Nat)) : Mach := { setW Mach.reset ((List.range 8).map (fun p => (SYS_PAIR_STAT.STATE, p, 0)) ++ l) with now := 7777 }

def core (m : Mach) (c : Nat) (r : Reed) : Mach := m.setReed c r

def kk : Core := { g := [(1, 5), (62, 0x10008000)], pc := 0x10000100, busy := 3 }

def sbe : SbEntry := { addr := 0x10002000, bytes := bytesOfNat 8 0x8877665544332211, guest := false, user := false }

def pd (m : Mach) (p : Nat) (d : Pair) : Mach := m.setPair p d

def k2 : Core := { g := [(1, 7)], pc := 0x500 }

def tcm (m : Mach) : Mach := (m.poke (tcmKey 2 + 8) (List.replicate 16 5#8)).poke (tcmKey 3 + 16) (List.replicate 16 5#8)

def pms : List Mach := [pd (core (run []) 2 {core := kk}) 1 {slots := [(0, some {core := k2}), (1, some {core := k2})], undo := [(1, some 9)]},
    pd (core (run []) 2 {core := kk, sb := [sbe]}) 1 {slots := [(0, some {core := k2})]}, pd (core (run []) 2 {core := kk}) 1 {item := some 3},
    pd (core (run [(SYS_PAIR_STAT.STATE, 1, 2)]) 2 {core := kk}) 1 {item := some 3, back := some ({core := k2}, [])},
    pd (core (run [(SYS_PAIR_STAT.STATE, 1,
    2)]) 2 {core := kk, resvLog := some 5}) 1 {item := some 3, back := some ({core := k2}, [(3, 7)]), due := some 5}, core (run []) 2 {core := kk},
    run [(SYS_PAIR_STAT.STATE, 1, 3)], run [(SYS_PAIR_STAT.STATE, 1, 5)]]

def sc (l : List (Fld × Nat × Nat)) (c : SMap Ecc) : Mach := { run ((SYS_MEM_CTRL.SCRUB, 0, 1)::l) with ecc := c, power := {wipes := [3, 8, 9]} }

def wdm (w : Nat) (l : List (Fld × Nat × Nat)) (d : Wd) : Mach := { run ([(wdFld SUP_PWD_CTRL.EN SUP_DWD_CTRL.EN w, 0, 1), (wdFld SUP_PWD_STAT.RUN SUP_DWD_STAT.RUN w, 0, 1), (wdFld SUP_PWD_CTRL.WARN SUP_DWD_CTRL.WARN w, 0, 3)] ++ l) with wds := [(w, d)], reeds := [(2, {core := kk})] }

def t0 : List (State × Fin 8) :=
  (pms.map fun m => ((wst (tcm m)), 1))

def t1 : List (State × Req × Fin 8) :=
  (pms.map fun m => ((wst (tcm m)), r0, 1))

def t2 : List (State × Req × Fin 8) :=
  ([pd (core (run []) 2 {core := kk, resv := some 5}) 1 {due := some 300},
    pd (core (run []) 2 {core := kk, resv := some 5, sb := [sbe]}) 1 {due := some 300},
    pd (core (run []) 2 {core := kk, resv := some 5, sb := [sbe]}) 1 {}, run [(SYS_PAIR_STAT.MODE, 1, 1), (SYS_PAIR_CTRL.SPLIT, 1, 1)],
    run [(SYS_PAIR_STAT.STATE, 1, 5)], run [(SYS_PAIR_STAT.STATE, 1, 4)]].map fun m => ((wst (tcm m)), r0, 1))

def t3 : List (State × Nat × Fin 3 × Fin 14) :=
  ([sc [] [], sc [(SYS_MEM_CECNT.TCM, 0, 65535)] [(0x200000008/8, .correctable), (0x10000008/8, .bad true), (0x80000000/8, .bad false)],
    run []].flatMap fun m => [0x200000008, 0x10000008, 0x80000005, 0x5].flatMap fun k => [0, 1, 2].flatMap fun u => [3, 5, 8,
    9].map fun w => ((wst m), k, (Fin.ofNat 3 u), w))

def t4 : List (State × Fin 16 × Fin 9 × BitVec 32) :=
  ([0, 1, 8].flatMap fun w => [wdm w [] {}, wdm w [] {half := true, kicked := some 7000}, wdm w [] {half := true},
    {wdm w [] {half := true, kicked := some 7} with now := 160000000}, wdm w [] {frozen := some 3}, run [],
    wdm w [(wdFld SUP_PWD_WIN.TMIN SUP_DWD_WIN.TMIN w, 0, 50)] {half := true, kicked := some 7000}].flatMap fun m => [0xC35A, 0x3CA5,
    5].map fun v => ((wst (tcm m)), 3, (Fin.ofNat 9 w), v))

def t5 : List (State × Fin 16 × Fin 9 × BitVec 32) :=
  ([{run [] with sup := {grace := some 0}}, {run [] with sup := {grace := some 99}},
    {run [] with sup := {grace := some 0, rec_ := some (1, 2)}}].map fun m => ((wst m), 3, 8, 0))

end States6

namespace States6b

def run (l : List (Fld × Nat × Nat)) : Mach := { setW Mach.reset ((List.range 8).map (fun p => (SYS_PAIR_STAT.STATE, p, 0)) ++ l) with now := 7777 }

def tcm (m : Mach) : Mach := (m.poke (tcmKey 2 + 8) (List.replicate 16 5#8)).poke (tcmKey 3 + 16) (List.replicate 16 5#8)

def full (h : List Nat) : Mach := { tcm (run [(SUP_LO_STAT.ACT, 0, 1), (SYS_MEM_EADDR.ADDR, 0, 77), (AX_CTRL.EN, 3, 1), (SYS_LC_STAT.STATE, 0, 2), (SUP_FSTAT.EXTF, 0, 1), (TB_STATUS.LOCK, 0, 1), (DBG_SESS.ACTIVE, 0, 1), (SYS_MEM_CECNT.TCM, 0, 7), (OP_STO_STAT.SAFE, 0, 3), (SUP_LO_SEQ.SEQ, 0, 8), (SYS_BOOT_STAT.MODE, 0, 1), (SYS_PAIR_STAT.MODE, 3, 1), (OP_PCIE_STAT.UP, 0, 1)]) with held := h, power := {loLoss := true, straps := 5}, ret := [(5, 7)], flash := [(3, 4)], host := [(9, 1)], sup := {warms := 70000, lvl := 5}, tap := {ctxs := [(0, some {})]} }

def ck (l : List (Fld × Nat × Nat)) : Mach := run l

def pw (m : Mach) (n : Nat) (b : Bool) : Mach := { m with power := {switch := some (n, b)}}

def t0 : List (State × Req × BitVec 4 × BitVec 32 × Bool) :=
  ([full [], full [0], full [0, 1], full [1, 2], {full [0] with power := {}}].flatMap fun m => [0x57520000, 0x5752, 1].flatMap fun v => [false,
    true].map fun k => ((wst m), r0, 5, v, k))

def t2 : List (State × Req × BitVec 6 × BitVec 10) :=
  ([ck [], ck [(TB_STATUS.LOCK, 0, 1), (AX_CTRL.EN, 3, 1), (AX_STATE.RUN, 3, 1), (TB_PG_CTRL.EN, 0, 1), (TB_PG_STAT.RUN, 0, 1)], ck [(SYS_CLK_STAT.HOLD,
    0, 1)], ck [(SYS_PD_STAT.ON, 0, 0)], pw (tcm (ck [(SYS_PD_STAT.ON, 0, 0xFFF)])) 42 true, pw (ck []) 7 false, ck [(CB_CTRL.EN, 0, 1)],
    (pw (ck [(SYS_PD_STAT.ON, 0, 0xFFF)]) 43 true).poke 0x10800000 (List.replicate 16 5#8)].flatMap fun m => [3, 5, 6, 13, 20, 42, 47, 48,
    63].map fun d => ((wst m), r0, d, 800))

end States6b

namespace States13f

def lo (l : List (Fld × Nat × Nat)) : Mach := { wm ([(SUP_LO_CFG.SNAP, 0, 3), (SUP_ESC.STOPTMO, 0, 7), (SUP_ESC.EXTF_FILT, 0, 9)] ++ l) with now := 7777 }

def su (m : Mach) (d : Sup) : Mach := { m with sup := d }

def ed : Edge := ⟨1000, 30, false, false⟩

def slc (m : Mach) (x : Nat) (d : Slice) : Mach := { m with slices := [(x, d)] }

def magic (b : Nat) : List (Nat × Byte) := (List.range 4).map (fun i => (recBuf b + i, (bytesOfNat 4 0x4C4F5244).getD i 0))

def t0 : List (State × Req × Edge × Bool) :=
  ([lo [], lo [(SUP_LO_STAT.ACT, 0, 1), (SUP_LO_STAT.DONE, 0, 1)], su (lo []) {lvl := 63}, su (lo [(SUP_LO_STAT.ACT, 0,
    1)]) {lvl := 63, rec_ := some (1, 2)}, su (lo [(SUP_LO_CFG.SNAP, 0, 0)]) {rec_ := some (0, 1)},
    { su (lo []) {rec_ := some (1, 2)} with ret := magic 1 }, slc (lo []) 3 {supStop := some 100}, slc (lo [(AX_LIM_STAT.PHASE, 3,
    4)]) 3 {supStop := some 100}, lo [(SUP_LO_CFG.SNAP, 0, 0), (SUP_ESC.EXTF_ACT, 0, 0)]].flatMap fun m => [true, false].map fun b => ((wst m), r0,
    ed, b))

def t1 : List (State × Nat × Fin 3 × Fin 14) :=
  [((wst (lo [(SYS_MEM_CTRL.SCRUB, 0, 0)])), 0x10000008, 0, 3)]

end States13f

def premisesPairRecovery (s : State) (p : Fin 8) : List Bool :=
  let n := 2 * p.val
  let r := s.m.reed n
  let d := s.m.pair p.val
  let pre := decide (s.m.held = []) && s.m.safePair p.val
  [pre && (s.m.issuingB n && (([0, 1, 2, 3] : List (Fin 16)).any fun c => decide (c.val / 2 = p.val))),
   pre && (s.m.issuingB n && (([0, 1, 2, 3] : List (Fin 16)).any fun c => ([0, 1, 2, 3] : List (Fin 8)).any fun item => decide (c.val / 2 = p.val)
     && (decide (item.val ≠ 0) && (decide (item.val ≠ 7) && (decide (d.item = none) && (decide (r.sb = []))))))),
   pre && (s.m.issuingB n && (([0, 1, 2, 3] : List (Fin 16)).any fun c => ([0, 1, 2, 3] : List (Fin 8)).any fun item => decide (c.val / 2 = p.val)
     && (decide (item.val ≠ 0) && (decide (item.val ≠ 7) && (decide (d.item = none) && (decide (r.sb ≠ []))))))),
   pre && (s.m.issuingB n && (([0, 1, 2, 3] : List (Fin 16)).any fun c => ([0, 1, 2, 3] : List (Fin 8)).any fun item => decide (c.val / 2 = p.val)
     && (decide (item.val ≠ 0) && (decide (item.val ≠ 7) && (decide (d.item ≠ none)))))),
   pre && decide (s.m.pState p.val ≠ 2),
   pre && (decide (s.m.pState p.val = 2) && (([0, 1, 2, 3] : List (Fin 4)).any fun out => decide (out.val ≠ 0))),
   pre && (decide (s.m.pState p.val = 2) && ((match d.back with | some (x, ws) => (decide (ws = [])) | _ => false))),
   pre && decide (s.m.pState p.val = 0 ∨ s.m.pState p.val = 3)]

def premisesMilestonesAndPairCommands (s : State) (r : Req) (p : Fin 8) : List Bool :=
  let n := 2 * p.val
  let d := s.m.pair p.val
  let pre := decide (s.m.held = []) && s.m.houseSupB r
  [pre && (s.m.safePair p.val && (decide (s.m.pState p.val ≤ 2) && (decide (s.m.pState p.val = 0) && (decide ((s.m.reed n).sb = [])
     && (decide ((s.m.reed n).resv = none)))))),
   pre && (s.m.safePair p.val && (decide (s.m.pState p.val ≤ 2) && (decide (s.m.pState p.val ≠ 0 ∨ (s.m.reed n).sb ≠ [] ∨ (s.m.reed n).resv ≠ none)))),
   pre && decide (s.m.safePair p.val = false),
   pre && ((match d.due with | some t => (s.m.safePair p.val && (decide (s.m.pState p.val = 0) && (decide ((s.m.reed n).resv ≠ none) && (decide ((s.m.reed n).sb = []))))) | _ => false)),
   pre && ((match d.due with | some t => (s.m.safePair p.val && (decide (s.m.pState p.val = 0) && (decide ((s.m.reed n).resv ≠ none) && (decide ((s.m.reed n).sb ≠ []))))) | _ => false)),
   pre && decide (d.due = none),
   pre && (decide (s.m.pState p.val = 5) && (s.m.pdOn (5 + p.val))),
   pre && decide (s.m.pState p.val ≠ 5)]

def premisesScrubberAndWipes (s : State) (k : Nat) (u : Fin 3) (w : Fin 14) : List Bool :=
  let c := SMap.get eccGood s.m.ecc (k / 8)
  let pre := decide (s.m.held = [])
  [pre && decide (s.m.flg SYS_MEM_CTRL.SCRUB 0 = false ∨ s.m.memOn k = false),
   pre && (s.m.flg SYS_MEM_CTRL.SCRUB 0 && (s.m.memOn k && (decide (u.val = 0) && (decide (c = .good))))),
   pre && (s.m.flg SYS_MEM_CTRL.SCRUB 0 && (s.m.memOn k && (decide (u.val ≠ 2) && (decide (c = .correctable ∨ (u.val = 1 ∧ c = .good)))))),
   pre && (s.m.flg SYS_MEM_CTRL.SCRUB 0 && (s.m.memOn k && (decide (u.val = 2 ∨ ∃ b, c = .bad b)))),
   pre && decide (w.val ∉ s.m.power.wipes),
   pre && (decide (w.val ∈ s.m.power.wipes) && (decide (w.val < 8))),
   pre && (decide (w.val ∈ s.m.power.wipes) && (decide (w.val = 8))),
   pre && (decide (w.val ∈ s.m.power.wipes) && (decide (w.val = 9)))]

def premisesWatchdogs (s : State) (c : Fin 16) (w : Fin 9) (v : BitVec 32) : List Bool :=
  let r : Req := .reed c
  let d := s.m.wd w.val
  let pre := decide (s.m.held = [])
  [pre && (s.m.houseSupB r && (decide (w.val = 8 ∨ c.val / 2 = w.val) && (decide (s.m.wdEn w.val = false ∨ d.frozen ≠ none)))),
   pre && (s.m.houseSupB r && (decide (w.val = 8 ∨ c.val / 2 = w.val) && (s.m.wdEn w.val && (decide (d.frozen = none) && (decide (v = 0xC35A)
     && (decide (d.half = false))))))),
   pre && (s.m.houseSupB r && (decide (w.val = 8 ∨ c.val / 2 = w.val) && (s.m.wdEn w.val && (decide (d.frozen = none) && (decide (v = 0x3CA5) && (d.half
     && (decide (∀ t, d.kicked = some t → s.m.wdMin w.val * 160000 ≤ s.m.now - t)))))))),
   pre && (s.m.houseSupB r && (decide (w.val = 8 ∨ c.val / 2 = w.val) && (s.m.wdEn w.val && (decide (d.frozen = none)
     && (decide ((v ≠ 0xC35A ∧ v ≠ 0x3CA5) ∨ (v = 0x3CA5 ∧ d.half = false) ∨ (v = 0xC35A ∧ d.half = true) ∨ (v = 0x3CA5 ∧ ∃ t,
     d.kicked = some t ∧ s.m.now - t < s.m.wdMin w.val * 160000))))))),
   pre && (s.m.houseSupB r && (decide (w.val ≠ 8) && (decide (c.val / 2 ≠ w.val)))),
   pre && (let n := s.m.fld (wdFld SUP_PWD_CTRL.WARN SUP_DWD_CTRL.WARN w.val) 0; s.m.wdRuns w.val && (decide (d.warned = false) && (decide (0 < n)
     && (decide (n < s.m.wdMax w.val) && (s.m.safePair (s.m.wdPair w.val)))))),
   pre && (([0, 1, 2, 3] : List (Fin 8)).any fun p => decide (w.val = p.val) && (s.m.wdRuns w.val)),
   pre && (([0, 1, 2, 3] : List (Fin 8)).any fun p => decide (w.val = p.val) && (decide (s.m.wdRuns w.val = false))),
   pre && (decide (w.val = 8) && (s.m.wdRuns 8)),
   pre && decide (s.m.sup.grace = none),
   pre && (match s.m.sup.grace with | some t => (decide (t ≠ 0 ∨ s.m.sup.rec_ = none)) | _ => false)]

def premisesLastOrders (s : State) (r : Req) (_e : Edge) (low : Bool) : List Bool :=
  let pre := decide (s.m.held = []) && s.m.houseSupB r
  [pre,
   pre && decide (s.m.loHolds = false),
   pre && s.m.loHolds,
   pre && decide (s.m.loActive = true ∨ s.m.sup.rec_ ≠ none),
   pre && (decide (s.m.loActive = false) && (decide (s.m.sup.rec_ = none) && (decide (s.m.fld SUP_LO_CFG.SNAP 0 ≠ 0)))),
   pre && decide (s.m.fld SUP_LO_CFG.SNAP 0 = 0),
   pre && decide (s.m.sup.rec_ = none),
   pre && ((match s.m.sup.rec_ with | some (b, kind) => (decide (b < 2) && (decide (natOfBytes (s.m.retGet (recBuf b) 4) = 0x4C4F5244) && (decide (kind = 2)))) | _ => false)),
   pre && (low && (decide (s.m.detects 5 = false) && (decide (s.m.fld SUP_ESC.EXTF_ACT 0 = 0)))),
   pre && decide (low = false ∨ s.m.detects 5 = true),
   pre && (([0, 1, 2, 3] : List (Fin 64)).any fun x => (match (s.m.slice x.val).supStop with | some t => (decide (s.m.fld SUP_ESC.STOPTMO 0 ≠ 0) && (decide (s.m.fld AX_LIM_STAT.PHASE x.val = 4))) | _ => false)),
   pre && (([0, 1, 2, 3] : List (Fin 64)).any fun x => (match (s.m.slice x.val).supStop with | some t => (decide (s.m.fld SUP_ESC.STOPTMO 0 ≠ 0) && (decide (s.m.fld AX_LIM_STAT.PHASE x.val ≠ 4))) | _ => false))]

def premisesResetsOfThePart (s : State) (r : Req) (_straps : BitVec 4) (v : BitVec 32) (kept : Bool) : List Bool :=
  [decide (0 ∉ s.m.held),
   decide (s.m.held = [0]) && (kept && (s.m.power.loLoss)),
   decide (0 ∈ s.m.held) && (decide (kept = false ∨ s.m.power.loLoss = false)),
   decide (s.m.held = []) && (s.m.houseSupB r && (decide (SYS_RST_CMD.KEY.of v = 0x5752))),
   decide (s.m.held = []) && (s.m.houseSupB r && (decide (SYS_RST_CMD.KEY.of v ≠ 0x5752)))]

def premisesClockAndPower (s : State) (r : Req) (d : BitVec 6) (_step : BitVec 10) : List Bool :=
  let lk := s.m.flg TB_STATUS.LOCK 0
  let ho := s.m.flg SYS_CLK_STAT.HOLD 0
  let pre := decide (s.m.held = []) && s.m.houseSupB r
  [pre && (decide (lk = false) && (decide (ho = false))),
   pre && decide (lk = true ∨ ho = true),
   pre && ho,
   pre && decide (s.m.power.switch ≠ none),
   pre && (decide (s.m.power.switch = none) && (decide (48 ≤ d.toNat))),
   pre && (([((), true), ((), false)]).any fun e => decide (s.m.power.switch = none) && (decide (d.toNat < 6) && (decide (e.2 = false)))),
   pre && (([((), true), ((), false)]).any fun e => decide (s.m.power.switch = none) && (decide (6 ≤ d.toNat) && (decide (d.toNat < 48)
     && (decide (e.2 = false) && (s.m.pdOn d.toNat && (s.m.domainInUse d.toNat)))))),
   pre && (([((), true), ((), false)]).any fun e => decide (s.m.power.switch = none) && (decide (d.toNat < 48) && (decide (e.2 = s.m.pdOn d.toNat)
     && (decide (e.2 = true ∨ 6 ≤ d.toNat))))),
   pre && (([((), true), ((), false)]).any fun e => decide (s.m.power.switch = none) && (decide (d.toNat < 48) && (decide (e.2 ≠ s.m.pdOn d.toNat)
     && (decide (e.2 = true ∨ (6 ≤ d.toNat ∧ s.m.domainInUse d.toNat = false)))))),
   pre && decide (s.m.power.switch = none),
   pre && (match s.m.power.switch with | some (n, on) => (decide (n < 48)) | _ => false)]

theorem witness_PairRecovery :
    (∀ p ∈ [(0, 0), (1, 0), (2, 1), (3, 2), (4, 0), (5, 3), (6, 3), (7, 0)], met (States6.t0[p.2]?.map fun (s, p) => premisesPairRecovery s p) p.1 = true) := by decide +kernel

theorem witness_MilestonesAndPairCommands :
    (∀ p ∈ [(0, 0)], met (States6.t1[p.2]?.map fun (s, r, p) => premisesMilestonesAndPairCommands s r p) p.1 = true) ∧
    (∀ p ∈ [(1, 0), (2, 3), (3, 0), (4, 1), (5, 2), (6, 4), (7, 0)], met (States6.t2[p.2]?.map fun (s, r,
      p) => premisesMilestonesAndPairCommands s r p) p.1 = true) := by decide +kernel

theorem witness_ScrubberAndWipes :
    (∀ p ∈ [(0, 0)], met (States13f.t1[p.2]?.map fun (s, k, u, w) => premisesScrubberAndWipes s k u w) p.1 = true) ∧
    (∀ p ∈ [(1, 0), (2, 4), (3, 8), (4, 1), (5, 0), (6, 2), (7, 3)], met (States6.t3[p.2]?.map fun (s, k, u,
      w) => premisesScrubberAndWipes s k u w) p.1 = true) := by decide +kernel

theorem witness_Watchdogs :
    (∀ p ∈ [(0, 33), (1, 21), (2, 25), (3, 22), (4, 0), (5, 0), (6, 0), (7, 15), (8, 42), (9, 0)], met (States6.t4[p.2]?.map fun (s, c, w,
      v) => premisesWatchdogs s c w v) p.1 = true) ∧
    (∀ p ∈ [(10, 0)], met (States6.t5[p.2]?.map fun (s, c, w, v) => premisesWatchdogs s c w v) p.1 = true) := by decide +kernel

theorem witness_LastOrders :
    (∀ p ∈ [(0, 0), (1, 0), (2, 4), (3, 2), (4, 0), (5, 8), (6, 0), (7, 10), (8, 16), (9, 1), (10, 14), (11, 12)], met (States13f.t0[p.2]?.map fun (s, r,
      e, low) => premisesLastOrders s r e low) p.1 = true) := by decide +kernel

theorem witness_ResetsOfThePart :
    (∀ p ∈ [(0, 0), (1, 7), (2, 6), (3, 2), (4, 0)], met (States6b.t0[p.2]?.map fun (s, r, straps, v,
      kept) => premisesResetsOfThePart s r straps v kept) p.1 = true) := by decide +kernel

theorem witness_ClockAndPower :
    (∀ p ∈ [(0, 0), (1, 9), (2, 18), (3, 36), (4, 7), (5, 0), (6, 2), (7, 0), (8, 3), (9, 0), (10, 36)], met (States6b.t2[p.2]?.map fun (s, r, d,
      step) => premisesClockAndPower s r d step) p.1 = true) := by decide +kernel

/-! ### Premises met: boot, life cycle and debug -/

namespace States7

def run (l : List (Fld × Nat × Nat)) : Mach := { setW Mach.reset ((List.range 8).map (fun p => (SYS_PAIR_STAT.STATE, p, 0)) ++ l) with now := 7777 }

def bt (m : Mach) (w : List Nat) (d : Secure) : Mach := { m with power := {wipes := w}, secure := d }

def pd (m : Mach) (p : Nat) (d : Pair) : Mach := m.setPair p d

def lc (n : Nat) := run [(SYS_LC_STAT.STATE, 0, n)]

def scr (m : Mach) := (m.poke 0x10FF0000 (List.replicate 32 5#8)).poke 0x10000000 (List.replicate 32 5#8)

def bms : List Mach := [bt (lc 0) [8] {}, bt (lc 4) [] {}, bt (lc 1) [] {}, bt (lc 3) [] {straps := 2}, bt (lc 3) [] {boot := 2, err := 4},
    bt (lc 3) [] {boot := 1, image := List.replicate 1280 0}, bt (run [(SYS_BOOT_STAT.DONE, 0, 1)]) [] {boot := 1},
    bt (pd (run [(SYS_PFW_ST.VALID.sh 24, 0, 1), (SYS_PFW_ST.LEN16.sh 24, 0, 2), (SYS_PFW.ADDR.sh 24, 0, 0x10000000)]) 3 {start := true}) [] {},
    bt (pd (run []) 3 {start := true}) [] {}, bt (pd (run []) 3 {loading := true, pfw := 0x10000000, pfwSt := 2}) [] {},
    bt (pd (run [(SYS_PAIR_STAT.MODE, 3, 1)]) 3 {loading := true, pfw := 0x10000000, pfwSt := 2}) [] {}]

def im (o : Nat) (l : List (Fld × Nat × Nat)) : Mach := { run ([(SYS_IMG_RES.BUSY, 0, 1)] ++ l) with secure := {imgOp := some o} }

def lcv (p : Nat) : W32 := BitVec.ofNat 32 (putBits (putBits 0 SYS_LC_CMD.KEY.hi SYS_LC_CMD.KEY.lo 0x4C43) SYS_LC_CMD.PARAM.hi SYS_LC_CMD.PARAM.lo p)

def lcms : List Mach := [lc 0, run [(SYS_LC_STAT.STATE, 0, 0), (SYS_LC_STAT.SLOTS, 0, 0x1), (SYS_LC_ARG.ADDR, 0, 0x10000000)],
    run [(SYS_LC_STAT.STATE, 0, 1), (SYS_LC_STAT.SLOTS, 0, 0x15), (SYS_LC_STAT.KIMG, 0, 1), (SYS_LC_ARG.ADDR, 0, 0x10000000)],
    run [(SYS_LC_STAT.STATE, 0, 2), (SYS_LC_STAT.SLOTS, 0, 0xD5), (SYS_BOOT_STAT.DONE, 0, 1), (SYS_BOOT_STAT.KSLOT, 0, 1)], lc 3, lc 4,
    {lc 1 with secure := {svn := 9}}, run [(SYS_LC_STAT.STATE, 0, 1), (SYS_LC_STAT.SLOTS, 0, 0xC0)], run [(SUP_LO_STAT.ACT, 0, 1)], run [(AX_CTRL.EN,
    3, 1)]]

def t0 : List (State × Fin 8 × Nat × Bool × Bool) :=
  (bms.flatMap fun m => [0x10000000, 0x10001000, 5].flatMap fun a => [(true, true), (false, false)].map fun f => ((wst (scr m)), 3, a, f.1, f.2))

def t1 : List (State × Req × Bool) :=
  ([run [], im 1 [(SYS_IMG_ADDR.ADDR, 0, 0x10000000)], im 2 [(SYS_IMG_ADDR.ADDR, 0, 0x10000000)], im 2 [(SYS_IMG_ADDR.ADDR, 0, 0x10000001)],
    im 2 []].flatMap fun m => [true, false].map fun f => ((wst (scr m)), r0, f))

def t2 : List (State × Req × BitVec 32) :=
  (lcms.flatMap fun m => ([0, 1, 2, 3, 4, 5, 8, 9, 10, 64+3, 128+7, 192, 64+40].map lcv ++ [0, 3]).map fun v => ((wst (scr m)), r0, v))

end States7

namespace States7b

def run (l : List (Fld × Nat × Nat)) : Mach := { setW Mach.reset ((List.range 8).map (fun p => (SYS_PAIR_STAT.STATE, p, 0)) ++ l) with now := 7777 }

def lc (n : Nat) := run [(SYS_LC_STAT.STATE, 0, n)]

def core (m : Mach) (c : Nat) (r : Reed) : Mach := m.setReed c r

def kk : Core := { g := [(1, 5), (62, 0x10008000)], pc := 0x10000100, busy := 3 }

def sbe : SbEntry := { addr := 0x10002000, bytes := bytesOfNat 8 0x8877665544332211, guest := false, user := false }

def fr (op a d : Nat) (fl sq z : Nat) (c : Nat) : DmrFrame := let f : DmrFrame := { core := Fin.ofNat 16 c, flags := BitVec.ofNat _ fl, seq := BitVec.ofNat _ sq, zero := BitVec.ofNat _ z, crc := 0 }; { f with crc := BitVec.ofNat 8 (linkCrc (dmrBits f op a d) 88) }

def hs := [(DBG_SESS.ACTIVE, 0, 1), (DBG_SESS.HOUSE, 0, 1), (DBG_SESS.BSCAN, 0, 1)]

def lks : List Mach := [lc 0, run (hs ++ [(DBG_CSTAT.HALTED.sh 8, 0, 1)]), {run hs with dbg := {seq := some 5, resp := (3, 9)}}, lc 2, lc 4,
    core (run (hs ++ [(SYS_PAIR_STAT.MODE, 1, 1), (DBG_CSTAT.HALTED.sh 12, 0,
    1)])) 3 {core := {kk with rep := some {count := 3, left := 3, first := 0x100000F0, body := 1}}}, core (run (hs
    ++ [(SYS_PAIR_STAT.MODE, 1, 1), (DBG_CSTAT.HALTED.sh 12, 0, 1)])) 3 {core := kk}]

def sl (m : Mach) (x : Nat) (d : Slice) : Mach := { m with slices := SMap.set (fun _ => {}) m.slices x d }

def bp : List (Fld × Nat × Nat) := [(DBG_BP.EN.sh 16, 0, 1), (DBG_BP.ADDR.sh 16, 0, 0x1000010)]

def feed (b : Nat) (m : Mach) : Mach := (List.range 4).foldl (fun m j => m.setRg (DBG_FEED.V.addr 0 + 4*j) (BitVec.ofNat 32 (b / 2^(32*j)))) m

def hms : List Mach := [core (run hs) 2 {core := kk, resv := some 5}, core (run hs) 2 {core := kk, sb := [sbe]}, core (run (hs
    ++ [(DBG_CSTAT.HALTED.sh 8, 0, 1), (DBG_CSTAT.HALTED.sh 12, 0, 1), (SYS_PAIR_STAT.STATE, 1, 3)])) 2 {core := kk, link := true}, core (run (hs
    ++ [(SYS_PAIR_STAT.MODE, 1, 1)])) 3 {core := kk}, core (run (hs ++ bp)) 2 {core := kk}, core (run (hs
    ++ bp)) 2 {core := kk, past := true}, run [(DBG_SESS.ACTIVE, 0, 1)], sl (run (hs ++ [(TB_PG_STAT.RUN, 0, 1)])) 3 {}, sl (run (hs
    ++ [(TB_PG_STAT.RUN, 0, 1)])) 3 {halted := true},  sl (run hs) 3 {halted := true, from_ := 10000}]

def fed (b : Nat) : Mach := feed b (core (run (hs ++ [(DBG_CSTAT.HALTED.sh 8, 0, 1), (DBG_STAT.TAPH, 0, 1), (SYS_PAIR_STAT.STATE, 1,
    3)])) 2 {core := kk})

def t0 : List (State × List Bool) :=
  ([lc 0, lc 2, {lc 0 with held := [7, 1]}, {lc 4 with held := [0, 7]}, run [(SYS_LC_STAT.STATE, 0, 2), (DBG_SESS.ACTIVE, 0, 1), (DBG_SESS.HOUSE, 0, 1),
    (DBG_SESS.BSCAN, 0, 1)]].map fun m => ((wst (m.poke 0x10000000 [1, 2, 3])), [true, false]))

def t1 : List (State × DmrFrame × BitVec 32 × BitVec 32) :=
  (lks.flatMap fun m => [(0x10000000 : Nat), 5, 0x2000, 0x10000001, 62, 0x30000000].flatMap fun a => ([(1, 0), (2, 0x12345678), (3, 0), (4, 0), (5,
    0x12345678)].flatMap fun (o, d) => [fr o a d 0 5 0 2, fr o a d 1 6 0 3, fr o a d 8 6 0 3, fr o a d 0 6 1 3, fr o a d 2 6 0 3,
    fr o a d 0 6 0 2]).map fun f => ((wst (m.poke 0x10000000 [1, 2, 3])), f, (BitVec.ofNat 32 a), 0x12345678))

def t2 : List (State) :=
  ([lc 0, lc 2, lc 4, run hs, sl (run (hs ++ [(SYS_LC_STAT.STATE, 0, 2)])) 3 {halted := true}, core (sl (run (hs
    ++ [(DBG_STAT.TAPH, 0, 1)])) 3 {halted := true}) 2 {link := true}].map fun m => ((wst m)))

def t3 : List (State × BitVec 8 × Fin 16 × Fin 8) :=
  (hms.flatMap fun m => [2, 3, 16, 0x43, 0x20, 0x90].flatMap fun t => [2, 3].map fun c => ((wst m), t, (Fin.ofNat 16 c), 0))

def t4 : List (State × BitVec 8 × Fin 16 × Fin 8) :=
  ([fed (limmBundle 5 77), fed (limmBundle 62 (BitVec.ofNat 64 (2^63))), fed (2*2^124), fed (limmBundle 0x51 3)].map fun m => ((wst m), 2, 2, 0))

end States7b

namespace States13g

def lcv (p : Nat) : W32 := BitVec.ofNat 32 (putBits (putBits 0 SYS_LC_CMD.KEY.hi SYS_LC_CMD.KEY.lo 0x4C43) SYS_LC_CMD.PARAM.hi SYS_LC_CMD.PARAM.lo p)

def floored : Mach := { Mach.reset with regs := [(SYS_LC_STAT.STATE.addr 0, 1), (SYS_LC_FLOOR.MCV.addr 0, 0)] }

def t0 : List (State × Req × BitVec 32) :=
  [((wst floored), r0, (lcv 67))]

end States13g

namespace States14g

def wd : Mach := { wm [(TB_STATUS.LOCK, 0, 1)] with stages := [(3, {tapLock := true, waiting := [{req := .debug true, off := 0xE040, wide := false, val := 99}]})] }

def t0 : List (State × DmrFrame × BitVec 32 × BitVec 32) :=
  [((wst wd), ⟨3, 0, 5, 0, 0⟩, 0x10000000, 7)]

end States14g

def premisesBootAndPairLoaders (s : State) (p : Fin 8) (a : Nat) (_flash : Bool) (_ok : Bool) : List Bool :=
  let pre := decide (s.m.held = [])
  [pre && decide (¬ (8 ∉ s.m.power.wipes ∧ s.m.secure.boot = 0 ∧ s.m.recovery = false)),
   pre && (decide (8 ∉ s.m.power.wipes) && (decide (s.m.secure.boot = 0) && (decide (s.m.recovery = false) && (decide (s.m.lcState = 4))))),
   pre && (decide (8 ∉ s.m.power.wipes) && (decide (s.m.secure.boot = 0) && (decide (s.m.recovery = false) && (decide (s.m.lcState ≠ 4)
     && (decide (∀ b, s.m.headerErr (SMap.getRange Memory.unlisted s.m.flash (s.m.slotBase b) 1280) true ≠ 0)))))),
   pre && decide (s.m.lcState = 2 ∨ s.m.lcState = 4 ∨ 8 ∈ s.m.power.wipes ∨ s.m.secure.boot = 1 ∨ (s.m.secure.boot = 0 ∧ s.m.recovery = false)),
   pre && (decide (s.m.lcState ≠ 2) && (decide (s.m.lcState ≠ 4) && (decide (8 ∉ s.m.power.wipes) && (decide (s.m.secure.boot = 2)
     && (decide (0x10000000 ≤ a) && (decide (a + 1280 ≤ 0x11000000) && (s.m.goodCodeB a 1280
     && (decide (s.m.headerErr (s.m.peek a 1280) true ≠ 0))))))))),
   pre && (decide (s.m.flg SYS_BOOT_STAT.DONE 0 = false) && (decide (s.m.secure.boot = 0))),
   pre && (decide (s.m.flg SYS_BOOT_STAT.DONE 0 = false) && (decide (s.m.secure.boot = 2))),
   pre && (decide (s.m.flg SYS_BOOT_STAT.DONE 0 = false) && (decide (s.m.secure.boot = 1))),
   pre && s.m.flg SYS_BOOT_STAT.DONE 0,
   pre && (let d := s.m.pair p.val; let rec_ := (s.m.rg (SYS_PFW_ST.VALID.addr 0 + 8 * p.val)).toNat; d.start && (decide (p.val ∉ s.m.power.wipes)
     && (s.m.pdOn (5 + p.val) && (bitOf rec_ 31)))),
   pre && (let d := s.m.pair p.val; let rec_ := (s.m.rg (SYS_PFW_ST.VALID.addr 0 + 8 * p.val)).toNat; d.start && (decide (p.val ∉ s.m.power.wipes)
     && (s.m.pdOn (5 + p.val) && (decide (bitOf rec_ 31 = false))))),
   pre && (let d := s.m.pair p.val; decide (d.start = false)),
   pre && (let d := s.m.pair p.val; decide (d.loading = false)),
   pre && (let d := s.m.pair p.val; let n := 16 * (d.pfwSt % 2 ^ 15); d.loading && (decide (0 < n) && (s.m.goodCodeB d.pfw n
     && (decide (s.m.bufKey d.pfw n = some d.pfw) && (decide (Config.sha384 (s.m.peek d.pfw n) = d.hash) && (s.m.safePair p.val)))))),
   pre && (let d := s.m.pair p.val; let n := 16 * (d.pfwSt % 2 ^ 15); d.loading && (decide (0 < n) && (s.m.goodCodeB d.pfw n
     && (decide (s.m.bufKey d.pfw n = some d.pfw) && (decide (Config.sha384 (s.m.peek d.pfw n) ≠ d.hash))))))]

def premisesImageEngine (s : State) (r : Req) (flash : Bool) : List Bool :=
  let pre := decide (s.m.held = []) && s.m.houseSupB r
  [pre && s.m.flg SYS_IMG_RES.BUSY 0,
   pre && decide (s.m.flg SYS_IMG_RES.BUSY 0 = false),
   pre && decide (s.m.secure.imgOp = none),
   pre && (match s.m.secure.imgOp with | some op => (let a := s.m.fld SYS_IMG_ADDR.ADDR 0; decide (a % 64 ≠ 0 ∨ s.m.bufKey a 1280 = none)) | _ => false),
   pre && ((match s.m.secure.imgOp with | some op => (let a := s.m.fld SYS_IMG_ADDR.ADDR 0; let h := s.m.peek a 1280; decide (a % 64 = 0) && (decide (s.m.bufKey a 1280 = some a) && (s.m.goodCodeB a 1280 && (decide (s.m.headerErr h false ≠ 0))))) | _ => false)),
   pre && (match s.m.secure.imgOp with | some op => (decide (op = 1 ∨ flash = false)) | _ => false)]

def premisesLifeCycle (s : State) (r : Req) (v : BitVec 32) : List Bool :=
  let p := SYS_LC_CMD.PARAM.of v
  let st := s.m.lcState
  let pre := decide (s.m.held = []) && s.m.houseSupB r
  [pre && decide (SYS_LC_CMD.KEY.of v ≠ 0x4C43),
   pre && (decide (SYS_LC_CMD.KEY.of v = 0x4C43) && (decide ((∃ x ∈ List.range 72, s.m.en x = true) ∨ s.m.loActive = true))),
   pre && (decide (SYS_LC_CMD.KEY.of v = 0x4C43) && (decide (∀ x ∈ List.range 72, s.m.en x = false) && (decide (s.m.loActive = false) && (decide (p = 1)
     && (decide (st = 0) && (decide (s.m.slotState 0 = 1))))))),
   pre && (decide (SYS_LC_CMD.KEY.of v = 0x4C43) && (decide (∀ x ∈ List.range 72, s.m.en x = false) && (decide (s.m.loActive = false) && (decide (p = 2)
     && (decide (st = 1) && (s.m.flg SYS_LC_STAT.KIMG 0)))))),
   pre && (decide (SYS_LC_CMD.KEY.of v = 0x4C43) && (decide (∀ x ∈ List.range 72, s.m.en x = false) && (decide (s.m.loActive = false) && (decide (p = 4)
     && (decide (st ≠ 4)))))),
   pre && (decide (SYS_LC_CMD.KEY.of v = 0x4C43) && (decide (∀ x ∈ List.range 72, s.m.en x = false) && (decide (s.m.loActive = false)
     && (decide ((p = 1 ∧ (st ≠ 0 ∨ s.m.slotState 0 ≠ 1)) ∨ (p = 2 ∧ (st ≠ 1 ∨ s.m.flg SYS_LC_STAT.KIMG 0 = false)) ∨ (p = 3 ∧ st ≠ 2) ∨ (p = 4 ∧ st = 4)))))),
   pre && (decide (SYS_LC_CMD.KEY.of v = 0x4C43) && (decide (∀ x ∈ List.range 72, s.m.en x = false) && (decide (s.m.loActive = false)
     && (decide (st ≠ 0) && (decide (st ≠ 1)))))),
   pre && (decide (SYS_LC_CMD.KEY.of v = 0x4C43) && (decide (∀ x ∈ List.range 72, s.m.en x = false) && (decide (s.m.loActive = false)
     && (decide (st ≤ 1) && (decide (4 < p)))))),
   pre && (decide (SYS_LC_CMD.KEY.of v = 0x4C43) && (decide (∀ x ∈ List.range 72, s.m.en x = false) && (decide (s.m.loActive = false)
     && (decide (st ≤ 1) && (decide (p < 4) && (decide (s.m.slotState p = 0) && ((s.m.bufKey (s.m.fld SYS_LC_ARG.ADDR 0) 48).isSome
     && (s.m.goodCodeB (s.m.fld SYS_LC_ARG.ADDR 0) 48)))))))),
   pre && (decide (SYS_LC_CMD.KEY.of v = 0x4C43) && (decide (∀ x ∈ List.range 72, s.m.en x = false) && (decide (s.m.loActive = false)
     && (decide (st ≤ 1) && (decide (p < 4) && (decide (s.m.slotState p = 3))))))),
   pre && (decide (SYS_LC_CMD.KEY.of v = 0x4C43) && (decide (∀ x ∈ List.range 72, s.m.en x = false) && (decide (s.m.loActive = false)
     && (decide (st ≠ 1) && (decide (st ≠ 2)))))),
   pre && (decide (SYS_LC_CMD.KEY.of v = 0x4C43) && (decide (∀ x ∈ List.range 72, s.m.en x = false) && (decide (s.m.loActive = false)
     && (decide (st = 1 ∨ st = 2) && (decide (p < 4) && (decide (s.m.slotState p ≠ 3)
     && (decide (s.m.flg SYS_BOOT_STAT.DONE 0 = false ∨ s.m.fld SYS_BOOT_STAT.KSLOT 0 ≠ p)
     && (decide (∃ j ∈ List.range 4, j ≠ p ∧ s.m.slotState j = 1))))))))),
   pre && (decide (SYS_LC_CMD.KEY.of v = 0x4C43) && (decide (∀ x ∈ List.range 72, s.m.en x = false) && (decide (s.m.loActive = false)
     && (decide (st = 1 ∨ st = 2) && (decide (3 < p ∨ ∀ j ∈ List.range 4, j ≠ p → s.m.slotState j ≠ 1)))))),
   pre && (decide (SYS_LC_CMD.KEY.of v = 0x4C43) && (decide (∀ x ∈ List.range 72, s.m.en x = false) && (decide (s.m.loActive = false)
     && (([(0, SYS_LC_FLOOR.IMG, min 32 s.m.secure.svn), (1, SYS_LC_FLOOR.MCV, 31), (2, SYS_LC_FLOOR.MCG, 31)]).any fun e => decide (p / 64 = e.1)
     && (decide (s.m.fld e.2.1 0 < p % 64) && (decide (p % 64 ≤ e.2.2))))))),
   pre && (decide (SYS_LC_CMD.KEY.of v = 0x4C43) && (decide (∀ x ∈ List.range 72, s.m.en x = false) && (decide (s.m.loActive = false)
     && (([(0, SYS_LC_FLOOR.IMG, min 32 s.m.secure.svn), (1, SYS_LC_FLOOR.MCV, 31), (2, SYS_LC_FLOOR.MCG, 31)]).any fun e => decide (p / 64 = e.1)
     && (decide (¬ (s.m.fld e.2.1 0 < p % 64 ∧ p % 64 ≤ e.2.2))))))),
   pre && (decide (SYS_LC_CMD.KEY.of v = 0x4C43) && (decide (∀ x ∈ List.range 72, s.m.en x = false) && (decide (s.m.loActive = false)
     && (decide (p / 64 = 3)))))]

def premisesTapInstructions (s : State) (_cells : List Bool) : List Bool :=
  let scan := s.m.tapCode 0 = 0
  [decide (scan),
   decide (¬ scan)]

def premisesLinkRequests (s : State) (f : DmrFrame) (a : BitVec 32) (v : BitVec 32) : List Bool :=
  let open_ (m : Mach) : Mach := if m.lcState = 2 then m else m.sessOpen
  let m0 := open_ { s.m with dbg := { s.m.dbg with lastGood := s.m.now } }
  let k := (s.m.reed f.core.val).core
  let rows : List (Unit × Nat × Nat) := [((), 1, 0), ((), 2, v.toNat), ((), 3, 0), ((), 4, 0), ((), 5, v.toNat)]
  let pre := decide (s.m.held = [])
  [pre && s.m.reqWaits (.debug true),
   pre && (decide (s.m.reqWaits (.debug true) = false) && ((rows).any fun e => let crcOk := dmrCrcOk f e.2.1 a.toNat e.2.2; decide (crcOk = false))),
   pre && (decide (s.m.reqWaits (.debug true) = false) && ((rows).any fun e => let crcOk := dmrCrcOk f e.2.1 a.toNat e.2.2; crcOk
     && (decide (s.m.dbg.seq = some f.seq.toNat)))),
   pre && (decide (s.m.reqWaits (.debug true) = false) && ((rows).any fun e => let crcOk := dmrCrcOk f e.2.1 a.toNat e.2.2; crcOk
     && (decide (s.m.dbg.seq ≠ some f.seq.toNat) && (decide (bitsOf f.flags.toNat 3 2 ≠ 0 ∨ f.zero ≠ 0))))),
   pre && (decide (s.m.reqWaits (.debug true) = false) && (decide (dmrTcm f = false) && (let w := m0.who (.debug (dmrConsume f)); dmrCrcOk f 1 a.toNat 0
     && (decide (s.m.dbg.seq ≠ some f.seq.toNat) && (decide (bitsOf f.flags.toNat 3 2 = 0) && (decide (f.zero = 0)
     && (decide (m0.accessErr w none a.toNat 4 0 = none)
     && ((match m0.memAt none a.toNat 4 with | some key => (m0.goodCodeB key 4) | _ => false))))))))),
   pre && (decide (s.m.reqWaits (.debug true) = false) && (decide (dmrTcm f = false) && (let w := m0.who (.debug (dmrConsume f)); dmrCrcOk f 3 a.toNat 0
     && (decide (s.m.dbg.seq ≠ some f.seq.toNat) && (decide (bitsOf f.flags.toNat 3 2 = 0) && (decide (f.zero = 0)
     && (decide (m0.accessErr w none a.toNat 8 0 = none)
     && ((match m0.memAt none a.toNat 8 with | some key => (m0.goodCodeB key 8) | _ => false))))))))),
   pre && (decide (s.m.reqWaits (.debug true) = false) && (decide (dmrTcm f = false) && (dmrCrcOk f 2 a.toNat v.toNat
     && (decide (s.m.dbg.seq ≠ some f.seq.toNat) && (decide (bitsOf f.flags.toNat 3 2 = 0) && (decide (f.zero = 0)
     && (decide (m0.accessErr (m0.who (.debug true)) none a.toNat 4 1 = none)
     && ((match m0.memAt none a.toNat 4 with | some key => (m0.goodCodeB key 4) | _ => false))))))))),
   pre && (decide (s.m.reqWaits (.debug true) = false) && (decide (m0.regErr f.core.val = none) && (dmrCrcOk f 4 a.toNat 0
     && (decide (s.m.dbg.seq ≠ some f.seq.toNat) && (decide (bitsOf f.flags.toNat 3 2 = 0) && (decide (f.zero = 0) && (decide (a.toNat < 0x40)))))))),
   pre && (decide (s.m.reqWaits (.debug true) = false) && (decide (m0.regErr f.core.val = none) && (dmrCrcOk f 4 a.toNat 0
     && (decide (s.m.dbg.seq ≠ some f.seq.toNat) && (decide (bitsOf f.flags.toNat 3 2 = 0) && (decide (f.zero = 0)
     && (decide (a.toNat = 0x2000)))))))),
   pre && (decide (s.m.reqWaits (.debug true) = false) && (decide (m0.regErr f.core.val = none) && (dmrCrcOk f 5 a.toNat v.toNat
     && (decide (s.m.dbg.seq ≠ some f.seq.toNat) && (decide (bitsOf f.flags.toNat 3 2 = 0) && (decide (f.zero = 0) && (decide (a.toNat < 0x40)))))))),
   pre && (decide (s.m.reqWaits (.debug true) = false) && (decide (m0.regErr f.core.val = none) && (dmrCrcOk f 5 a.toNat v.toNat
     && (decide (s.m.dbg.seq ≠ some f.seq.toNat) && (decide (bitsOf f.flags.toNat 3 2 = 0) && (decide (f.zero = 0) && (decide (a.toNat = 0x2000)
     && (decide (k.rep = none))))))))),
   pre && (decide (s.m.reqWaits (.debug true) = false)
     && ((match m0.regErr f.core.val with | some e => (dmrCrcOk f 4 a.toNat 0 && (decide (s.m.dbg.seq ≠ some f.seq.toNat) && (decide (bitsOf f.flags.toNat 3 2 = 0) && (decide (f.zero = 0))))) | _ => false))),
   pre && (decide (s.m.reqWaits (.debug true) = false)
     && ((match m0.regErr f.core.val with | some e => (dmrCrcOk f 5 a.toNat v.toNat && (decide (s.m.dbg.seq ≠ some f.seq.toNat) && (decide (bitsOf f.flags.toNat 3 2 = 0) && (decide (f.zero = 0))))) | _ => false)))]

def premisesDebugSessions (s : State) : List Bool :=
  let active := s.m.flg DBG_SESS.ACTIVE 0
  let pre := decide (s.m.held = [])
  [pre && decide (s.m.lcState = 4),
   pre && (decide (s.m.lcState ≠ 2) && (decide (s.m.lcState ≠ 4) && (decide (active = false)))),
   pre && (decide (s.m.lcState ≠ 2) && (decide (s.m.lcState ≠ 4) && (active))),
   pre && (decide (s.m.lcState = 2) && (let k := (s.m.rg (DBG_AUTHBUF.V.addr 0 + 96)).toNat % 256; decide (4 ≤ k ∨ s.m.slotState k ≠ 1))),
   pre && (decide (s.m.lcState ≠ 4) && (decide (s.m.reqWaits (.debug true) = false) && (active))),
   pre && (decide (s.m.lcState ≠ 4) && (decide (s.m.reqWaits (.debug true) = false) && (decide (active = false)))),
   pre && active,
   pre && decide (active = false)]

def premisesHaltsAndSteps (s : State) (t : BitVec 8) (c : Fin 16) (item : Fin 8) : List Bool :=
  let n := t.toNat
  let x := n - 0x40
  let pre := decide (s.m.held = []) && decide (s.m.lcState ≠ 4) && decide (s.m.lcState = 2 → s.m.flg DBG_SESS.ACTIVE 0 = true) && decide (s.m.reqWaits (.debug true) = false)
  [pre && decide (s.m.dbgTarget n = false),
   pre && (s.m.dbgTarget n && (decide (n < 16) && (decide (s.m.coreHalted n = false) && (decide (s.m.pState (n / 2) = 0)
     && (decide ((s.m.reed n).sb = [])))))),
   pre && (s.m.dbgTarget n && (decide (n < 16) && (decide (s.m.coreHalted n = false) && (decide (s.m.pState (n / 2) = 0)
     && (decide ((s.m.reed n).sb ≠ [])))))),
   pre && (s.m.dbgTarget n && (decide (n < 16) && (s.m.coreHalted n))),
   pre && (s.m.dbgTarget n && (decide (n = 16))),
   pre && (s.m.dbgTarget n && (decide (0x40 ≤ n) && (decide ((s.m.slice x).halted = false) && (s.m.flg TB_PG_STAT.RUN (s.m.pgOf x))))),
   pre && (s.m.dbgTarget n && (decide (0x40 ≤ n) && ((s.m.slice x).halted))),
   pre && (let i := s.m.coreIdx c.val; s.m.issues i && (s.m.bpMatch i && (decide ((s.m.reed i).sb = [])))),
   pre && (let i := s.m.coreIdx c.val; s.m.issues i && (decide (s.m.bpMatch i = false))),
   pre && ((match s.m.feedable with | [i] => (decide (s.m.dbg.step = none) && (s.m.flg DBG_STAT.TAPH 0 && (decide (item.val = 0 ∨ s.m.safePair (i / 2) = false) && (let word (j : Nat) : Nat := (s.m.rg (DBG_FEED.V.addr 0 + 4 * j)).toNat; let bits := word 0 + word 1 * 2 ^ 32 + word 2 * 2 ^ 64 + word 3 * 2 ^ 96; decide (bunFmt bits = 2))))) | _ => false)),
   pre && ((match s.m.feedable with | [i] => (decide (s.m.dbg.step = none) && (s.m.flg DBG_STAT.TAPH 0 && (decide (item.val = 0 ∨ s.m.safePair (i / 2) = false) && (let k := (s.m.reed i).core; let word (j : Nat) : Nat := (s.m.rg (DBG_FEED.V.addr 0 + 4 * j)).toNat; let bits := word 0 + word 1 * 2 ^ 32 + word 2 * 2 ^ 64 + word 3 * 2 ^ 96; let d := (bits) % 256; let v := BitVec.ofNat 64 ((bits) / 2 ^ 60); decide (bits = limmBundle d v) && (decide (d < 0x40) && (decide (k.axn = none))))))) | _ => false))]

theorem witness_BootLoadersAndImages :
    (∀ p ∈ [(0, 0), (1, 6), (2, 12), (3, 0), (4, 24), (5, 0), (6, 24), (7, 30), (8, 36), (9, 42), (10, 48), (11, 0), (12, 0)],
      met (States7.t0[p.2]?.map fun (s, p, a, flash, ok) => premisesBootAndPairLoaders s p a flash ok) p.1 = true) ∧
    (∀ p ∈ [(0, 2), (1, 0), (2, 0), (3, 6), (4, 2), (5, 2)], met (States7.t1[p.2]?.map fun (s, r, flash) => premisesImageEngine s r flash) p.1 = true) := by decide +kernel

theorem witness_LifeCycle :
    (∀ p ∈ [(0, 13), (1, 120), (2, 16), (3, 32), (4, 4), (5, 1), (6, 45), (7, 5), (8, 16), (9, 108), (10, 0), (11, 30), (12, 34), (14, 0), (15, 11)],
      met (States7.t2[p.2]?.map fun (s, r, v) => premisesLifeCycle s r v) p.1 = true) ∧
    (∀ p ∈ [(13, 0)], met (States13g.t0[p.2]?.map fun (s, r, v) => premisesLifeCycle s r v) p.1 = true) := by decide +kernel

theorem witness_TapAndLink :
    (∀ p ∈ [(0, 0), (1, 1)], met (States7b.t0[p.2]?.map fun (s, cells) => premisesTapInstructions s cells) p.1 = true) ∧
    (∀ p ∈ [(0, 0)], met (States14g.t0[p.2]?.map fun (s, f, a, v) => premisesLinkRequests s f a v) p.1 = true) ∧
    (∀ p ∈ [(1, 0), (2, 360), (3, 2), (4, 0), (5, 12), (6, 6), (7, 228), (8, 258), (9, 234), (10, 264), (11, 18), (12, 24)],
      met (States7b.t1[p.2]?.map fun (s, f, a, v) => premisesLinkRequests s f a v) p.1 = true) := by decide +kernel

theorem witness_SessionsHaltsSteps :
    (∀ p ∈ [(0, 2), (1, 0), (2, 3), (3, 1), (4, 3), (5, 0), (6, 3), (7, 0)], met (States7b.t2[p.2]?.map fun (s) => premisesDebugSessions s) p.1 = true) ∧
    (∀ p ∈ [(0, 2), (1, 0), (2, 12), (3, 24), (4, 4), (5, 90), (6, 102), (7, 48), (8, 0)], met (States7b.t3[p.2]?.map fun (s, t, c,
      item) => premisesHaltsAndSteps s t c item) p.1 = true) ∧
    (∀ p ∈ [(9, 2), (10, 0)], met (States7b.t4[p.2]?.map fun (s, t, c, item) => premisesHaltsAndSteps s t c item) p.1 = true) := by decide +kernel

/-! ### Premises met: the Tapster -/

namespace States8

def gOn := wm [(TB_STATUS.LOCK, 0, 1), (TB_PG_CTRL.EN, 0, 1), (TB_PG_STAT.RUN, 0, 1), (TB_STATUS.VN_CAL, 0, 1), (TAP_MC_STAT.READY, 0, 1)]

def sw (l : List (Fld × Nat × Nat)) := { setW gOn l with now := 77777 }

def qs : List (Fld × Nat × Nat) := [(QM_CFG.EN, 1200, 1), (QM_CFG.KIND, 1200, 0), (QM_BASE.BASE, 1200, 0x400000), (QM_LINK.AGENT, 1200, 17),
    (QM_LINK.RQ, 1200, 5), (QM_CFG.EN, 5, 1), (QM_CFG.KIND, 5, 1), (QM_BASE.BASE, 5, 0x400040)]

def hd (op tgt plen ack fence tag : Nat) (h : Nat := 0) : Nat := op + tgt*2^12 + plen*2^22 + ack*2^28 + fence*2^30 + tag*2^32 + h*2^48

def pk (h : Nat) (ps : List Nat) : List Nat := [h % 2^32, h / 2^32] ++ (ps ++ List.replicate 14 0).take 14

def cx (h : Nat) (ps : List Nat) : Ctx := { q := 1200, pkt := pk h ps, taken := 3 }

def wc (m : Mach) (l : List (Nat × Ctx)) : Mach := l.foldl (fun m e => m.setCtx e.1 (some e.2)) m

def oneC (op tgt plen ack : Nat) (ps : List Nat) (l : List (Fld × Nat × Nat)) : Mach := wc (sw (qs++l)) [(0, cx (hd op tgt plen ack 0 9) ps)]

def emu : List (Fld × Nat × Nat) := [(TAP_EMUQ.EN, 0, 1), (TAP_EMUQ.QUEUE, 0, 6), (QM_CFG.EN, 6, 1), (QM_CFG.KIND, 6, 1), (QM_BASE.BASE, 6, 0x400080)]

def rep (m : Mach) (l : List (Nat × List Byte)) : Mach := { m with tap := { m.tap with replies := l } }

def withBk (m : Mach) : Mach := { m with tap := { m.tap with banks := [(0, {disp := [(0xC01, 0x0A004007)]})] } }

def hld (m : Mach) : Mach := { m with tap := { m.tap with holds := [(0, some 100)] } }

def b32 : List (BitVec 8) := (List.range 32).map (BitVec.ofNat 8)

def t1 : List (State × Fin 256) :=
  ([oneC 0x300 3 4 3 [] [], oneC 0x300 3 4 0 [] [(QM_CFG.EN, 5, 0)], oneC 0x300 3 4 3 [] [(DBG_STAT.TAPH, 0, 1)], wc (sw qs) [(0,
    cx (hd 0x200 3 4 3 0 9) []), (1, {cx (hd 0x200 3 4 3 0 9) [] with taken := 1})], wc (sw qs) [(0, cx (hd 0x200 3 4 3 0 9 2) []), (1,
    {cx (hd 0x200 3 4 3 0 9) [] with taken := 1})], wc (sw qs) [(0, {cx (hd 0x200 3 4 3 0 9 2) [] with started := true})],
    sw []].map fun m => ((wst m), 0))

def t2 : List (State × Fin 256 × Fin 16) :=
  ([oneC 0x900 3 4 3 [] [], oneC 0x900 3 4 3 [] emu, oneC 0x900 3 4 3 [] (emu ++ [(QM_CFG.EN, 6, 0)]), oneC 0xC00 3 4 3 [] [], oneC 0xC01 3 4 3 [] [],
    oneC 0x100 3 4 3 [] [], sw [], withBk (oneC 0xC01 3 40 3 [] []), rep (sw qs) [(5, b32), (6, b32)], rep (sw qs) [(6, b32)], rep (sw [(QM_CFG.EN, 5,
    1), (QM_CFG.KIND, 5, 1), (QM_BASE.BASE, 5, 0x400000)]) [(5, b32)], rep (sw [(QM_CFG.SPACE, 2500, 1)]) [(2500, b32)], hld (wc (sw (qs
    ++ [(TB_PG_CTRL.APPLY_HOLD, 0, 1)])) [(1, {cx 0 [] with hold := some 0}), (2, cx 0 [])])].map fun m => ((wst m), 0, 0))

end States8

namespace States8b

def gOn := wm [(TB_STATUS.LOCK, 0, 1), (TB_PG_CTRL.EN, 0, 1), (TB_PG_STAT.RUN, 0, 1), (TB_STATUS.VN_CAL, 0, 1), (TAP_MC_STAT.READY, 0, 1)]

def sw (l : List (Fld × Nat × Nat)) := { setW gOn l with now := 77777 }

def qs : List (Fld × Nat × Nat) := [(QM_CFG.EN, 1200, 1), (QM_CFG.KIND, 1200, 0), (QM_BASE.BASE, 1200, 0x400000), (QM_LINK.AGENT, 1200, 17),
    (QM_LINK.RQ, 1200, 5), (QM_CFG.EN, 5, 1), (QM_CFG.KIND, 5, 1), (QM_BASE.BASE, 5, 0x400040)]

def hd (op tgt plen ack fence tag : Nat) (h : Nat := 0) : Nat := op + tgt*2^12 + plen*2^22 + ack*2^28 + fence*2^30 + tag*2^32 + h*2^48

def pk (h : Nat) (ps : List Nat) : List Nat := [h % 2^32, h / 2^32] ++ (ps ++ List.replicate 14 0).take 14

def cx (h : Nat) (ps : List Nat) : Ctx := { q := 1200, pkt := pk h ps, taken := 3 }

def wc (m : Mach) (l : List (Nat × Ctx)) : Mach := l.foldl (fun m e => m.setCtx e.1 (some e.2)) m

def oneC (op tgt plen ack : Nat) (ps : List Nat) (l : List (Fld × Nat × Nat)) (guest : Bool := false) (fence : Nat := 0) : Mach := wc (sw (qs++l)) [(0, {cx (hd op tgt plen ack fence 9) ps with guest := guest})]

def cOf (m : Mach) : Ctx := (m.ctx 0).getD {}

def variants (op tgt plen : Nat) (ps : List Nat) (l : List (Fld × Nat × Nat)) (guest : Bool := false) : List Mach := [0, 1, 2,
    3].flatMap fun a => [oneC op tgt plen a ps l guest, oneC op tgt plen a ps (l ++ [(QM_CFG.EN, 5, 0)]) guest]

def t0 : List (State × Fin 256 × Ctx) :=
  ((variants 0 1023 0 [] [] ++ variants 3 1023 0 [] [] ++ variants 0x20C 3 0 [] [(AX_LIM_STAT.PHASE, 3, 2)] ++ variants 0x301 3 4 [0x02010004] []
    ++ variants 0x301 70 4 [0x040000F0] []
    ++ variants 0x301 70 4 [0x040000F4] []++ variants 0x301 70 4 [0x000000F0] []++ variants 0x301 70 4 [0x01020001] [] ++ variants 0x402 3 0 [] []
    ++ variants 0x503 70 0 [] [(AX_OUT_IQ.MANT, 70, 5)] ++ ([0, 1, 2, 3, 4, 5, 6].flatMap fun k => variants 0x604 3 1 [k] [(AX_CM_J.MANT, 3, 7),
    (AX_CM_RES_F.V, 3, 6)]) ++ variants 0x704 3 0 [] [(AX_STICKY.DLMISS, 3, 1), (AX_DL_STAT.TOTAL, 3, 5)]
    ++ variants 1 1023 5 [0x30030000, 1] [(AX_CTRL.EN, 3, 1)] ++ variants 1 1023 5 [0x30030001, 1] [] ++ variants 1 1023 5 [0x30030000, 5] []
    ++ variants 1 1023 5 [0x10000000, 1] [] ++ variants 1 1023 5 [0x37000000, 1] [] true
    ++ variants 1 1023 5 [0x10000000, 1] [] true).map fun m => ((wst m), 0, (cOf m)))

end States8b

namespace States8c

def gOn := wm [(TB_STATUS.LOCK, 0, 1), (TB_PG_CTRL.EN, 0, 1), (TB_PG_STAT.RUN, 0, 1), (TB_STATUS.VN_CAL, 0, 1), (TAP_MC_STAT.READY, 0, 1)]

def sw (l : List (Fld × Nat × Nat)) := { setW gOn l with now := 77777 }

def qs : List (Fld × Nat × Nat) := [(QM_CFG.EN, 1200, 1), (QM_CFG.KIND, 1200, 0), (QM_BASE.BASE, 1200, 0x400000), (QM_LINK.AGENT, 1200, 17),
    (QM_LINK.RQ, 1200, 5), (QM_CFG.EN, 5, 1), (QM_CFG.KIND, 5, 1), (QM_BASE.BASE, 5, 0x400040)]

def hd (op tgt plen ack fence tag : Nat) (h : Nat := 0) : Nat := op + tgt*2^12 + plen*2^22 + ack*2^28 + fence*2^30 + tag*2^32 + h*2^48

def pk (h : Nat) (ps : List Nat) : List Nat := [h % 2^32, h / 2^32] ++ (ps ++ List.replicate 14 0).take 14

def cx (h : Nat) (ps : List Nat) : Ctx := { q := 1200, pkt := pk h ps, taken := 3 }

def wc (m : Mach) (l : List (Nat × Ctx)) : Mach := l.foldl (fun m e => m.setCtx e.1 (some e.2)) m

def oneC (op tgt plen ack : Nat) (ps : List Nat) (l : List (Fld × Nat × Nat)) (guest : Bool := false) (fence : Nat := 0) : Mach := wc (sw (qs++l)) [(0, {cx (hd op tgt plen ack fence 9) ps with guest := guest})]

def cOf (m : Mach) : Ctx := (m.ctx 0).getD {}

def hldq (m : Mach) : Mach := { m with tap := { m.tap with holds := [(0, some 100)] } }

def variants (op tgt plen : Nat) (ps : List Nat) (l : List (Fld × Nat × Nat)) (guest : Bool := false) : List Mach := [0, 1, 2,
    3].flatMap fun a => [oneC op tgt plen a ps l guest, oneC op tgt plen a ps (l ++ [(QM_CFG.EN, 5, 0)]) guest]

def stg (m : Mach) (x : Nat) (d : Stage) : Mach := { m with stages := [(x, d)] }

def rdy (l : List (Fld × Nat × Nat)) := (((List.range 16).map (fun b => (CB_STAT.READY, b, 1))) ++ l)

def p0 := [(PP_CTRL.EN, 3, 1), (AX_VBUS_FIX.MANT, 3, 0x40000), (AX_BUS.BUSCH, 3, 15), (AX_POLE.POLES, 3, 1)]

def live (x : Nat) := [(AX_CTRL.EN, x, 1), (AX_STATE.RUN, x, 1)]

def acts : List Mach := variants 0x100 3 56 [0] [] ++ variants 0x100 3 56 [0] (rdy p0) ++ variants 0x100 3 56 [0] (live 3)
    ++ variants 0x100 3 56 [5] (live 3) ++ variants 0x100 70 56 [0] (rdy p0) ++ variants 0x101 3 0 [] [] ++ variants 0x101 3 0 [] (live 3)
    ++ variants 0x101 64 0 [] (live 64) ++ variants 0x101 64 0 [] (live 64 ++ live 3 ++ [(AX_CTRL.MODE, 3, 2)]) ++ variants 0x208 3 0 [] []
    ++ variants 0x208 3 0 [] (live 3) ++ variants 0x208 3 0 [] (live 3 ++ [(AX_LIM_STAT.PHASE, 3, 4)]) ++ variants 0x209 3 0 [] []
    ++ variants 0x209 3 0 [] (live 3 ++ [(AX_LIM_STAT.PHASE, 3, 4)]) ++ [3, 70].flatMap (fun x => variants 0x20A x 0 [] []
    ++ variants 0x20A x 0 [] [(AX_GT_STAT.SHUT, x, 1), (AX_GT_SHSTAMP.STAMP, x, 5)])
    ++ [3, 70].flatMap (fun x => variants 0x20B x 0 [] [(AX_GT_STAT.SHUT, x, 1), (AX_GT_CAUSE.CAUSE, x, 3)]
    ++ variants 0x20B x 0 [] [(AX_GT_STAT.SHUT, x, 0)] ++ variants 0x20B x 0 [] [(AX_GT_STAT.SHUT, x, 1), (AX_GT_STAT.FLT, x, 1), (AX_GT_CAUSE.CAUSE,
    x, 3)]) ++ [0, 1].flatMap (fun p => variants 0x401 3 1 [p] [(AX_TRC_CTRL.MODE, 3, 2)] ++ variants 0x401 3 1 [p] [])

def cm (m : Mach) (x : Nat) (c : Comm) : Mach := m.setComm x c

def acts2 : List Mach := ([0, 1, 2, 3, 4, 5, 6, 7, 0x0801, 0x040001].flatMap fun s => variants 0x600 3 56 [s] [] ++ variants 0x600 3 56 [s] (live 3
    ++ [(AX_LIM_STAT.AT_REST, 3, 1)])) ++ variants 0x601 3 0 [] []
    ++ (variants 0x601 3 0 [] (live 3)).map (fun m => cm m 3 {part := 1, seq := 1, k := 1}) ++ variants 0x703 3 0 [] (live 3)
    ++ variants 0x703 70 0 [] (live 70) ++ [stg (oneC 0x703 3 0 3 [] []) 3 {openW := [(0xE040, some 1)], closed := true}]
    ++ variants 0x802 97 0 [] [] ++ (variants 0x802 96 0 [] [(TB_PG_CTRL.APPLY_HOLD, 0, 1)]).map hldq

def t0 : List (State × Fin 256 × Ctx) :=
  (([0, 1].flatMap fun on => [oneC 0x107 97 56 3 [1000, 0, 0, 500, 0, on] [], oneC 0x107 97 56 2 [1000, 0, 0, 500, 0, on] [(TB_PG_CTRL.APPLY_HOLD, 1,
    1)]]).map fun m => ((wst m), 0, (cOf m)))

def t1 : List (State × Fin 256 × Ctx) :=
  (acts.map fun m => ((wst m), 0, (cOf m)))

def t2 : List (State × Fin 256 × Ctx) :=
  (acts2.map fun m => ((wst m), 0, (cOf m)))

end States8c

namespace States8d

def gOn := wm [(TB_STATUS.LOCK, 0, 1), (TB_PG_CTRL.EN, 0, 1), (TB_PG_STAT.RUN, 0, 1), (TB_STATUS.VN_CAL, 0, 1), (TAP_MC_STAT.READY, 0, 1)]

def sw (l : List (Fld × Nat × Nat)) := { setW gOn l with now := 77777 }

def qs : List (Fld × Nat × Nat) := [(QM_CFG.EN, 1200, 1), (QM_CFG.KIND, 1200, 0), (QM_BASE.BASE, 1200, 0x400000), (QM_LINK.AGENT, 1200, 17),
    (QM_LINK.RQ, 1200, 5), (QM_CFG.EN, 5, 1), (QM_CFG.KIND, 5, 1), (QM_BASE.BASE, 5, 0x400040)]

def hd (op tgt plen ack fence tag : Nat) (h : Nat := 0) : Nat := op + tgt*2^12 + plen*2^22 + ack*2^28 + fence*2^30 + tag*2^32 + h*2^48

def pk (h : Nat) (ps : List Nat) : List Nat := [h % 2^32, h / 2^32] ++ (ps ++ List.replicate 14 0).take 14

def cx (h : Nat) (ps : List Nat) : Ctx := { q := 1200, pkt := pk h ps, taken := 3 }

def wc (m : Mach) (l : List (Nat × Ctx)) : Mach := l.foldl (fun m e => m.setCtx e.1 (some e.2)) m

def oneC (op tgt plen ack : Nat) (ps : List Nat) (l : List (Fld × Nat × Nat)) (guest : Bool := false) (fence : Nat := 0) : Mach := wc (sw (qs++l)) [(0, {cx (hd op tgt plen ack fence 9) ps with guest := guest})]

def cOf (m : Mach) : Ctx := (m.ctx 0).getD {}

def variants (op tgt plen : Nat) (ps : List Nat) (l : List (Fld × Nat × Nat)) (guest : Bool := false) : List Mach := [0, 1, 2,
    3].flatMap fun a => [oneC op tgt plen a ps l guest, oneC op tgt plen a ps (l ++ [(QM_CFG.EN, 5, 0)]) guest]

def bk : List (Fld × Nat × Nat) := [(CB_CTRL.EN, 0, 1), (CB_STAT.READY, 0, 1), (CB_CAL_STAT.SPARE, 0, 13), (CB_CELL_ROLE.ROLE, 13, 1)]

def vis (m : Mach) (l : List (Nat × Nat)) : Mach := { m with viss := [(2, {pulses := l})] }

def dev : List Mach := ([0, 0x100, 0x200, 0x300, 0x400, 0x110].flatMap fun p => variants 0x700 1023 2 [p] bk ++ variants 0x700 1023 2 [p] []
    ++ variants 0x700 1023 2 [p] (bk ++ [(CB_CAL_STAT.PHASE, 0, 1)])) ++ ([0, 0x100, 0x300, 0x1000, 0x10, 0x400, 0x0400].flatMap fun p => [0, 1,
    0x10].flatMap fun q => variants 0x701 1023 5 [p, q] bk) ++ ([0x104, 0x204, 0x304, 0x004, 0x404, 0x020104,
    0x10010104].flatMap fun p => variants 0x702 1023 4 [p] [(CMP_CTRL.EN, 4, 1)]
    ++ variants 0x702 1023 4 [p] [(CMP_CTRL.EN, 4, 1), (CMP_CHK_RES.BUSY, 4, 1)])
    ++ ([[2, 0, 1000000, 0, 8], [2, 0, 1000, 0, 8], [20, 0, 1000000, 0, 8], [2, 0, 1000000, 0, 3]].flatMap fun p => variants 0x800 1023 18 p []
    ++ (variants 0x800 1023 18 p []).map (fun m => vis m [(1000000+10, 20)])
    ++ (variants 0x800 1023 18 p []).map (fun m => vis m [(100, 20), (2000000, 9)]))

def twc (act mode : Nat) : Nat := putBits (putBits 0 TB_TW_CTRL.ACT.hi TB_TW_CTRL.ACT.lo act) TB_TW_CTRL.MODE.hi TB_TW_CTRL.MODE.lo mode

def emuc (a : Nat) : Ctx := { cx (hd 0x999 7 0 a 0 0x123) [] with started := true }

def two (st acks : Nat) (l : List (Fld × Nat × Nat)) (p0 : Nat) : Mach := wc (sw (qs
    ++ l)) [(0, cx (hd 0xF 1023 56 acks 0 9) [p0, 0x00070999, st, 0, 1, 2, 3, 4]), (4, emuc acks)]

def dev2 : List Mach := ([twc 2 0, twc 1 0, twc 0 1].flatMap fun v => [[5, v, 90000, 0, 100000, 0], [5, v, 90000, 0, 90000, 0], [80, v, 90000, 0,
    100000, 0], [5, v, 10, 0, 70000, 0]].flatMap fun p => variants 0x801 1023 24 p [] ++ variants 0x801 1023 24 p [] true)
    ++ ([0, 3].flatMap fun a => [0x10, 0x20, 5, 0x3F].flatMap fun st => [two st a [] (1200 + 0x123*65536), two st a [(QM_CFG.EN, 5,
    0)] (1200 + 0x123*65536), two st a [] 0])

def bkd (v : Bool) (m : Mach) : Mach := { m with tap := { m.tap with banks := [(1, {valid := v})] } }

def dev3 : List Mach := ([0, 1].flatMap fun p => variants 0x10 1023 12 [p, 0x10000000, 64] []
    ++ (variants 0x10 1023 12 [p, 0x10000000, 64] []).map (bkd true) ++ variants 0x10 1023 12 [p, 0x10000000, 64] [(TAP_MC_STAT.LOAD, 0, 1)]
    ++ (variants 0x10 1023 12 [p, 0x10000000, 64] []).map (fun m => m.setCtx 3 (some {cx 0 [] with started := true, bank := true}))
    ++ (variants 0x10 1023 12 [p, 0x10000000, 64] [(AX_CM_STAT.ST, 3, 1)]).map (bkd true))

def t1 : List (State × Fin 256 × Ctx) :=
  (dev.map fun m => ((wst m), 0, (cOf m)))

def t2 : List (State × Fin 256 × Ctx) :=
  (dev2.map fun m => ((wst m), 0, (cOf m)))

def t3 : List (State × Fin 256 × Ctx) :=
  (dev3.map fun m => ((wst m), 0, (cOf m)))

end States8d

namespace States13h

def gOn := wm [(TB_STATUS.LOCK, 0, 1), (TB_PG_CTRL.EN, 0, 1), (TB_PG_STAT.RUN, 0, 1), (TB_STATUS.VN_CAL, 0, 1), (TAP_MC_STAT.READY, 0, 1)]

def sw (l : List (Fld × Nat × Nat)) := { setW gOn l with now := 77777 }

def qs : List (Fld × Nat × Nat) := [(QM_CFG.EN, 1200, 1), (QM_CFG.KIND, 1200, 0), (QM_BASE.BASE, 1200, 0x400000), (QM_LINK.AGENT, 1200, 17),
    (QM_LINK.RQ, 1200, 5), (QM_CFG.EN, 5, 1), (QM_CFG.KIND, 5, 1), (QM_BASE.BASE, 5, 0x400040)]

def hd (op tgt plen ack fence tag : Nat) (h : Nat := 0) : Nat := op + tgt*2^12 + plen*2^22 + ack*2^28 + fence*2^30 + tag*2^32 + h*2^48

def pk (h : Nat) (ps : List Nat) : List Nat := [h % 2^32, h / 2^32] ++ (ps ++ List.replicate 14 0).take 14

def cx (h : Nat) (ps : List Nat) : Ctx := { q := 1200, pkt := pk h ps, taken := 3 }

def wc (m : Mach) (l : List (Nat × Ctx)) : Mach := l.foldl (fun m e => m.setCtx e.1 (some e.2)) m

def oneC (op tgt plen ack : Nat) (ps : List Nat) (l : List (Fld × Nat × Nat)) (guest : Bool := false) (fence : Nat := 0) : Mach := wc (sw (qs++l)) [(0, {cx (hd op tgt plen ack fence 9) ps with guest := guest})]

def cOf (m : Mach) : Ctx := (m.ctx 0).getD {}

def withBk (m : Mach) : Mach := { m with tap := { m.tap with banks := [(0, {disp := [(0xC01, 0x0A004007)]})] } }

def stg (m : Mach) (x : Nat) (d : Stage) : Mach := { m with stages := [(x, d)] }

def live3 : List (Fld × Nat × Nat) := [(AX_CTRL.EN, 3, 1), (AX_STATE.RUN, 3, 1)]

def stw : List Mach := [oneC 0x104 3 56 3 [1, 2, 3] [], oneC 0x200 3 56 3 [1, 2, 3] [], oneC 0x200 3 56 3 [1, 2] (live3
    ++ [(AX_GT_STAT.SHUT, 3, 1)]), oneC 0x200 3 56 3 [1, 2] (live3 ++ [(AX_LIM_STAT.PHASE, 3, 4)]), oneC 0x302 3 56 3 [1] [(AX_CM_ADAPT.NT_EN, 3, 1)],
    oneC 0x500 70 56 3 [1, 2, 3, 4] [], stg (oneC 0x104 3 56 3 [1, 2, 3] []) 3 {openW := [(0xE040, some 1)]}, oneC 0x200 3 56 3 [1, 2] live3]

def wrs : List Mach := [oneC 0x102 3 56 3 [1, 2, 3, 4] [], oneC 0x102 3 56 3 [1, 2, 3, 4] live3, oneC 0x103 70 56 3 [1, 2, 3, 4, 5] [],
    oneC 0x106 3 56 3 [1, 2, 3, 4, 5] [], oneC 0x300 3 56 3 [0x00010001, 0, 7] [], oneC 0x300 3 56 3 [0x00000004, 0, 7] [],
    oneC 0x300 3 56 3 [0x000100FC, 0, 7] [], oneC 0x300 3 56 3 [0x00010008, 0, 7] [(AX_CM_ADAPT.NT_EN, 3, 1)], oneC 0x300 3 10 3 [0x00010008, 0,
    7] [], oneC 0x501 70 56 3 [1, 2, 3] [], oneC 0x602 3 56 3 [1, 2, 3] [], oneC 0x603 3 56 3 [1, 2, 3] [], oneC 0x400 3 56 3 [1, 2, 3] [],
    oneC 0x107 96 56 3 [1000, 0, 0, 500, 0, 1] [], oneC 0x107 96 56 3 [1000, 0, 0, 500, 0, 0] [(AX_CTRL.EN, 3, 1)], oneC 0x107 96 56 3 [1000, 0, 0,
    500, 0, 0] [], oneC 0x107 97 56 3 [1000, 0, 0, 500, 0, 1] [], oneC 0x002 1023 56 3 [0x30030001, 1, 9] [], oneC 0x002 1023 56 3 [0x30030004, 5,
    9] [], oneC 0x002 1023 56 3 [0x32000008, 1, 9] [] true, oneC 0x002 1023 56 3 [0x37000010, 1, 9] []]

def bkd (m : Mach) : Mach := { m with tap := { m.tap with banks := [(1, {valid := true})] } }

def emud : Ctx := { cx (hd 0x999 7 0 3 0 0x123) [] with started := true }

def done : Mach := wc (sw (qs ++ [(QM_CFG.EN, 5, 0)])) [(0, cx (hd 0xF 1023 56 3 0 9) [1200 + 0x123*65536, 0x00070999, 5, 0, 1, 2, 3, 4]), (5, emud)]

def sel : Mach := (bkd (oneC 0x10 1023 12 3 [0, 0x10000000, 64] [(AX_CM_STAT.ST, 3, 1)])).setComm 3 {seq := 1, part := 1}

def t0 : List (State × Fin 256 × Ctx) :=
  (stw.map fun m => ((wst m), 0, (cOf m)))

def t1 : List (State × Fin 256 × Ctx) :=
  (wrs.map fun m => ((wst m), 0, (cOf m)))

def t2 : List (State × Fin 256 × Ctx) :=
  ([done, sel].map fun m => ((wst m), 0, (cOf m)))

def t3 : List (State × Fin 256 × Fin 16) :=
  [((wst (withBk (oneC 0xC01 3 4 3 [] []))), 0, 0)]

end States13h

namespace States14h

def gOn := wm [(TB_STATUS.LOCK, 0, 1), (TB_PG_CTRL.EN, 0, 1), (TB_PG_STAT.RUN, 0, 1), (TB_STATUS.VN_CAL, 0, 1), (TAP_MC_STAT.READY, 0, 1)]

def sw (l : List (Fld × Nat × Nat)) := { setW gOn l with now := 77777 }

def qs : List (Fld × Nat × Nat) := [(QM_CFG.EN, 1200, 1), (QM_CFG.KIND, 1200, 0), (QM_BASE.BASE, 1200, 0x400000), (QM_LINK.AGENT, 1200, 17),
    (QM_LINK.RQ, 1200, 5), (QM_CFG.EN, 5, 1), (QM_CFG.KIND, 5, 1), (QM_BASE.BASE, 5, 0x400040)]

def hd (op tgt plen ack fence tag : Nat) (h : Nat := 0) : Nat := op + tgt*2^12 + plen*2^22 + ack*2^28 + fence*2^30 + tag*2^32 + h*2^48

def pk (h : Nat) (ps : List Nat) : List Nat := [h % 2^32, h / 2^32] ++ (ps ++ List.replicate 14 0).take 14

def pkm (h : Nat) (ps : List Nat) (l : List (Fld × Nat × Nat)) : Mach := (sw (qs ++ [(QM_IDX.TAIL, 1200, 1)]
    ++ l)).poke 0x10000000 ((pk h ps).flatMap (bytesOfNat 4))

def up : List (Fld × Nat × Nat) := [(QM_CFG.SPACE, 1200, 1), (OP_PCIE_STAT.UP, 0, 1)]

def t0 : List (State × Fin 4096 × Option (List Byte)) :=
  [((wst (pkm (hd 0 1023 0 3 0 7) [] [])), 1200, none), ((wst (sw [])), 1200, none), ((wst (pkm (hd 0 1023 0 3 0 7) [] up)), 1200, none)]

end States14h

def premisesTapsterTakesPackets (s : State) (q : Fin 4096) (host : Option (List Byte)) : List Bool :=
  let onHost := s.m.flg QM_CFG.SPACE q.val
  let pre := decide (s.m.held = [])
  [pre && decide (s.m.mayTake q.val = false ∨ ∀ i ∈ List.range 256, s.m.ctx i ≠ none),
   pre && (decide (∃ i ∈ List.range 256, s.m.ctx i = none) && (s.m.mayTake q.val && (onHost && (decide (host = none))))),
   pre && (([0, 1, 2, 3, 5, 0x10000000] : List (Nat)).any fun j => ([(host.getD []),
     (s.m.peek ((s.m.memAt none (s.m.qEntry q.val (s.m.qHead q.val)) 64).getD 0) 64)] : List (List Byte)).any fun bs => decide (j < 256)
     && (decide (s.m.ctx j = none) && (decide (∀ i < j, s.m.ctx i ≠ none) && (s.m.mayTake q.val
     && ((if onHost then decide (host = some bs) else match s.m.memAt none (s.m.qEntry q.val (s.m.qHead q.val)) 64 with | some k => s.m.goodCodeB k 64 && decide (bs = s.m.peek k 64) | none => false) && (let h := natOfBytes (bs.take 8); let own := s.m.flg QM_CFG.OWNER q.val; let c : Ctx := { q := q.val, guest := own || bitOf h 48, taken := s.m.tap.taken, pkt := packetWords bs, bank := s.m.mcActive, rsvw := headReserved h }; decide (s.m.packetErr c (!own || bitOf h 48) = none)))))))]

def premisesTapsterStarts (s : State) (n : Fin 256) : List Bool :=
  let pre := decide (s.m.held = [])
  [pre && decide (s.m.ctx n.val = none),
   pre && ((tapRows n).any fun e => (match s.m.ctx n.val with | some c => (decide (c.started = true ∨ c.op ≠ e.2 ∨ s.m.flg DBG_STAT.TAPH 0 = true ∨ s.m.barred c = true)) | _ => false)),
   pre && ((tapRows n).any fun e => (match s.m.ctx n.val with | some c => (decide (e.2 ∈ [0x104, 0x105, 0x200, 0x201, 0x202, 0x203, 0x204, 0x302, 0x303, 0x500, 0x502]) && (s.m.targetBusy n.val c)) | _ => false)),
   pre && ((tapRows n).any fun e => (match s.m.ctx n.val with | some c => (decide (c.op = e.2) && (decide (c.q < 4096) && (decide (c.started = false) && (decide (c.final = false) && (decide (c.micro = false) && (decide (s.m.flg DBG_STAT.TAPH 0 = false) && (decide (s.m.barred c = false) && (decide (s.m.targetBusy n.val c = false) && (decide (∃ k, s.m.entryOf e.2 = some k ∧ c.plen < k.2.2)))))))))) | _ => false))]

def premisesTapsterEmulationRepliesHolds (s : State) (n : Fin 256) (g : Fin 16) : List Bool :=
  let pre := decide (s.m.held = [])
  [pre && decide (s.m.ctx n.val = none),
   pre && ((match s.m.ctx n.val with | some c => (decide (c.q < 4096) && (decide (c.final = false) && (decide (c.micro = false) && (decide (¬ (c.started = false ∧ s.m.flg DBG_STAT.TAPH 0 = false ∧ s.m.barred c = false) ∨ c.op < 0x900 ∨ 0xC00 ≤ c.op))))) | _ => false)),
   pre && ((match s.m.ctx n.val with | some c => (decide (c.q < 4096) && (decide (c.final = false) && (decide (c.micro = false) && (decide (¬ (c.started = false ∧ s.m.flg DBG_STAT.TAPH 0 = false ∧ s.m.barred c = false) ∨ c.op < 0xC00))))) | _ => false)),
   pre && ((match s.m.ctx n.val with | some c => (decide (c.q < 4096) && (decide (c.final = false) && (decide (c.micro = false) && (decide (c.started = false) && (decide (s.m.flg DBG_STAT.TAPH 0 = false) && (decide (s.m.barred c = false) && (decide (0x900 ≤ c.op) && (decide (c.op < 0xC00) && (decide (s.m.flg TAP_EMUQ.EN 0 = false)))))))))) | _ => false)),
   pre && ((match s.m.ctx n.val with | some c => (decide (c.q < 4096) && (decide (c.final = false) && (decide (c.micro = false) && (let eq := s.m.fld TAP_EMUQ.QUEUE 0; decide (c.started = false) && (decide (s.m.flg DBG_STAT.TAPH 0 = false) && (decide (s.m.barred c = false) && (decide (0x900 ≤ c.op) && (decide (c.op < 0xC00) && (s.m.flg TAP_EMUQ.EN 0 && (decide (s.m.outReady eq 2 = false))))))))))) | _ => false)),
   pre && ((match s.m.ctx n.val with | some c => (decide (c.q < 4096) && (decide (c.final = false) && (decide (c.micro = false) && (let eq := s.m.fld TAP_EMUQ.QUEUE 0; decide (c.started = false) && (decide (s.m.flg DBG_STAT.TAPH 0 = false) && (decide (s.m.barred c = false) && (decide (0x900 ≤ c.op) && (decide (c.op < 0xC00) && (s.m.flg TAP_EMUQ.EN 0 && (s.m.outReady eq 2)))))))))) | _ => false)),
   pre && ((match s.m.ctx n.val with | some c => (decide (c.q < 4096) && (decide (c.final = false) && (decide (c.micro = false) && (let d := SMap.get noWord (s.m.mbank c.bank).disp c.op; decide (c.started = false) && (decide (s.m.flg DBG_STAT.TAPH 0 = false) && (decide (s.m.barred c = false) && (decide (0xC00 ≤ c.op) && (decide (c.plen < bitsOf d 29 24))))))))) | _ => false)),
   pre && ((match s.m.ctx n.val with | some c => (decide (c.q < 4096) && (decide (c.final = false) && (decide (c.micro = false) && (let d := SMap.get noWord (s.m.mbank c.bank).disp c.op; decide (c.started = false) && (decide (s.m.flg DBG_STAT.TAPH 0 = false) && (decide (s.m.barred c = false) && (decide (0xC00 ≤ c.op) && (decide (bitsOf d 29 24 ≤ c.plen))))))))) | _ => false)),
   pre && decide (∀ r ∈ s.m.tap.replies, s.m.outReady r.1 1 = false ∧ (s.m.flg QM_CFG.SPACE r.1 = false ∨ s.m.flg OP_PCIE_STAT.UP 0 = true)),
   pre && ((match s.m.tap.replies with | r :: rs => (decide (r.1 < 4096) && (decide (r.2.length = 32) && (s.m.outReady r.1 1))) | _ => false)),
   pre && ((match s.m.tap.replies with | r :: rs => (decide (r.1 < 4096) && (decide (r.2.length = 32) && (s.m.flg QM_CFG.SPACE r.1 && (decide (s.m.flg OP_PCIE_STAT.UP 0 = false))))) | _ => false)),
   pre && decide (s.m.tapHold g.val = none),
   pre && (match s.m.tapHold g.val with | some t => (true) | _ => false)]

def premisesTapsterReads (s : State) (n : Fin 256) (c : Ctx) : List Bool :=
  let x := c.target
  let pre := decide (s.m.held = []) && decide (c.target < 72 ∨ c.target = 1023)
  [pre && s.m.startableB n.val 0x000 c,
   pre && s.m.startableB n.val 0x003 c,
   pre && (s.m.startableB n.val 0x20C c && (decide (x < 64))),
   pre && (s.m.startableB n.val 0x301 c && (decide (x < 72) && (let o := c.param 0 2; decide (o % 4 ≠ 0 ∨ 0xFC < o)))),
   pre && (s.m.startableB n.val 0x301 c && (decide (x < 72) && (let o := c.param 0 2; let k := c.param 3 1; decide (o % 4 = 0) && (decide (o ≤ 0xFC)
     && (decide (1 < c.param 2 1 ∨ 0x100 < o + 4 * k)))))),
   pre && (s.m.startableB n.val 0x301 c && (decide (x < 72) && (let o := c.param 0 2; let k := c.param 3 1; decide (o % 4 = 0)
     && (decide (o + 4 * k ≤ 0x100) && (decide (o ≤ 0xFC) && (decide (c.param 2 1 ≤ 1) && (decide (k = 0 ∨ 4 < k)))))))),
   pre && (s.m.startableB n.val 0x301 c && (decide (x < 72) && (let o := c.param 0 2; let k := c.param 3 1; decide (o % 4 = 0)
     && (decide (o + 4 * k ≤ 0x100) && (decide (c.param 2 1 ≤ 1) && (decide (0 < k) && (decide (k ≤ 4)))))))),
   pre && (s.m.startableB n.val 0x402 c && (decide (x < 72))),
   pre && (s.m.startableB n.val 0x503 c && (decide (64 ≤ x) && (decide (x < 72)))),
   pre && (s.m.startableB n.val 0x604 c && (decide (x < 64) && (let k := c.param 0 1; decide (5 < k)))),
   pre && (s.m.startableB n.val 0x604 c && (decide (x < 64) && (let k := c.param 0 1; decide (k = 0)))),
   pre && (s.m.startableB n.val 0x604 c && (decide (x < 64) && (let k := c.param 0 1; decide (1 ≤ k) && (decide (k ≤ 4))))),
   pre && (s.m.startableB n.val 0x604 c && (decide (x < 64) && (let k := c.param 0 1; decide (k = 5)))),
   pre && (s.m.startableB n.val 0x704 c && (decide (x < 72))),
   pre && (s.m.startableB n.val 0x001 c && (let a := c.param 0 4; let k := c.param 4 1; s.m.tapDenied c.guest a k 0)),
   pre && (s.m.startableB n.val 0x001 c && (let a := c.param 0 4; let k := c.param 4 1; decide (s.m.tapDenied c.guest a k 0 = false)
     && (decide (a % 4 ≠ 0 ∨ a < 0x40000)))),
   pre && (s.m.startableB n.val 0x001 c && (let a := c.param 0 4; let k := c.param 4 1; decide (s.m.tapDenied c.guest a k 0 = false)
     && (decide (a % 4 = 0) && (decide (0x40000 ≤ a) && (decide (k = 0 ∨ 4 < k)))))),
   pre && (s.m.startableB n.val 0x001 c && (let a := c.param 0 4; let k := c.param 4 1; decide (s.m.tapDenied c.guest a k 0 = false) && (decide (k = 1)
     && (devAt a 4 && (decide (a < 0x33000000) && (decide (rlPart a = .none))))))),
   pre && (s.m.startableB n.val 0x001 c && (let a := c.param 0 4; let k := c.param 4 1; decide (s.m.tapDenied c.guest a k 0 = false) && (decide (k = 1)
     && (decide (a % 4 = 0) && (decide (0x40000 ≤ a) && ((match s.m.memAt none a 4 with | some j => (s.m.goodCodeB j 4) | _ => false)))))))]

def premisesTapsterStages (s : State) (n : Fin 256) (c : Ctx) : List Bool :=
  let x := c.target
  let d := s.m.stage x
  let pre := decide (s.m.held = [])
  [pre && (([((), 0x104), ((), 0x105), ((), 0x200), ((), 0x201), ((), 0x202), ((), 0x203), ((), 0x204), ((), 0x302), ((), 0x303), ((), 0x500), ((),
     0x502)]).any fun e => s.m.startableB n.val e.2 c && (decide (s.m.targetBusy n.val c = false)
     && (decide (if e.2 = 0x500 ∨ e.2 = 0x502 then 64 ≤ x ∧ x < 72 else x < 64) && (let off : Bool := !s.m.en x; decide (e.2 = 0x200 ∨ e.2 = 0x201)
     && (off))))),
   pre && (([((), 0x104), ((), 0x105), ((), 0x200), ((), 0x201), ((), 0x202), ((), 0x203), ((), 0x204), ((), 0x302), ((), 0x303), ((), 0x500), ((),
     0x502)]).any fun e => s.m.startableB n.val e.2 c && (decide (s.m.targetBusy n.val c = false)
     && (decide (if e.2 = 0x500 ∨ e.2 = 0x502 then 64 ≤ x ∧ x < 72 else x < 64)
     && (let off : Bool := !s.m.en x; let shut := s.m.flg AX_GT_STAT.SHUT x; decide (e.2 = 0x200) && (decide (off = false) && (shut)))))),
   pre && (([((), 0x104), ((), 0x105), ((), 0x200), ((), 0x201), ((), 0x202), ((), 0x203), ((), 0x204), ((), 0x302), ((), 0x303), ((), 0x500), ((),
     0x502)]).any fun e => s.m.startableB n.val e.2 c && (decide (s.m.targetBusy n.val c = false)
     && (decide (if e.2 = 0x500 ∨ e.2 = 0x502 then 64 ≤ x ∧ x < 72 else x < 64)
     && (let off : Bool := !s.m.en x; let ph := s.m.fld AX_LIM_STAT.PHASE x; let shut := s.m.flg AX_GT_STAT.SHUT x; decide (e.2 = 0x200)
     && (decide (off = false) && (decide (shut = false) && (decide (ph = 3 ∨ ph = 4)))))))),
   pre && (([((), 0x104), ((), 0x105), ((), 0x200), ((), 0x201), ((), 0x202), ((), 0x203), ((), 0x204), ((), 0x302), ((), 0x303), ((), 0x500), ((),
     0x502)]).any fun e => s.m.startableB n.val e.2 c && (decide (s.m.targetBusy n.val c = false)
     && (decide (if e.2 = 0x500 ∨ e.2 = 0x502 then 64 ≤ x ∧ x < 72 else x < 64) && (decide (e.2 = 0x302) && (s.m.tuneBusy x))))),
   pre && (([((), 0x104), ((), 0x105), ((), 0x200), ((), 0x201), ((), 0x202), ((), 0x203), ((), 0x204), ((), 0x302), ((), 0x303), ((), 0x500), ((),
     0x502)]).any fun e => s.m.startableB n.val e.2 c && (decide (s.m.targetBusy n.val c = false)
     && (decide (if e.2 = 0x500 ∨ e.2 = 0x502 then 64 ≤ x ∧ x < 72 else x < 64)
     && (let off : Bool := !s.m.en x; let ph := s.m.fld AX_LIM_STAT.PHASE x; let shut := s.m.flg AX_GT_STAT.SHUT x;
     decide (e.2 = 0x200 ∨ e.2 = 0x201 → off = false) && (decide (e.2 = 0x200 → shut = false ∧ ph ≠ 3 ∧ ph ≠ 4)
     && (decide (e.2 = 0x302 → s.m.tuneBusy x = false) && (decide (c.fence = 0) && (decide ((d.closed && d.locked) = false)
     && (SMap.wf unmarked d.openW)))))))))]

def premisesTapsterWrites (s : State) (n : Fin 256) (c : Ctx) : List Bool :=
  let x := c.target
  let b := Blk.base .sl x
  let pre := decide (s.m.held = [])
  [pre && (([((), 0x102, [(b + 8, c.param 0 4), (b + 0xC, c.param 4 4), (b + 0x10, c.param 8 1), (b + 0x14, c.param 12 4)]), ((), 0x103, [(b + 0x18,
     c.param 0 4), (b + 0x1C, c.param 4 4)] ++ (if x < 64 then [(b + 0x20, c.param 8 4), (b + 0x24, c.param 12 4), (b + 0x2C,
     c.param 16 4)] else [])), ((), 0x106, [(b + 0x4000, c.param 0 4), (b + 0x4004, c.param 4 4), (b + 0x4008, c.param 8 4)]
     ++ (if 64 ≤ x then [(b + 0x400C, c.param 12 4)] else [(b + 0x400C, c.param 12 4 % 64)])
     ++ (List.range (legsOf x)).map (fun l => (b + 0x4010 + 4 * l, c.param (16 + 4 * l) 4)))]).any fun e => s.m.startableB n.val e.2.1 c
     && (decide (x < (if e.2.1 = 0x102 then 64 else 72)) && (decide (s.m.liveSlice x = false) && (decide (e.2.1 ≠ 0x106))))),
   pre && (([((), 0x102, [(b + 8, c.param 0 4), (b + 0xC, c.param 4 4), (b + 0x10, c.param 8 1), (b + 0x14, c.param 12 4)]), ((), 0x103, [(b + 0x18,
     c.param 0 4), (b + 0x1C, c.param 4 4)] ++ (if x < 64 then [(b + 0x20, c.param 8 4), (b + 0x24, c.param 12 4), (b + 0x2C,
     c.param 16 4)] else [])), ((), 0x106, [(b + 0x4000, c.param 0 4), (b + 0x4004, c.param 4 4), (b + 0x4008, c.param 8 4)]
     ++ (if 64 ≤ x then [(b + 0x400C, c.param 12 4)] else [(b + 0x400C, c.param 12 4 % 64)])
     ++ (List.range (legsOf x)).map (fun l => (b + 0x4010 + 4 * l, c.param (16 + 4 * l) 4)))]).any fun e => s.m.startableB n.val e.2.1 c
     && (decide (x < (if e.2.1 = 0x102 then 64 else 72)) && (s.m.liveSlice x))),
   pre && (s.m.startableB n.val 0x300 c && (decide (x < 72) && (let o := c.param 0 2; decide (o % 4 ≠ 0 ∨ 0xFC < o)))),
   pre && (s.m.startableB n.val 0x300 c && (decide (x < 72) && (let o := c.param 0 2; let k := c.param 2 1; decide (o % 4 = 0) && (decide (o ≤ 0xFC)
     && (decide (k = 0 ∨ 12 < k ∨ 0x100 < o + 4 * k)))))),
   pre && (s.m.startableB n.val 0x300 c && (decide (x < 72) && (let o := c.param 0 2; let k := c.param 2 1; decide (o % 4 = 0)
     && (decide (o + 4 * k ≤ 0x100) && (decide (0 < k) && (decide (k ≤ 12) && (decide (8 + 4 * k ≤ c.plen) && (s.m.tuneBusy x)))))))),
   pre && (s.m.startableB n.val 0x300 c && (decide (x < 72) && (let o := c.param 0 2; let k := c.param 2 1; decide (o % 4 = 0)
     && (decide (o + 4 * k ≤ 0x100) && (decide (0 < k) && (decide (k ≤ 12) && (decide (8 + 4 * k ≤ c.plen) && (decide (s.m.tuneBusy x = false))))))))),
   pre && (s.m.startableB n.val 0x501 c && (decide (64 ≤ x) && (decide (x < 72)))),
   pre && (s.m.startableB n.val 0x602 c && (decide (x < 64))),
   pre && (s.m.startableB n.val 0x603 c && (decide (x < 64) && (decide (bitOf (c.param 0 4) 31 = false)))),
   pre && (s.m.startableB n.val 0x400 c && (decide (x < 72))),
   pre && (s.m.startableB n.val 0x107 c && (decide (96 ≤ x) && (decide (x < 112) && (let g := x - 96; let on := c.param 20 1 % 2 = 1; s.m.pgOn g
     && (decide (on)))))),
   pre && (s.m.startableB n.val 0x107 c && (decide (96 ≤ x) && (decide (x < 112) && (let g := x - 96; let on := c.param 20 1 % 2 = 1; s.m.pgOn g
     && (decide (¬ on) && (decide (∃ y ∈ s.m.members g, s.m.en y = true))))))),
   pre && (s.m.startableB n.val 0x107 c && (decide (96 ≤ x) && (decide (x < 112)
     && (let g := x - 96; let on := c.param 20 1 % 2 = 1; decide (s.m.pgOn g = false) && (decide (¬ on)))))),
   pre && (s.m.startableB n.val 0x002 c && (let a := c.param 0 4; decide (a % 4 ≠ 0 ∨ a < 0x40000))),
   pre && (s.m.startableB n.val 0x002 c && (let a := c.param 0 4; let k := c.param 4 1; decide (a % 4 = 0) && (decide (0x40000 ≤ a)
     && (decide (k = 0 ∨ 4 < k))))),
   pre && (s.m.startableB n.val 0x002 c && (let a := c.param 0 4; let k := c.param 4 1; decide (a % 4 = 0) && (decide (0x40000 ≤ a) && (decide (k = 1)
     && (c.guest && (decide (a < 0x33000000 ∨ 0x34000000 ≤ a) && (devAt a 4 && (decide (12 ≤ c.plen))))))))),
   pre && (s.m.startableB n.val 0x002 c && (let a := c.param 0 4; let k := c.param 4 1; decide (k = 1) && (decide (c.guest = false) && (devAt a 4
     && ((match blkOf a with | some (blk, i) => (decide (blk = .sys ∨ blk = .tb ∨ blk = .cell ∨ blk = .vis) && (decide (12 ≤ c.plen))) | _ => false))))))]

def premisesTapsterActsOnSlices (s : State) (n : Fin 256) (c : Ctx) : List Bool :=
  let x := c.target
  let a := Blk.base .sl x
  let pre := decide (s.m.held = [])
  [pre && (s.m.startableB n.val 0x100 c && (decide (x < 72) && (let w := c.param 0 4 ||| 2 ^ 31; s.m.en x && (decide ((s.m.rg a).toNat = w))))),
   pre && (s.m.startableB n.val 0x100 c && (decide (x < 72) && (let w := c.param 0 4 ||| 2 ^ 31; decide (¬ (s.m.en x = true ∧ (s.m.rg a).toNat = w))
     && (s.m.liveSlice x)))),
   pre && (s.m.startableB n.val 0x100 c && (decide (x < 72) && (decide (s.m.liveSlice x = false)))),
   pre && (s.m.startableB n.val 0x101 c && (decide (x < 72) && (decide (s.m.liveSlice x = false)))),
   pre && (s.m.startableB n.val 0x101 c && (decide (x < 72) && (s.m.liveSlice x && (decide (x < 64 ∨ s.m.companion x = none))))),
   pre && (s.m.startableB n.val 0x101 c && (decide (x < 72) && (s.m.en x && (decide (64 ≤ x) && ((s.m.companion x).isSome))))),
   pre && (s.m.startableB n.val 0x208 c && (decide (x < 64)
     && (decide (s.m.liveSlice x = false ∨ (s.m.servo x = true ∧ (s.m.fld AX_LIM_STAT.PHASE x = 3 ∨ s.m.fld AX_LIM_STAT.PHASE x = 4)))))),
   pre && (s.m.startableB n.val 0x208 c && (decide (x < 64) && (s.m.liveSlice x
     && (decide (¬ (s.m.servo x = true ∧ (s.m.fld AX_LIM_STAT.PHASE x = 3 ∨ s.m.fld AX_LIM_STAT.PHASE x = 4))))))),
   pre && (s.m.startableB n.val 0x209 c && (decide (x < 64))),
   pre && (s.m.startableB n.val 0x20A c && (decide (x < 72))),
   pre && (s.m.startableB n.val 0x20B c && (decide (x < 72) && (decide (s.m.flg AX_GT_STAT.SHUT x = false)))),
   pre && (s.m.startableB n.val 0x20B c && (decide (x < 72) && (s.m.flg AX_GT_STAT.SHUT x && (s.m.releaseBlocked x)))),
   pre && (s.m.startableB n.val 0x20B c && (decide (x < 72) && (s.m.flg AX_GT_STAT.SHUT x && (decide (s.m.releaseBlocked x = false))))),
   pre && (s.m.startableB n.val 0x401 c && (decide (x < 72) && (decide (c.param 0 1 % 2 = 0)))),
   pre && (s.m.startableB n.val 0x401 c && (decide (x < 72) && (decide (c.param 0 1 % 2 = 1) && (decide (s.m.fld AX_TRC_CTRL.MODE x = 2)
     && (decide ((s.m.slice x).trace.left = none)))))),
   pre && (s.m.startableB n.val 0x600 c && (decide (x < 64) && (let seq := c.param 0 1; decide (seq = 0 ∨ 6 < seq)))),
   pre && (s.m.startableB n.val 0x600 c && (decide (x < 64) && (let seq := c.param 0 1; decide (0 < seq) && (decide (seq ≤ 6)
     && (decide (7 < c.param 1 1)))))),
   pre && (s.m.startableB n.val 0x600 c && (decide (x < 64) && (let seq := c.param 0 1; decide (0 < seq) && (decide (seq ≤ 6)
     && (decide (c.param 1 1 ≤ 7) && (decide (3 < c.param 2 1))))))),
   pre && (s.m.startableB n.val 0x600 c && (decide (x < 64) && (let seq := c.param 0 1; decide (0 < seq) && (decide (seq ≤ 6)
     && (decide (c.param 1 1 ≤ 7) && (decide (c.param 2 1 ≤ 3))))))),
   pre && (s.m.startableB n.val 0x601 c && (decide (x < 64) && (decide ((s.m.comm x).part = 0)))),
   pre && (s.m.startableB n.val 0x601 c && (decide (x < 64) && (decide ((s.m.comm x).part ≠ 0) && (decide ((s.m.liveSlice x
     && s.m.pgOn (s.m.pgOf x)) = true))))),
   pre && (s.m.startableB n.val 0x703 c && (decide (x < 72))),
   pre && (s.m.startableB n.val 0x802 c && (decide (96 ≤ x) && (decide (x < 112) && (let g := x - 96; decide (s.m.tapHold g = none))))),
   pre && (s.m.startableB n.val 0x802 c && (decide (96 ≤ x) && (decide (x < 112)
     && (let g := x - 96; (match s.m.tapHold g with | some t => (true) | _ => false)))))]

def premisesTapsterActsOnTheDevice (s : State) (n : Fin 256) (c : Ctx) : List Bool :=
  let pre := decide (s.m.held = [])
  [pre && (s.m.startableB n.val 0x700 c && (let b := c.param 0 1; decide (15 < b))),
   pre && (s.m.startableB n.val 0x700 c && (let b := c.param 0 1; let cmd := c.param 1 1; decide (b ≤ 15) && (decide (cmd = 0 ∨ 3 < cmd)))),
   pre && (s.m.startableB n.val 0x700 c && (let b := c.param 0 1; let cmd := c.param 1 1; decide (b ≤ 15) && (decide (1 ≤ cmd) && (decide (cmd ≤ 3)
     && (decide (s.m.spareReady b = false)))))),
   pre && (s.m.startableB n.val 0x700 c && (let b := c.param 0 1; let cmd := c.param 1 1; decide (b ≤ 15) && (decide (cmd = 3) && (s.m.spareReady b)))),
   pre && (s.m.startableB n.val 0x700 c && (let b := c.param 0 1; let cmd := c.param 1 1; decide (b ≤ 15) && (decide (cmd = 1 ∨ cmd = 2)
     && (s.m.spareReady b)))),
   pre && (s.m.startableB n.val 0x701 c && (let b := c.param 0 1; decide (15 < b))),
   pre && (s.m.startableB n.val 0x701 c && (let b := c.param 0 1; let src := c.param 1 1; decide (b ≤ 15) && (decide (15 < src)))),
   pre && (s.m.startableB n.val 0x701 c && (let b := c.param 0 1; let src := c.param 1 1; decide (b ≤ 15) && (decide (src ≤ 15)
     && (decide (15 < c.param 4 1))))),
   pre && (s.m.startableB n.val 0x701 c && (let b := c.param 0 1; let src := c.param 1 1; decide (b ≤ 15) && (decide (src ≤ 7)
     && (decide (src = 4 → c.param 2 1 / 16 = b) && (decide (c.param 4 1 ≤ 15) && (decide (c.param 3 1 % 2 = 0) && (s.m.spareReady b
     && (decide ((s.m.bank b).reqs.length < 4))))))))),
   pre && (s.m.startableB n.val 0x702 c && (let kind := c.param 1 1; decide (kind = 0 ∨ 3 < kind))),
   pre && (s.m.startableB n.val 0x702 c && (let kind := c.param 1 1; decide (1 ≤ kind) && (decide (kind ≤ 3) && (decide (1 < c.param 2 1))))),
   pre && (s.m.startableB n.val 0x702 c && (let kind := c.param 1 1; decide (1 ≤ kind) && (decide (kind ≤ 3) && (decide (c.param 2 1 ≤ 1)
     && (decide (15 < c.param 3 1)))))),
   pre && (s.m.startableB n.val 0x702 c && (let k := c.param 0 1; let kind := c.param 1 1; decide (1 ≤ kind) && (decide (kind ≤ 3)
     && (decide (c.param 2 1 ≤ 1) && (decide (c.param 3 1 ≤ 15) && (decide (s.m.flg CMP_CTRL.EN k = false ∨ s.m.flg CMP_CHK_RES.BUSY k = true))))))),
   pre && (s.m.startableB n.val 0x702 c && (let k := c.param 0 1; let kind := c.param 1 1; decide (1 ≤ kind) && (decide (kind ≤ 2)
     && (decide (c.param 2 1 ≤ 1) && (decide (c.param 3 1 ≤ 15) && (s.m.flg CMP_CTRL.EN k && (decide (s.m.flg CMP_CHK_RES.BUSY k = false)
     && (decide (s.m.inWindow k = false))))))))),
   pre && (s.m.startableB n.val 0x800 c && (let o := c.param 0 1; decide (15 < o))),
   pre && (s.m.startableB n.val 0x800 c && (let o := c.param 0 1; let t := c.param 8 8; decide (o ≤ 15) && (decide (t < s.m.now + 16000)))),
   pre && (s.m.startableB n.val 0x800 c && (let o := c.param 0 1; let t := c.param 8 8; let w := c.param 16 2; decide (o ≤ 15)
     && (decide (s.m.now + 16000 ≤ t) && (decide (w < 8))))),
   pre && (s.m.startableB n.val 0x800 c && (let o := c.param 0 1; let t := c.param 8 8; let w := c.param 16 2; decide (o ≤ 15)
     && (decide (s.m.now + 16000 ≤ t) && (decide (8 ≤ w) && (decide (¬ ((s.m.vis o).pulses.length < 8 ∧ ∀ p ∈ (s.m.vis o).pulses,
     p.1 + p.2 ≤ t ∨ t + 16 * w ≤ p.1))))))),
   pre && (s.m.startableB n.val 0x800 c && (let o := c.param 0 1; let t := c.param 8 8; let w := c.param 16 2; decide (o ≤ 15)
     && (decide (s.m.now + 16000 ≤ t) && (decide (8 ≤ w) && (decide ((s.m.vis o).pulses.length < 8 ∧ ∀ p ∈ (s.m.vis o).pulses,
     p.1 + p.2 ≤ t ∨ t + 16 * w ≤ p.1)))))),
   pre && (s.m.startableB n.val 0x801 c && (let v : BitVec 32 := BitVec.ofNat 32 (c.param 4 4); c.guest && (decide (TB_TW_CTRL.ACT.of v = 2)))),
   pre && (s.m.startableB n.val 0x801 c && (let w := c.param 0 1; let v : BitVec 32 := BitVec.ofNat 32 (c.param 4 4);
     decide (¬ (c.guest = true ∧ TB_TW_CTRL.ACT.of v = 2)) && (decide (63 < w)))),
   pre && (s.m.startableB n.val 0x801 c && (let w := c.param 0 1; let v : BitVec 32 := BitVec.ofNat 32 (c.param 4 4);
     decide (¬ (c.guest = true ∧ TB_TW_CTRL.ACT.of v = 2)) && (decide (w ≤ 63) && (decide (s.m.flg TB_TW_CTRL.EN w = false)
     && (decide (c.param 16 8 ≤ c.param 8 8)))))),
   pre && (s.m.startableB n.val 0x801 c && (let w := c.param 0 1; let v : BitVec 32 := BitVec.ofNat 32 (c.param 4 4);
     decide (¬ (c.guest = true ∧ TB_TW_CTRL.ACT.of v = 2)) && (decide (w ≤ 63) && (decide (s.m.flg TB_TW_CTRL.EN w = false)
     && (decide (c.param 8 8 < c.param 16 8) && (decide (TB_TW_CTRL.MODE.of v = 0) && (decide (s.m.now ≤ c.param 16 8 + 128)))))))),
   pre && (s.m.startableB n.val 0x00F c && ((s.m.tap.ctxs.all fun e => e.2.all fun d => !c.names d)
     && (decide (SMap.wf (fun _ => none) s.m.tap.ctxs = true)))),
   pre && (s.m.startableB n.val 0x00F c && (([0, 1, 2, 3, 5, 0x10000000] : List (Nat)).any fun j => decide (j < 256)
     && ((match s.m.ctx j with | some d => (c.names d && (decide (d.q < 4096) && (decide (d.micro = false) && (decide (d.ack = 3) && (decide (c.ack = 3) && (decide (c.accepted = false) && (decide (SMap.wf (fun _ => none) s.m.tap.ctxs = true) && ((s.m.tap.ctxs.all fun e => e.2.all fun d => !c.names d || decide (e.1 = j)) && (decide (s.m.flg QM_CFG.SPACE (s.m.fld QM_LINK.RQ d.q) = false) && (decide (s.m.outReady (s.m.fld QM_LINK.RQ d.q) 1 = false) && (decide (d.q = c.q) && (decide (s.m.tap.replies.length + 3 ≤ 256))))))))))))) | _ => false)))),
   pre && (s.m.startableB n.val 0x010 c && (s.m.mcBusy)),
   pre && (s.m.startableB n.val 0x010 c && (decide (s.m.mcBusy = false) && (decide (c.param 0 1 % 2 = 0)
     && (decide ((s.m.mbank (!s.m.mcActive)).valid = false))))),
   pre && (s.m.startableB n.val 0x010 c && (decide (s.m.mcBusy = false) && (decide (c.param 0 1 % 2 = 0)
     && (decide ((s.m.mbank (!s.m.mcActive)).valid = true) && (s.m.cmHolds))))),
   pre && (s.m.startableB n.val 0x010 c && (decide (s.m.mcBusy = false) && (decide (c.param 0 1 % 2 = 0)
     && (decide ((s.m.mbank (!s.m.mcActive)).valid = true) && (decide (s.m.cmHolds = false)))))),
   pre && (s.m.startableB n.val 0x010 c && (decide (s.m.mcBusy = false) && (decide (c.param 0 1 % 2 = 1) && (s.m.oldRuns)))),
   pre && (s.m.startableB n.val 0x010 c && (decide (s.m.mcBusy = false) && (decide (c.param 0 1 % 2 = 1) && (decide (s.m.oldRuns = false)))))]

theorem witness_TapsterTakesAndStarts :
    (∀ p ∈ [(0, 1), (1, 2), (2, 0)], met (States14h.t0[p.2]?.map fun (s, q, host) => premisesTapsterTakesPackets s q host) p.1 = true) ∧
    (∀ p ∈ [(0, 6), (1, 0), (2, 3), (3, 0)], met (States8.t1[p.2]?.map fun (s, n) => premisesTapsterStarts s n) p.1 = true) := by decide +kernel

theorem witness_TapsterEmulationRepliesHolds :
    (∀ p ∈ [(0, 6), (1, 3), (2, 0), (3, 0), (4, 2), (5, 1), (7, 3), (8, 0), (9, 8), (10, 11), (11, 0), (12, 12)], met (States8.t2[p.2]?.map fun (s, n,
      g) => premisesTapsterEmulationRepliesHolds s n g) p.1 = true) ∧
    (∀ p ∈ [(6, 0)], met (States13h.t3[p.2]?.map fun (s, n, g) => premisesTapsterEmulationRepliesHolds s n g) p.1 = true) := by decide +kernel

theorem witness_TapsterReads :
    (∀ p ∈ [(0, 0), (1, 8), (2, 16), (3, 56), (4, 40), (5, 48), (6, 24), (7, 64), (8, 72), (9, 128), (10, 80), (11, 88), (12, 120), (13, 136), (14, 176),
      (15, 152), (16, 160), (17, 144), (18, 168)], met (States8b.t0[p.2]?.map fun (s, n, c) => premisesTapsterReads s n c) p.1 = true) := by decide +kernel

theorem witness_TapsterStages :
    (∀ p ∈ [(0, 1), (1, 2), (2, 3), (3, 4), (4, 0)], met (States13h.t0[p.2]?.map fun (s, n, c) => premisesTapsterStages s n c) p.1 = true) := by decide +kernel

theorem witness_TapsterWrites :
    (∀ p ∈ [(0, 0), (1, 1), (2, 4), (3, 5), (4, 7), (5, 6), (6, 9), (7, 10), (8, 11), (9, 12), (10, 13), (11, 14), (13, 17), (14, 18), (15, 19), (16,
      20)], met (States13h.t1[p.2]?.map fun (s, n, c) => premisesTapsterWrites s n c) p.1 = true) ∧
    (∀ p ∈ [(12, 0)], met (States8c.t0[p.2]?.map fun (s, n, c) => premisesTapsterWrites s n c) p.1 = true) := by decide +kernel

theorem witness_TapsterActs :
    (∀ p ∈ [(0, 16), (1, 24), (2, 0), (3, 40), (4, 48), (5, 64), (6, 72), (7, 80), (8, 96), (9, 112), (10, 152), (11, 160), (12, 144), (13, 192), (14,
      208)], met (States8c.t1[p.2]?.map fun (s, n, c) => premisesTapsterActsOnSlices s n c) p.1 = true) ∧
    (∀ p ∈ [(15, 0), (16, 128), (17, 144), (18, 16), (19, 160), (20, 168), (21, 176), (22, 193), (23, 201)], met (States8c.t2[p.2]?.map fun (s, n,
      c) => premisesTapsterActsOnSlices s n c) p.1 = true) ∧
    (∀ p ∈ [(0, 120), (1, 0), (2, 32), (3, 72), (4, 24), (5, 240), (6, 216), (7, 160), (8, 144), (9, 360), (10, 392), (11, 408), (12, 320), (13, 312),
      (14, 472), (15, 448), (16, 496), (17, 432), (18, 424)], met (States8d.t1[p.2]?.map fun (s, n,
      c) => premisesTapsterActsOnTheDevice s n c) p.1 = true) ∧
    (∀ p ∈ [(19, 8), (20, 32), (21, 16), (22, 0), (23, 194)], met (States8d.t2[p.2]?.map fun (s, n,
      c) => premisesTapsterActsOnTheDevice s n c) p.1 = true) ∧
    (∀ p ∈ [(24, 0), (27, 1)], met (States13h.t2[p.2]?.map fun (s, n, c) => premisesTapsterActsOnTheDevice s n c) p.1 = true) ∧
    (∀ p ∈ [(25, 16), (26, 0), (28, 8), (29, 64), (30, 40)], met (States8d.t3[p.2]?.map fun (s, n, c) => premisesTapsterActsOnTheDevice s n c) p.1 = true) := by decide +kernel

/-! ### Premises met: the micro-sequencer -/

namespace States9

def gOn := wm [(TB_STATUS.LOCK, 0, 1), (TB_PG_CTRL.EN, 0, 1), (TB_PG_STAT.RUN, 0, 1), (TB_STATUS.VN_CAL, 0, 1), (TAP_MC_STAT.READY, 0, 1)]

def sw (l : List (Fld × Nat × Nat)) := { setW gOn l with now := 77777 }

def qs : List (Fld × Nat × Nat) := [(QM_CFG.EN, 1200, 1), (QM_CFG.KIND, 1200, 0), (QM_BASE.BASE, 1200, 0x400000), (QM_LINK.AGENT, 1200, 17),
    (QM_LINK.RQ, 1200, 5), (QM_CFG.EN, 5, 1), (QM_CFG.KIND, 5, 1), (QM_BASE.BASE, 5, 0x400040)]

def hd (op tgt plen ack fence tag : Nat) (h : Nat := 0) : Nat := op + tgt*2^12 + plen*2^22 + ack*2^28 + fence*2^30 + tag*2^32 + h*2^48

def pk (h : Nat) (ps : List Nat) : List Nat := [h % 2^32, h / 2^32] ++ (ps ++ List.replicate 14 0).take 14

def cx (h : Nat) (ps : List Nat) : Ctx := { q := 1200, pkt := pk h ps, taken := 3 }

def wc (m : Mach) (l : List (Nat × Ctx)) : Mach := l.foldl (fun m e => m.setCtx e.1 (some e.2)) m

def cOf (m : Mach) : Ctx := (m.ctx 0).getD {}

def nf (l : List (Nat × Nat × Nat)) : Nat := l.foldl (fun a e => a + (e.2.2 % 2^(e.1-e.2.1+1)) * 2^e.2.1) 0

def mk (seq arg nano : Nat) (pc : Nat) (m : Mach) (ex : MBank → MBank := id) : Mach := { m with tap := { m.tap with banks := [(0, ex {micro := [(pc, seq*2^21 + 1024 + arg)], nano := [(1, nano)], valid := true})] } }

def mc (c : Ctx) (op : Nat) (seq arg nano : Nat) (l : List (Fld × Nat × Nat)) (tgt : Nat := 3) (ack := 3) (fence := 0) : Mach :=
  let c : Ctx := { c with q := 1200, pkt := pk (hd op tgt 20 ack fence 9) [5, 6, 7], taken := 3, started := true, micro := true }
  mk seq arg nano c.pc (wc (sw (qs++l)) [(0, c)])

def ba : Ctx := { pc := 0x200, t := [(1, 0x10000000), (2, 0xFFFFFFFF), (3, 3), (4, 0x10000008)], stack := [0x300], steps := 5 }

def gu : Ctx := { ba with pc := 0x3100, stack := [0x3300] }

def nanos : List (List (Nat × Nat × Nat)) := ((List.range 15).flatMap fun op => [[(72, 69, op), (80, 80, 1), (85, 81, 5), (95, 91, 2), (90, 86, 3),
    (68, 68, 1)], [(72, 69, op), (80, 80, 1), (85, 81, 1), (95, 91, 1), (90, 86, 2), (68, 68, 1), (58, 58, 1), (57, 55, 4), (67, 64, 1), (63, 63, 1),
    (127, 96, 0xFF00)]]) ++ [[(78, 77, 1), (159, 128, 77), (72, 69, 1), (58, 58, 1), (57, 55, 7), (67, 64, 2), (63, 63, 1)], [(79, 79, 1), (76, 73,
    2), (72, 69, 0), (80, 80, 1), (85, 81, 31)]]

def flt : List Mach := [mc ba 0xC01 0 0 1 [], mc ba 0xC01 0 0 (nf [(72, 69, 15)]) [(QM_CFG.EN, 5, 0)], mc {ba with lock := some 3} 0xC01 0 0 (nf [(58,
    58, 1)]) [], mc {ba with stack := []} 0xC01 4 0 0 [], mc {ba with stack := [1, 2, 3, 4]} 0xC01 3 0 0 [], mc gu 0xC01 3 0 (nf [(49, 36,
    0x200)]) [], mc ba 0xC01 7 0 0 [], mc {ba with steps := 65535} 0xC01 0 0 0 [],
    mc {ba with wev := some 3, t := [(30, 90000), (31, 0)]} 0xC01 0 0 0 [], mc {ba with wev := some 4, ready := some (true, 77, 9)} 0xC01 0 0 0 [],
    mc {ba with wev := some 4} 0xC01 0 0 0 [], mc {ba with wev := some 4, ready := some (true, 77, 9)} 0xC01 0 0 0 [(DBG_STAT.TAPH, 0, 1)], sw []]

def xo (c : Ctx) (x : Nat) (a b : Nat) (l : List (Fld × Nat × Nat)) (tgt := 3) (ack := 3) (fence := 0) : Mach := (mc c 0xC01 0 0 (nf [(62, 59, x),
    (72, 69, 1), (78, 77, 1), (159, 128, a), (85, 81, b)]) l tgt ack fence).poke 0x10000000 ((List.range 32).map (BitVec.ofNat 8))

def xs : List Mach := ([1, 2, 3, 4].flatMap fun x => [xo ba x 0x10000008 2 [], xo {ba with guest := true} x 0x10000008 2 [(SYS_PAIR_SGB.OFS, 0, 5)],
    xo ba x 0x10000100 31 []]) ++ [xo ba 5 (Blk.base .sl 3 + 0xE040) 2 [], xo {ba with lock := some 3, wrote := [7]} 5 (Blk.base .sl 3 + 0xE044) 2 [],
    xo ba 6 0 0 [], { xo {ba with lock := some 3, wrote := [7]} 6 0 0 [] with stages := [(3, {openW := [(0xE040, some 5)], gen := 7, tapLock := true, waiting := [{req := .reed 1, off := 0xE048, wide := false, val := 9}]})] }] ++ ([0, 1, 2, 3].flatMap fun a => [0x0101, 1, 0, 2, 0x12, 0x3F20, 0x21, 0x99].flatMap fun r => [xo ba 7 r 0 [] 3 a, xo {ba with y := [(4, 9)]} 7 r 0 [(QM_CFG.EN, 5, 0)] 3 a, xo {ba with final := true} 7 r 0 [] 3 a]) ++ [xo ba 8 5 0 [], xo ba 8 6 0 [], xo {ba with y := [(4, 9)]} 8 5 0 [(QM_CFG.WB, 5, 1)]]

def ld (m : Mach) (l : Option (Bool × Nat × Nat)) : Mach := { m with tap := { m.tap with load := l } }

def sf (m : Mach) (t : Option Nat) : Mach := { m with tap := { m.tap with swapFrom := t } }

def bkd (v : Bool) (m : Mach) : Mach := { m with tap := { m.tap with banks := [(1, {valid := v, version := 4})] } }

def cmm (m : Mach) : Mach := (m.setFld AX_CM_STAT.ST 3 1).setComm 3 {part := 1, seq := 1}

def t0 : List (State × Fin 272 × Ctx × Micro) :=
  (nanos.flatMap fun n => [0, 6, 7].flatMap fun sq => [ba, {gu with final := true, lock := some 3}].map fun c => let m := mc c 0xC01 sq 5 (nf n) [];
    ((wst m), 0, (cOf m), (m.microOf (cOf m))))

def t1 : List (State × Fin 272 × Ctx × Micro) :=
  ((nanos.drop 25).flatMap fun n => [1, 2, 3, 4, 5].flatMap fun sq => [ba, gu, {gu with z := true, stack := []}, {gu with stack := [1, 2, 3, 4]},
    {gu with pc := 0x3FFF}].flatMap fun c => [5,
    1000].map fun arg => let m := mc c 0xC01 sq arg (nf (n ++ [(49, 36, if arg = 5 then 0x3200 else 0x80)])) []; ((wst m), 0, (cOf m),
    (m.microOf (cOf m))))

def t2 : List (State × Fin 272) :=
  (flt.map fun m => ((wst m), 0))

def t3 : List (State × Fin 272 × Ctx × Micro) :=
  (xs.map fun m => ((wst m), 0, (cOf m), (m.microOf (cOf m))))

def t4 : List (State × Req × Bool) :=
  ([sw [], bkd true (sw []), bkd true (cmm (sw [])), ld (sw [(TAP_MC_STAT.LOAD, 0, 1)]) (some (false, 0x10000000, 64)), ld (sw [(TAP_MC_STAT.LOAD, 0,
    1)]) (some (true, 5, 64)), (sw []).setCtx 3 (some {cx 0 [] with started := true, bank := true}), sf (sw [(TAP_MC_STAT.SWAP, 0, 1)]) (some 5),
    (bkd true (sw [(TAP_MC_STAT.SWAP, 0, 1)])).setCtx 256 (some {micro := true, started := true}),
    (bkd true (sw [])).setCtx 256 (some {micro := true, started := true})].flatMap fun m => [true, false].map fun b => ((wst m), r0, b))

end States9

namespace States14i

def gOn := wm [(TB_STATUS.LOCK, 0, 1), (TB_PG_CTRL.EN, 0, 1), (TB_PG_STAT.RUN, 0, 1), (TB_STATUS.VN_CAL, 0, 1), (TAP_MC_STAT.READY, 0, 1)]

def sw (l : List (Fld × Nat × Nat)) := { setW gOn l with now := 77777 }

def qs : List (Fld × Nat × Nat) := [(QM_CFG.EN, 1200, 1), (QM_CFG.KIND, 1200, 0), (QM_BASE.BASE, 1200, 0x400000), (QM_LINK.AGENT, 1200, 17),
    (QM_LINK.RQ, 1200, 5), (QM_CFG.EN, 5, 1), (QM_CFG.KIND, 5, 1), (QM_BASE.BASE, 5, 0x400040)]

def hd (op tgt plen ack fence tag : Nat) (h : Nat := 0) : Nat := op + tgt*2^12 + plen*2^22 + ack*2^28 + fence*2^30 + tag*2^32 + h*2^48

def pk (h : Nat) (ps : List Nat) : List Nat := [h % 2^32, h / 2^32] ++ (ps ++ List.replicate 14 0).take 14

def wc (m : Mach) (l : List (Nat × Ctx)) : Mach := l.foldl (fun m e => m.setCtx e.1 (some e.2)) m

def cOf (m : Mach) : Ctx := (m.ctx 0).getD {}

def nf (l : List (Nat × Nat × Nat)) : Nat := l.foldl (fun a e => a + (e.2.2 % 2^(e.1-e.2.1+1)) * 2^e.2.1) 0

def mk (seq arg nano : Nat) (pc : Nat) (m : Mach) (ex : MBank → MBank := id) : Mach := { m with tap := { m.tap with banks := [(0, ex {micro := [(pc, seq*2^21 + 1024 + arg)], nano := [(1, nano)], valid := true})] } }

def mc (c : Ctx) (op : Nat) (seq arg nano : Nat) (l : List (Fld × Nat × Nat)) (tgt : Nat := 3) (ack := 3) (fence := 0) : Mach :=
  let c : Ctx := { c with q := 1200, pkt := pk (hd op tgt 20 ack fence 9) [5, 6, 7], taken := 3, started := true, micro := true }
  mk seq arg nano c.pc (wc (sw (qs++l)) [(0, c)])

def ba : Ctx := { pc := 0x200, t := [(1, 0x10000000), (2, 0xFFFFFFFF), (3, 3), (4, 0x10000008)], stack := [0x300], steps := 5 }

def xo (c : Ctx) (x : Nat) (a b : Nat) (l : List (Fld × Nat × Nat)) (tgt := 3) (ack := 3) (fence := 0) : Mach := (mc c 0xC01 0 0 (nf [(62, 59, x),
    (72, 69, 1), (78, 77, 1), (159, 128, a), (85, 81, b)]) l tgt ack fence).poke 0x10000000 ((List.range 32).map (BitVec.ofNat 8))

def t0 : List (State × Fin 272 × Ctx × Micro) :=
  [((wst (xo ba 5 (Blk.base .sl 3 + 0xE041) 2 [])), 0, (cOf (xo ba 5 (Blk.base .sl 3 + 0xE041) 2 [])),
    ((xo ba 5 (Blk.base .sl 3 + 0xE041) 2 []).microOf (cOf (xo ba 5 (Blk.base .sl 3 + 0xE041) 2 []))))]

end States14i

def premisesMicroSteps (s : State) (n : Fin 272) (c : Ctx) (u : Micro) : List Bool :=
  let seqN := (c.pc + 1) % 0x4000
  let disp := (((c.pc : Int) + signed 10 u.arg) % 0x4000).toNat
  let tgt := u.f 49 36
  let pre := decide (s.m.held = []) && s.m.steppingB n.val c u && decide (c.starting u = 0) && decide (c.steps + 1 < 65536)
  [pre && decide (u.seq = 0 ∨ u.seq = 6),
   pre && (decide (u.seq = 1) && (decide (c.pc < 0x3000 ∨ 0x3000 ≤ disp))),
   pre && (decide (u.seq = 2) && (decide (c.pc < 0x3000 ∨ 0x3000 ≤ disp) && (decide (c.pc < 0x3000 ∨ 0x3000 ≤ seqN)))),
   pre && (decide (u.seq = 3) && (decide ((c.pc < 0x3000 ∨ 0x3000 ≤ tgt) ∨ tgt < 0x100) && (decide (c.stack.length < 4)))),
   pre && (decide (u.seq = 4) && ((match c.stack with | p :: ps => (decide (c.pc < 0x3000 ∨ 0x3000 ≤ p)) | _ => false))),
   pre && (decide (u.seq = 5) && (decide (c.pc < 0x3000 ∨ 0x3000 ≤ tgt) && (decide (c.pc < 0x3000 ∨ 0x3000 ≤ seqN)))),
   pre && (decide (u.seq = 7) && (decide (n.val < 256) && (c.final)))]

def premisesMicroFaultsAndWaits (s : State) (n : Fin 272) : List Bool :=
  let pre := decide (s.m.held = [])
  [pre && (decide (s.m.hasTurn n.val = false) && (decide (s.m.vendorXop n.val = false))),
   pre && (match s.m.ctx n.val with | some c => (decide (s.m.stepping c = false)) | _ => false),
   pre && ((match s.m.ctx n.val with | some c => (decide (n.val < 256) && (decide (c.q < 4096) && (decide (c.final = false) && (s.m.hasTurn n.val && (let u := s.m.microOf c; decide (wordFault c u ≠ 0)))))) | _ => false)),
   pre && ((match s.m.ctx n.val with | some c => (decide (n.val < 256) && (decide (c.q < 4096) && (decide (c.final = false) && (s.m.hasTurn n.val && (let u := s.m.microOf c; decide (wordFault c u = 0) && (decide (c.starting u = 0) && (decide (u.seq = 3) && (decide (c.pc < 0x3000 ∨ 0x3000 ≤ u.f 49 36 ∨ u.f 49 36 < 0x100) && (decide (4 ≤ c.stack.length)))))))))) | _ => false)),
   pre && ((match s.m.ctx n.val with | some c => (decide (n.val < 256) && (decide (c.q < 4096) && (decide (c.final = false) && (s.m.hasTurn n.val && (let u := s.m.microOf c; decide (wordFault c u = 0) && (decide (c.starting u = 0) && (decide (u.seq = 4) && (decide (c.stack = []))))))))) | _ => false)),
   pre && ((match s.m.ctx n.val with | some c => (decide (n.val < 256) && (decide (c.q < 4096) && (decide (c.final = false) && (s.m.hasTurn n.val && (let u := s.m.microOf c; decide (wordFault c u = 0) && (decide (c.starting u = 0) && (decide (u.seq = 3) && (decide (0x3000 ≤ c.pc) && (decide (0x100 ≤ u.f 49 36) && (decide (u.f 49 36 < 0x3000))))))))))) | _ => false)),
   pre && ((match s.m.ctx n.val with | some c => (decide (n.val < 256) && (decide (c.q < 4096) && (decide (c.final = false) && (s.m.hasTurn n.val && (let u := s.m.microOf c; decide (wordFault c u = 0) && (decide (c.starting u = 0) && (decide (u.seq = 7)))))))) | _ => false)),
   pre && ((match s.m.ctx n.val with | some c => (decide (n.val < 256) && (decide (c.q < 4096) && (decide (c.final = false) && (s.m.hasTurn n.val && (let u := s.m.microOf c; decide (wordFault c u = 0) && (decide (c.starting u = 0) && (decide (u.seq = 0) && (decide (0xC00 ≤ c.op) && (decide (65535 ≤ c.steps)))))))))) | _ => false)),
   pre && (match s.m.ctx n.val with | some c => (decide (s.m.flg DBG_STAT.TAPH 0 = true ∨ c.wev = none ∨ (c.ready = none ∧ c.wev ≠ some 3))) | _ => false),
   pre && ((match s.m.ctx n.val with | some c => (decide (s.m.flg DBG_STAT.TAPH 0 = false) && (decide (c.wev ≠ none) && ((match c.ready with | some (x, v, t) => (true) | _ => false)))) | _ => false)),
   pre && ((match s.m.ctx n.val with | some c => (decide (s.m.flg DBG_STAT.TAPH 0 = false) && (decide (c.wev = some 3) && (decide (c.ready = none)))) | _ => false))]

def premisesMicroExternalOperations (s : State) (n : Fin 272) (c : Ctx) (u : Micro) : List Bool :=
  let r := (c.alu u).toNat
  let x := c.target
  let pre := decide (s.m.held = []) && s.m.steppingB n.val c u && c.plainB u
  [pre && (decide (u.xop = 1) && (decide (s.m.accessErr (tapWho c.guest) none r 4 0 = none)
     && ((match s.m.memAt none r 4 with | some k => (s.m.goodCodeB k 4) | _ => false)))),
   pre && (decide (u.xop = 2) && (decide (s.m.accessErr (tapWho c.guest) none r 4 1 = none)
     && ((match s.m.memAt none r 4 with | some k => (s.m.goodCodeB k 4) | _ => false)))),
   pre && (decide (u.xop = 3) && (decide (s.m.accessErr (tapWho c.guest) none r 8 0 = none)
     && ((match s.m.memAt none r 8 with | some k => (s.m.goodCodeB k 8) | _ => false)))),
   pre && (decide (u.xop = 4) && (decide (s.m.accessErr (tapWho c.guest) none r 8 1 = none)
     && ((match s.m.memAt none r 8 with | some k => (s.m.goodCodeB k 8) | _ => false)))),
   pre && (([0xE040, 0xE044, 0xE041] : List (Nat)).any fun o => decide (u.xop = 5) && (decide (n.val < 256) && (decide (x < 72)
     && (decide (c.guest = false) && (decide (r = Blk.base .sl x + o) && (decide (0xC000 ≤ o) && (decide (o < 0xFF80)
     && ((match findCard (cardsOf .sl x) (liveOff o) with | some k => (k.staged && (decide (¬ (64 ≤ x ∧ liveOff o = CV_FFB.MANT.off)) && (decide (o % 4 = 0)))) | _ => false))))))))),
   pre && (([0xE040, 0xE044, 0xE041] : List (Nat)).any fun o => decide (u.xop = 5) && (decide (n.val < 256) && (decide (x < 72)
     && (decide (c.guest = false) && (decide (c.final = false) && (decide (r = Blk.base .sl x + o) && (decide (0xC000 ≤ o) && (decide (o < 0xFF80)
     && (decide (o % 4 ≠ 0)))))))))),
   pre && (decide (u.xop = 6) && (decide (n.val < 256) && (decide (x < 72) && (decide (c.guest = false) && (decide (c.fence = 0)
     && (decide ((s.m.stage x).closed = false))))))),
   pre && (decide (u.xop = 7) && (decide (n.val < 256) && (decide (c.final = false) && (let st := r % 256; decide (st = 1))))),
   pre && (decide (u.xop = 7) && (decide (n.val < 256) && (decide (c.final = false) && (let st := r % 256; statusKnown st && (decide (st ≠ 1)))))),
   pre && (decide (u.xop = 7) && (decide (n.val < 256) && (decide (c.final = false) && (let st := r % 256; decide (statusKnown st = false))))),
   pre && (decide (u.xop = 7) && (decide (n.val < 256) && (c.final))),
   pre && (decide (u.xop = 8) && (decide (c.guest = false) && (let q := r % 4096; s.m.outReady q 1))),
   pre && (decide (u.xop = 8) && (decide (c.guest = false) && (let q := r % 4096; decide (s.m.outReady q 1 = false)
     && (decide (s.m.fld QM_CFG.KIND q = 1)))))]

def premisesMicrocodeLoads (s : State) (r : Req) (ok : Bool) : List Bool :=
  let old := s.m.mcActive
  let pre := decide (s.m.held = []) && s.m.houseSupB r && decide (s.m.tap.mc = none)
  [pre && decide (s.m.mcBusy = true ∨ s.m.oldRuns = true),
   pre && (decide (s.m.mcBusy = false) && (decide (s.m.oldRuns = false))),
   pre && s.m.mcBusy,
   pre && (decide (s.m.mcBusy = false) && (decide ((s.m.mbank (!old)).valid = false))),
   pre && (decide (s.m.mcBusy = false) && (decide ((s.m.mbank (!old)).valid = true) && (s.m.cmHolds))),
   pre && (decide (s.m.mcBusy = false) && (decide ((s.m.mbank (!old)).valid = true) && (decide (s.m.cmHolds = false)))),
   pre && decide (s.m.tap.load = none),
   pre && (match s.m.tap.load with | some (swap, a, l) => (decide (s.m.bufKey a l = none)) | _ => false),
   pre && ((match s.m.tap.load with | some (swap, a, l) => (decide (s.m.bufKey a l = some a) && (s.m.goodCodeB a l && (let k := s.m.container (s.m.peek a l) l; decide (k.1 ≠ 0)))) | _ => false)),
   pre && ((match s.m.tap.load with | some (swap, a, l) => (decide (s.m.bufKey a l = some a) && (s.m.goodCodeB a l && (let k := s.m.container (s.m.peek a l) l; decide (k.1 = 0) && (decide (swap = false))))) | _ => false)),
   pre && decide (s.m.tap.swapFrom = none),
   pre && (match s.m.tap.swapFrom with | some t => (true) | _ => false),
   pre && decide (s.m.ctx 256 = none),
   pre && (decide (s.m.ctx 256 ≠ none) && (s.m.flg TAP_MC_STAT.SWAP 0 && (ok))),
   pre && (decide (s.m.ctx 256 ≠ none) && (s.m.flg TAP_MC_STAT.SWAP 0 && (decide (ok = false)))),
   pre && (decide (s.m.ctx 256 ≠ none) && (decide (s.m.flg TAP_MC_STAT.SWAP 0 = false) && (ok))),
   pre && (decide (s.m.ctx 256 ≠ none) && (decide (s.m.flg TAP_MC_STAT.SWAP 0 = false) && (decide (ok = false))))]

theorem witness_MicroSteps :
    (∀ p ∈ [(0, 0), (6, 5)], met (States9.t0[p.2]?.map fun (s, n, c, u) => premisesMicroSteps s n c u) p.1 = true) ∧
    (∀ p ∈ [(1, 0), (2, 10), (3, 20), (4, 30), (5, 40)], met (States9.t1[p.2]?.map fun (s, n, c, u) => premisesMicroSteps s n c u) p.1 = true) ∧
    (∀ p ∈ [(0, 8), (1, 8), (2, 0), (3, 4), (4, 3), (5, 5), (6, 6), (7, 7), (8, 0), (9, 9), (10, 8)], met (States9.t2[p.2]?.map fun (s,
      n) => premisesMicroFaultsAndWaits s n) p.1 = true) := by decide +kernel

theorem witness_MicroExternalOperations :
    (∀ p ∈ [(0, 0), (1, 3), (2, 6), (3, 9), (4, 12), (6, 14), (7, 16), (8, 22), (9, 37), (10, 18), (11, 112), (12, 113)],
      met (States9.t3[p.2]?.map fun (s, n, c, u) => premisesMicroExternalOperations s n c u) p.1 = true) ∧
    (∀ p ∈ [(5, 0)], met (States14i.t0[p.2]?.map fun (s, n, c, u) => premisesMicroExternalOperations s n c u) p.1 = true) := by decide +kernel

theorem witness_MicrocodeLoads :
    (∀ p ∈ [(0, 6), (1, 0), (2, 6), (3, 0), (4, 4), (5, 2), (6, 0), (7, 8), (8, 6), (10, 0), (11, 12), (12, 0), (13, 14), (14, 15), (15, 16), (16, 17)],
      met (States9.t4[p.2]?.map fun (s, r, ok) => premisesMicrocodeLoads s r ok) p.1 = true) := by decide +kernel

/-! ### Premises met: the rules stated whole -/

namespace States10

def run (l : List (Fld × Nat × Nat)) : Mach := { setW Mach.reset ((List.range 8).map (fun p => (SYS_PAIR_STAT.STATE, p, 0)) ++ l) with now := 7777 }

def core (m : Mach) (c : Nat) (r : Reed) : Mach := m.setReed c r

def kk : Core := { g := [(1, 5), (62, 0x10008000)], latch := [(0, 7), (1, 0xFFFFFFFFFFFFFFFF), (2, 3), (3, 9), (4, 0x4000000000000000), (5, 0x1122334455667788), (6, 0x10)], pc := 0x10000100, res := [(0, 11), (1, 12)], busy := 3 }

def split1 := [(SYS_PAIR_STAT.MODE, 1, 1)]

def sbe : SbEntry := { addr := 0x10002000, bytes := bytesOfNat 8 0x8877665544332211, guest := false, user := false }

def vec (m : Mach) : Mach := [4, 5, 8, 9, 10, 16].foldl (fun m v => m.poke (0x10010000 + 16*v) (bytesOfNat 4 (0x10020000 + 0x100*v + 1 + 2 * (v%2))
    ++ bytesOfNat 4 0x10040000 ++ bytesOfNat 4 0x1000 ++ bytesOfNat 4 1)) m

def vecg (m : Mach) : Mach := [9, 11, 13, 16].foldl (fun m v => m.poke (0x10011000 + 16*v) (bytesOfNat 4 (0x10020000 + 0x100*v + 1 + 2 * (v%2))
    ++ bytesOfNat 4 0x10040000 ++ bytesOfNat 4 0x1000 ++ bytesOfNat 4 3)) m

def vm (m : Mach) : Mach := (((vecg (vec m)).setRg (ctlAddr 3 0x10) 0x10010001 |>.setRg (ctlAddr 2 0x10) 0x10010001).setRg (ctlAddr 3 0x11) 0x10011001).setRg (ctlAddr 2 0x11) 0x10011001

def cr' (n : Nat) (l : List (Nat × Nat)) (m : Mach) : Mach := l.foldl (fun m e => m.setRg (ctlAddr n e.1) (BitVec.ofNat 32 e.2)) m

def ks : List Core := [kk, {kk with latch := [(0, 0x7FFFFFFFFFFFFFFF), (4, 0)]},
    {kk with latch := [(0, 1), (1, 0x8000000000000000), (2, 0), (4, 0x7FF0000000000001)]}]

def ms : List Mach := ks.flatMap fun k => [core (run split1) 3 {core := k}, cr' 3 [(6, 0)] (core (run split1) 3 {core := k}), cr' 3 [(6, 0x31F), (5,
    2)] (core (run (split1)) 3 {core := k}), cr' 3 [(6, 0x31F), (5, 2)] (core (run (split1++[(ST.PA, 3, 1)])) 3 {core := k}),
    core (run (split1++[(ST.PA, 3, 1), (ST.LEVEL, 3, 0)])) 3 {core := k, sb := [sbe]}]

def g1 : Mach := wm [(OP_PCIE_CTRL.WORLD, 0, 1), (AX_STICKY.DLMISS, 5, 1), (AX_DL_STAT.TOTAL, 5, 7)]

def mi : Mach := (wm [(AX_LIM_VMAX.VAL, 5, 77)]).setStage 5 { openW := [(0xE008, some 55), (0xC034, some 9)] }

def t0 : List (State × Fin 16 × BitVec 64 × Bool) :=
  (ms.flatMap fun m => [0x7FFFFFFFFFFFFFFF, 0x8000000000000000, 1, 0x3FF0000000000000, 0x7FF4000000000000,
    0xBFF0000000000000].flatMap fun t => [((wst (vm m)), 3, t, false), ((wst (vm m)), 3, t, true)])

def t1 : List (State × Req × Nat) :=
  ([Req.pcie, Req.tapster true, Req.reed 0].flatMap fun r => [0x30058000, 0x30050000, 0x32000008, 0x3200000C, 0x31000000, 0x33000000, 0x30058084,
    0x30056000, 0x30055004].map fun a => ((wst g1), r, a))

def t2 : List (State × Req × Fin 72 × Nat × Card) :=
  ((cards_sl ++ cards_ax).flatMap fun c => [0x2008, 0x200C, 0x34, 0x38, 0x1008, 0x2040].map fun o => ((wst mi), .pcie, 5, o, c))

end States10

namespace States11

def gOn := wm [(TB_STATUS.LOCK, 0, 1), (TB_PG_CTRL.EN, 0, 1), (TB_PG_STAT.RUN, 0, 1), (AX_LIM_VMAX.VAL, 3, 77), (CV_ST_VMAX.MANT, 66, 5),
    (CV_BRK.STORE, 66, 1)]

def stg (m : Mach) (x : Nat) (d : Stage) : Mach := { m with stages := [(x, d)] }

def t0 : List (State × Req × Fin 16 × Fin 72 × BitVec 16) :=
  [((wst (stg gOn 3 {})), r0, 0, 3, 9), ((wst (stg gOn 3 {closed := true, locked := true, closedTag := 77})), r0, 0, 3, 9)]

end States11

def premisesMirrorReads (s : State) (r : Req) (x : Fin 72) (off : Nat) (c : Card) : List Bool :=
  [decide (s.m.held = []) && (s.m.houseSupB r && (decide (off < 0x3F80) && (decide (off % 4 = 0)
     && (let o := 0xC000 + off; decide (findCard (cardsOf .sl x.val) (liveOff o) = some c) && (c.staged
     && (decide (SMap.get unmarked (s.m.stage x.val).openW o = none)))))))]

def premisesEmptyCloses (s : State) (r : Req) (g : Fin 16) (x : Fin 72) (_tag : BitVec 16) : List Bool :=
  let d := s.m.stage x.val
  let pre := decide (s.m.held = []) && s.m.houseSupB r
  [pre && (decide (d.openW = []) && (decide (d.closedW = []) && (decide (d.closed = false) && (decide (s.m.mirrorWaits (s.m.who r) x.val = false))))),
   pre && (s.m.pgOn g.val && (decide (x.val ∈ s.m.members g.val) && (d.closed && (d.locked && (decide (d.closedW = [])
     && (decide (s.m.commitFirst g.val (s.m.applyStamp g.val (s.m.group g.val).kA) = false)))))))]

def premisesGuestReadsClearNothing (s : State) (r : Req) (a : Nat) : List Bool :=
  let pre := decide (s.m.held = []) && (s.m.who r).guest && decide ((s.m.who r).user = false) && decide ((s.m.who r).isDebug = false) && decide (s.m.reqWaits r = false) && devAt a 4 && decide (a < 0x35000000)
  [pre && decide (rlPart a = .none),
   pre && decide (rlPart a = .low),
   pre && decide (rlPart a = .high),
   pre]

def premisesArithmeticConditions (s : State) (c : Fin 16) (t : BitVec 64) (u : Bool) : List Bool :=
  let n := s.m.coreIdx c.val
  let k := (s.m.reed n).core
  let a := k.latchReg (bit u)
  let d := k.latchReg 2
  let o := k.latchReg 4
  let ovf (i : Int) : Nat := if i < -(2 ^ 63) ∨ 2 ^ 63 ≤ i then fOVF else 0
  let divz : Nat := if d = 0 then fDIVZ else 0
  let pre := decide (s.m.held = []) && s.m.issuingB n && decide (k.rep = none)
  [pre && (([((), ovf (t.toInt + a.toInt)), ((), ovf (t.toInt - a.toInt)), ((), divz), ((), divz), ((), divz), ((), divz), ((), (fpuOp 1 t o).2), ((),
     (fpuOp 2 t o).2), ((), (fpuOp 3 t o).2), ((), (fpuOp 4 t o).2), ((), (fpuOp 5 t o).2), ((), (fpuOp 6 t o).2), ((), (fpuOp 7 t o).2), ((),
     (fpuOp 8 t o).2), ((), (fpuOp 9 t o).2), ((), (fpuOp 10 t o).2), ((), (fpuOp 11 t o).2), ((),
     (fpuOp 12 t o).2)]).any fun e => let axe := (s.m.inForce n 6).toNat; decide (e.2 &&& axe = 0)),
   pre && (([((), ovf (t.toInt + a.toInt)), ((), ovf (t.toInt - a.toInt)), ((), divz), ((), divz), ((), divz), ((), divz), ((), (fpuOp 1 t o).2), ((),
     (fpuOp 2 t o).2), ((), (fpuOp 3 t o).2), ((), (fpuOp 4 t o).2), ((), (fpuOp 5 t o).2), ((), (fpuOp 6 t o).2), ((), (fpuOp 7 t o).2), ((),
     (fpuOp 8 t o).2), ((), (fpuOp 9 t o).2), ((), (fpuOp 10 t o).2), ((), (fpuOp 11 t o).2), ((),
     (fpuOp 12 t o).2)]).any fun e => let axe := (s.m.inForce n 6).toNat; decide (e.2 &&& axe ≠ 0) && (decide (ST.PA.of (s.m.inForce n 0) = 0))),
   pre && (([((), ovf (t.toInt + a.toInt)), ((), ovf (t.toInt - a.toInt)), ((), divz), ((), divz), ((), divz), ((), divz), ((), (fpuOp 1 t o).2), ((),
     (fpuOp 2 t o).2), ((), (fpuOp 3 t o).2), ((), (fpuOp 4 t o).2), ((), (fpuOp 5 t o).2), ((), (fpuOp 6 t o).2), ((), (fpuOp 7 t o).2), ((),
     (fpuOp 8 t o).2), ((), (fpuOp 9 t o).2), ((), (fpuOp 10 t o).2), ((), (fpuOp 11 t o).2), ((),
     (fpuOp 12 t o).2)]).any fun e => let axe := (s.m.inForce n 6).toNat; decide (e.2 &&& axe ≠ 0) && (decide (ST.PA.of (s.m.inForce n 0) = 1)
     && ((s.m.entryOfVec n (s.m.inGuest n) 10).any fun (handler, pa, sp) => true)))]

theorem witness_GuestReadsClearNothing :
    (∀ p ∈ [(0, 0), (1, 2), (2, 3), (3, 0)], met (States10.t1[p.2]?.map fun (s, r, a) => premisesGuestReadsClearNothing s r a) p.1 = true) := by decide +kernel

theorem witness_MirrorReads :
    (∀ p ∈ [(0, 309)], met (States10.t2[p.2]?.map fun (s, r, x, off, c) => premisesMirrorReads s r x off c) p.1 = true) := by decide +kernel

theorem witness_EmptyCloses :
    (∀ p ∈ [(0, 0), (1, 1)], met (States11.t0[p.2]?.map fun (s, r, g, x, tag) => premisesEmptyCloses s r g x tag) p.1 = true) := by decide +kernel

theorem witness_ArithmeticConditions :
    (∀ p ∈ [(0, 0), (1, 0), (2, 36)], met (States10.t0[p.2]?.map fun (s, c, t, u) => premisesArithmeticConditions s c t u) p.1 = true) := by decide +kernel

/-! ### Premises met: the block as a whole -/

/-- Idle with the clock locked, in holdover, and without a clock; held in reset. -/
theorem witness_IdleAndHeldSteps :
    let m0 := Mach.reset
    let m1 := wm [(SYS_CLK_STAT.HOLD, 0, 1)]
    ((wst lk0).pending = [] ∧ lk0.held = [] ∧ lk0.flg TB_STATUS.LOCK 0 = true) ∧ (m1.held = [] ∧ m1.flg SYS_CLK_STAT.HOLD 0 = true) ∧
    (m0.held = [] ∧ m0.flg TB_STATUS.LOCK 0 = false ∧ m0.flg SYS_CLK_STAT.HOLD 0 = false) ∧
    (({ m0 with held := [1] } : Mach).held ≠ [] ∧ passesReset (.gtCmdShut r0 3) = false) := by decide +kernel

theorem witness_WaitingCommandsStayWellFormed :
    let s := { wst lk0 with pending := [.gtCmdShut r0 3, .registerWrite r0 0x30000008 false 5] }
    (s.pending.all Instr.wf && (after (step s)).isSome) = true := by decide +kernel

theorem witness_MemoriesStayCanonical :
    let m := lk0.poke 0x10000000 [1, 0, 2]
    Memory.wf m.mem = true ∧ Memory.wf m.flash = true ∧ Memory.wf m.host = true ∧ Memory.wf m.ret = true ∧
    (after (step (wst m))).isSome = true := by decide +kernel

theorem witness_RegistersStayCanonical : lk0.RegsWf ∧ (after (step (wst lk0))).isSome = true :=
  ⟨Mach.regsWf_setFld Mach.reset TB_STATUS.LOCK 0 1 ⟨by decide, fun _ => rfl, rfl⟩, by decide +kernel⟩

/-- A pair whose loader has its image of 32 bytes in SRAM and the hash `h` latched. -/
def loaderAt (h : List Byte) : Mach :=
  ((wm [(SYS_PAIR_STAT.MODE, 3, 0)]).poke 0x10000000 (List.replicate 32 5#8)).setPair 3
    { loading := true, pfw := 0x10000000, pfwSt := 2, hash := h }

theorem loaderAt_ready (h : List Byte) :
    let m := loaderAt h
    let d := m.pair 3
    m.held = [] ∧ d.loading = true ∧ d.pfw = 0x10000000 ∧ d.pfwSt = 2 ∧ d.hash = h ∧ m.GoodCode 0x10000000 32 ∧
    m.bufKey 0x10000000 32 = some 0x10000000 ∧ m.safePair 3 = true ∧ m.peek 0x10000000 32 = List.replicate 32 5#8 :=
  ⟨rfl, rfl, rfl, rfl, rfl,
    Mach.goodCode_of_goodCodeB ((rfl : (loaderAt h).goodCodeB 0x10000000 32 = (loaderAt []).goodCodeB 0x10000000 32).trans (by decide +kernel : (loaderAt []).goodCodeB 0x10000000 32 = true)),
    (rfl : (loaderAt h).bufKey 0x10000000 32 = (loaderAt []).bufKey 0x10000000 32).trans
      (by decide +kernel : (loaderAt []).bufKey 0x10000000 32 = some 0x10000000),
    (rfl : (loaderAt h).safePair 3 = (loaderAt []).safePair 3).trans
      (by decide +kernel : (loaderAt []).safePair 3 = true),
    (rfl : (loaderAt h).peek 0x10000000 32 = (loaderAt []).peek 0x10000000 32).trans
      (by decide +kernel : (loaderAt []).peek 0x10000000 32 = List.replicate 32 5#8)⟩

/-- The premises of a pair loader's end are met with the hash that matches and with one that does not. -/
theorem witness_PairLoaderHashes :
    (∃ h, Config.sha384 ((loaderAt h).peek 0x10000000 32) = ((loaderAt h).pair 3).hash) ∧
    (∃ h, Config.sha384 ((loaderAt h).peek 0x10000000 32) ≠ ((loaderAt h).pair 3).hash) := by
  let b : List Byte := List.replicate 32 5#8
  refine ⟨⟨Config.sha384 b, ?_⟩, ⟨0 :: Config.sha384 b, ?_⟩⟩
  · rw [(loaderAt_ready _).2.2.2.2.2.2.2.2, (loaderAt_ready _).2.2.2.2.1]
  · rw [(loaderAt_ready _).2.2.2.2.2.2.2.2, (loaderAt_ready _).2.2.2.2.1]
    exact fun h => List.cons_ne_self _ _ h.symm

end Sys2Proof.Tests
end

namespace Sys2Proof.Machine

/-! ### Mirror reads (R45) -/

/-- No card stands at an offset that all of a list's cards lie below or above. -/
theorem findCard_eq_none_of_gap (cs : List Card) {lo hi o : Nat}
    (h : ∀ c ∈ cs, (c.off < lo ∧ c.off + c.n * c.stride ≤ lo) ∨ hi ≤ c.off) (hlo : lo ≤ o) (hhi : o < hi) :
    findCard cs o = none := by
  induction cs with
  | nil => rfl
  | cons c cs ih =>
    have hc := h c List.mem_cons_self
    have hne : ¬ (c.off ≤ o ∧ (if c.n = 1 then o = c.off else o < c.off + c.n * c.stride ∧ (o - c.off) % c.stride = 0)) := by
      split <;> omega
    rw [findCard, if_neg hne]
    exact ih fun d hd => h d (List.mem_cons_of_mem _ hd)

/-- A slice block has the common words and those of its kind. -/
theorem cardsOf_sl (x : Nat) : cardsOf .sl x = cards_sl ++ cards_ax ∨ cardsOf .sl x = cards_sl ++ cards_cv := by
  by_cases hx : x < 64 <;> simp [cardsOf, hx]

/-- The mirror window has no words of its own: every card of a slice block lies below it or above it. -/
theorem findCard_mirror (x : Nat) {o : Nat} (hlo : 0xC000 ≤ o) (hhi : o < 0xFF80) : findCard (cardsOf .sl x) o = none := by
  refine findCard_eq_none_of_gap _ ?_ hlo hhi
  rcases cardsOf_sl x with h | h <;> rw [h] <;> decide +kernel

theorem cardAt_mirror {x o : Nat} (hx : x < 72) (hlo : 0xC000 ≤ o) (hhi : o < 0xFF80) : cardAt (Blk.base .sl x + o) = none := by
  rw [cardAt, blkOf_sl x o hx (by omega)]
  simp only [Nat.add_sub_cancel_left]
  exact findCard_mirror x hlo hhi

theorem Mach.readReg_mirror (m : Mach) {x o : Nat} (hx : x < 72) (hlo : 0xC000 ≤ o) (hhi : o < 0xFF80) :
    m.readReg (Blk.base .sl x + o) = m.mirrorGet x o := by
  rw [Mach.readReg, blkOf_sl x o hx (by omega)]
  simp [hlo, hhi]

/-- A House supervisor's read of a mirror word has no effect but its answer. -/
theorem Mach.readBy_mirror (m : Mach) {r : Req} {x o : Nat} (hr : m.HouseSup r) (hx : x < 72) (hlo : 0xC000 ≤ o) (hhi : o < 0xFF80)
    (h4 : o % 4 = 0) : m.readBy r (Blk.base .sl x + o) 4 = { m with resp := .data ((m.mirrorGet x o).setWidth 64) } := by
  have hb : Blk.base .sl x = 0x30000000 + 0x10000 * x := rfl
  have hdev : devAt (Blk.base .sl x + o) 4 = true :=
    devAt_of_blk (blkOf_sl x o hx (by omega)) (by omega) (by omega) (by omega)
  have hcard := cardAt_mirror hx hlo hhi
  rw [m.readBy_house r _ 4 hr hdev]
  simp [Mach.readDev, Mach.readWord, rlPart, Mach.clearRc, hcard, m.readReg_mirror hx hlo hhi]

theorem Mach.mirrorGet_of_marked (m : Mach) {x o : Nat} {w : W32} (h : SMap.get unmarked (m.stage x).openW o = some w) :
    m.mirrorGet x o = w := by simp [Mach.mirrorGet, h]

theorem Mach.mirrorGet_of_unmarked (m : Mach) {x o : Nat} {c : Card} (h : SMap.get unmarked (m.stage x).openW o = none)
    (hc : findCard (cardsOf .sl x) (liveOff o) = some c) (hs : c.staged = true) :
    m.mirrorGet x o = m.rg (Blk.base .sl x + liveOff o) := by simp [Mach.mirrorGet, h, hc, hs]

/-- Settles O11: the mirror window has no card, so the read clears and latches nothing, and the word it answers is `Mach.mirrorGet`. -/
theorem mirrorReads : Obligations.MirrorReads := by
  unfold Obligations.MirrorReads
  intro s r x off c hheld hr hoff h4 o hc hs
  have hread : s.m.readBy r (Blk.base .sl x.val + o) 4 = { s.m with resp := .data ((s.m.mirrorGet x.val o).setWidth 64) } :=
    s.m.readBy_mirror hr x.isLt (by omega) (by omega) (by omega)
  refine State.completes_of_act (f := fun m => m.readBy r (Blk.base .sl x.val + o) 4) hheld rfl ⟨fun w hw => ?_, fun hn => ?_⟩
  · rw [hread, s.m.mirrorGet_of_marked hw]
  · rw [hread, s.m.mirrorGet_of_unmarked hn hc hs]

end Sys2Proof.Machine

namespace Sys2Proof.Machine

/-! ### What the Tapster's shared operations keep of its record -/

@[simp] theorem Mach.reportUe_tap (m : Mach) (mem core addr src kind : Nat) (p : Bool) : (m.reportUe mem core addr src kind p).tap = m.tap := by
  unfold Mach.reportUe
  cases ueField mem <;> simp

@[simp] theorem Mach.reportUeKey_tap (m : Mach) (k src kind : Nat) (p : Bool) : (m.reportUeKey k src kind p).tap = m.tap := by
  simp [Mach.reportUeKey]

@[simp] theorem Mach.countCe_tap (m : Mach) (k : Nat) : (m.countCe k).tap = m.tap := by
  unfold Mach.countCe
  simp only
  split <;> simp

@[simp] theorem Mach.checkWords_tap (m : Mach) (src w n : Nat) : (m.checkWords src w n).2.tap = m.tap := by
  induction n generalizing m w with
  | zero => rfl
  | succ n ih =>
    rw [Mach.checkWords]
    split <;> simp [ih]

@[simp] theorem Mach.load_tap (m : Mach) (src k n : Nat) : (m.load src k n).2.tap = m.tap := by simp [Mach.load]

@[simp] theorem Mach.storeCode_tap (m : Mach) (src k l w n : Nat) : (m.storeCode src k l w n).2.tap = m.tap := by
  induction n generalizing m w with
  | zero => rfl
  | succ n ih =>
    rw [Mach.storeCode]
    split
    · exact ih ..
    · split <;> simp [ih]
    · split <;> simp [ih]

@[simp] theorem Mach.store_tap (m : Mach) (src k : Nat) (bs : List Byte) : (m.store src k bs).2.tap = m.tap := by
  cases bs <;> simp [Mach.store]

@[simp] theorem Mach.qWrite_tap (m : Mach) (q a : Nat) (bs : List Byte) : (m.qWrite q a bs).tap = m.tap := by
  unfold Mach.qWrite
  split
  · split <;> rfl
  · split <;> simp

@[simp] theorem Mach.writeBack_tap (m : Mach) (q : Nat) : (m.writeBack q).tap = m.tap := by
  unfold Mach.writeBack
  split <;> simp

@[simp] theorem Mach.portEntries_tap (m : Mach) (q i n : Nat) : (m.portEntries q i n).2.tap = m.tap := by
  induction n generalizing m i with
  | zero => rfl
  | succ n ih =>
    rw [Mach.portEntries]
    split
    · simp [ih]
    · rename_i k _
      have hload := m.load_tap srcPorts k 32
      split <;> simp_all

@[simp] theorem Mach.tunnelSend_tap (m : Mach) (q : Nat) : (m.tunnelSend q).tap = m.tap := by
  unfold Mach.tunnelSend
  split <;> simp

@[simp] theorem Mach.notifyAgent_tap (m : Mach) (q : Nat) : (m.notifyAgent q).tap = m.tap := by
  unfold Mach.notifyAgent Mach.queueEvent
  simp only
  repeat' split
  all_goals simp

@[simp] theorem Mach.countEntries_tap (m : Mach) (q n : Nat) : (m.countEntries q n).tap = m.tap := by
  unfold Mach.countEntries Mach.notify
  simp only
  repeat' split
  all_goals simp

@[simp] theorem Mach.append_tap (m : Mach) (q : Nat) (bs : List Byte) : (m.append q bs).tap = m.tap := by
  simp [Mach.append, Mach.setIdx]

@[simp] theorem Mach.tapShow_tap (m : Mach) : m.tapShow.tap = m.tap := by simp [Mach.tapShow]

@[simp] theorem Mach.replyTo_ctxs (m : Mach) (q : Nat) (bs : List Byte) : (m.replyTo q bs).tap.ctxs = m.tap.ctxs := by
  unfold Mach.replyTo Mach.replyDrop Mach.replyAppend
  simp only
  repeat' split
  all_goals simp

/-! ### The Tapster's contexts leave a trace

A step on a context keeps it or ends with `Mach.setCtx`, which shows the versions of the banks in TAP_MC_VER. So a state without contexts whose
TAP_MC_VER shows a version no bank holds is one that no context was stepped to. -/

/-- Contexts are in flight, or TAP_MC_VER.ACT may stand as `Mach.tapShow` leaves it. -/
def Mach.Shown (m : Mach) : Prop := m.tap.ctxs = [] → m.tap.banks = [] → m.fld TAP_MC_VER.ACT 0 = 0

theorem SMap.put_ne_nil {α : Type} (m : SMap α) (k : Nat) (v : α) : SMap.put m k v ≠ [] := by
  cases m with
  | nil => simp [SMap.put]
  | cons e m =>
    rw [SMap.put]
    split
    · simp
    · split <;> simp

theorem Mach.shown_of_ctxs {m : Mach} (h : m.tap.ctxs ≠ []) : m.Shown := fun hc => absurd hc h

theorem Mach.shown_of_ctx {m : Mach} {i : Nat} {c : Ctx} (h : m.ctx i = some c) : m.Shown :=
  Mach.shown_of_ctxs fun hc => by simp [Mach.ctx, hc] at h

theorem Mach.shown_tapShow (m : Mach) : m.tapShow.Shown := by
  intro _ hb
  rw [m.tapShow_tap] at hb
  unfold Mach.tapShow
  simp only
  rw [Mach.fld_setFld_disjoint _ TAP_MC_VER.INACT TAP_MC_VER.ACT _ _ _ (by decide) (by decide) (by decide) (by decide) rfl (by decide),
    Mach.fld_setFld_self _ _ _ _ (by decide) (by decide)]
  simp [Mach.mbank, hb, noBank]

@[simp] theorem Mach.shown_setCtx (m : Mach) (i : Nat) (c : Option Ctx) : (m.setCtx i c).Shown := Mach.shown_tapShow _

@[simp] theorem Mach.setCtx_some_ctxs (m : Mach) (i : Nat) (c : Ctx) : (m.setCtx i (some c)).tap.ctxs ≠ [] := by
  simp [Mach.setCtx, SMap.set, SMap.put_ne_nil]

@[simp] theorem Mach.shown_readyCtx (m : Mach) (i : Nat) (c : Ctx) (x : Bool) (v : Nat) (s : Stamp) : (m.readyCtx i c x v s).Shown :=
  m.shown_setCtx _ _

theorem Mach.shown_accept {m : Mach} (h : m.Shown) (i : Nat) : (m.accept i).Shown := by
  unfold Mach.accept
  split
  · exact h
  · split
    · exact h
    · refine Mach.shown_of_ctxs ?_
      dsimp only
      split <;> simp

theorem Mach.shown_finish {m : Mach} (h : m.Shown) (i st d : Nat) (res : List Byte) : (m.finish i st d res).Shown := by
  unfold Mach.finish
  split
  · exact h
  · split
    · exact h
    · exact Mach.shown_setCtx _ _ _

theorem Mach.shown_done {m : Mach} (h : m.Shown) (i : Nat) (res : List Byte) : (m.done i res).Shown :=
  Mach.shown_finish (Mach.shown_accept h i) i 0 0 res

theorem Mach.shown_offEnds {m : Mach} (h : m.Shown) (i : Nat) (t : Stamp) : (m.offEnds i t).Shown := Mach.shown_finish h _ _ _ _

theorem Mach.shown_moveCommit {m : Mach} (h : m.Shown) (i : Nat) (c : Ctx) (t : Stamp) : (m.moveCommit i c t).Shown := by
  unfold Mach.moveCommit
  simp only
  repeat' split
  all_goals simp [h, Mach.shown_offEnds, Mach.shown_finish]

theorem Mach.shown_streamCommit {m : Mach} (h : m.Shown) (i : Nat) (c : Ctx) : (m.streamCommit i c).Shown := by
  unfold Mach.streamCommit
  simp only
  repeat' split
  all_goals simp [h, Mach.shown_offEnds, Mach.shown_finish]

theorem Mach.shown_routineEvent {m : Mach} (h : m.Shown) (i : Nat) (c : Ctx) (kind inst v : Nat) (t : Stamp) :
    (m.routineEvent i c kind inst v t).Shown := by
  unfold Mach.routineEvent
  simp only
  repeat' split
  all_goals simp [h, Mach.shown_moveCommit, Mach.shown_streamCommit, Mach.shown_finish]

theorem Mach.shown_microEvent {m : Mach} (h : m.Shown) (i : Nat) (c : Ctx) (kind inst v : Nat) (t : Stamp) :
    (m.microEvent i c kind inst v t).Shown := by
  unfold Mach.microEvent
  simp only
  repeat' split
  all_goals simp [h]

theorem Mach.shown_microPoll {m : Mach} (h : m.Shown) (i : Nat) (c : Ctx) : (m.microPoll i c).Shown := by
  unfold Mach.microPoll
  simp only
  repeat' split
  all_goals simp [h]

theorem Mach.shown_routineApplied (m : Mach) (i : Nat) (c : Ctx) : (m.routineApplied i c).Shown := by
  unfold Mach.routineApplied
  simp only
  repeat' split
  all_goals simp [Mach.shown_done, Mach.shown_accept, Mach.shown_offEnds, Mach.shown_finish]

theorem Mach.shown_routinePoll {m : Mach} (h : m.Shown) (i : Nat) (c : Ctx) : (m.routinePoll i c).Shown := by
  unfold Mach.routinePoll
  simp only
  repeat' split
  all_goals simp [h, Mach.shown_routineApplied, Mach.shown_offEnds, Mach.shown_finish]

/-- A walk through the contexts keeps a state shown if its step does. -/
theorem Mach.shown_eachCtx {m : Mach} {f : Mach → Nat → Ctx → Mach} (hf : ∀ m i c, m.Shown → (f m i c).Shown) (h : m.Shown) :
    (m.eachCtx f).Shown := by
  unfold Mach.eachCtx
  refine List.foldlRecOn (motive := Mach.Shown) _ _ h fun m hm e _ => ?_
  repeat' split
  all_goals simp [hm, hf]

/-- A swap that goes on has INIT in flight. -/
theorem Mach.swapTry_ctxs (m : Mach) : m.swapTry = m ∨ m.swapTry.tap.ctxs ≠ [] := by
  unfold Mach.swapTry Mach.initStart
  split
  · exact .inl rfl
  · exact .inr (Mach.setCtx_some_ctxs _ _ _)

theorem Mach.foldl_eachCtx_nil {β : Type} (m : Mach) (h : m.tap.ctxs = []) (g : β → Mach → Mach → Nat → Ctx → Mach) (l : List β) :
    l.foldl (fun m e => m.eachCtx (g e m)) m = m := List.foldl_fixed' (fun e => m.eachCtx_nil (g e m) h) l

/-- What the Tapster sees after a command either shows or leaves words, cores and debug unit alone. -/
theorem Mach.tapSettle_shown_or (m : Mach) : m.tapSettle.Shown ∨
    (m.tapSettle.regs = m.regs ∧ m.tapSettle.reeds = m.reeds ∧ m.tapSettle.dbg = m.dbg) := by
  unfold Mach.tapSettle
  split
  · exact .inr ⟨rfl, rfl, rfl⟩
  · by_cases hc : m.swapTry.tap.ctxs = []
    · have hs : m.swapTry = m := m.swapTry_ctxs.resolve_right (not_not.mpr hc)
      rw [hs] at hc ⊢
      exact .inr (by simp [Mach.foldl_eachCtx_nil, Mach.eachCtx_nil, hc])
    · refine .inl (Mach.shown_eachCtx (fun m i c hm => ?_) (List.foldlRecOn (motive := Mach.Shown) _ _ (Mach.shown_of_ctxs hc) fun m hm e _ =>
        Mach.shown_eachCtx (fun m i c hm => ?_) hm))
      · repeat' split
        all_goals simp [hm, Mach.shown_microPoll, Mach.shown_routinePoll]
      · repeat' split
        all_goals simp [hm, Mach.shown_microEvent, Mach.shown_routineEvent]

/-! ### A fed bundle and a step leave a trace -/

theorem Mach.readParts_ne_wait (m : Mach) (c : Nat) (hs : List (Nat × Nat)) : (m.readParts c hs).1 ≠ .wait := by
  induction hs generalizing m with
  | nil => simp [Mach.readParts]
  | cons h hs ih =>
    rw [Mach.readParts]
    split
    · simp
    · split
      · simp
      · rename_i m' _
        have := ih m'
        split
        · simp
        · assumption

/-- A load that waits has no effect. -/
theorem Mach.coreLoad_wait {m m' : Mach} {c : Nat} {w : Who} {a n : Nat} (h : m.coreLoad c w a n = (.wait, m')) : m' = m := by
  have hp := m.readParts_ne_wait c (halves a n)
  unfold Mach.coreLoad at h
  simp only at h
  repeat' split at h
  all_goals simp_all

theorem Mach.runLsu_wait {m m' : Mach} {c : Nat} {k : Core} {ms : List (Nat × W64)} {o : Option W64} (h : m.runLsu c k ms = (.wait, o, m')) :
    m' = m := by
  unfold Mach.runLsu at h
  simp only at h
  repeat' split at h
  all_goals simp at h
  rename_i g m₁ _ hload
  obtain ⟨rfl, -, rfl⟩ := h
  exact Mach.coreLoad_wait hload

/-- A bundle that waits touches at most the record of its core. -/
theorem Mach.runBundle_waits {m m' : Mach} {c bits : Nat} {fed : Bool} (h : m.runBundle c bits fed = (.waits, m')) : m'.dbg = m.dbg := by
  unfold Mach.runBundle at h
  extract_lets k ms k1 at h
  split at h
  · cases h
  iterate 3
    rcases ite_eq_iff.mp h with ⟨-, h⟩ | ⟨-, h⟩
    · cases h
  split at h
  split at h
  rename_i ef m₁ hef
  split at h
  · cases h
  · rename_i hfaults
    have hm : m₁ = m := by
      obtain ⟨-, rfl⟩ := List.append_eq_nil_iff.mp hfaults
      rcases ite_eq_iff.mp hef with ⟨-, hef⟩ | ⟨-, hef⟩
      · cases hef; rfl
      · split at hef <;> cases hef
        rfl
    subst hm
    rcases ite_eq_iff.mp h with ⟨-, h⟩ | ⟨-, h⟩
    · cases h
    rcases ite_eq_iff.mp h with ⟨-, h⟩ | ⟨-, h⟩
    · cases h; rfl
    split at h
    · rename_i hlsu
      cases h
      rw [Mach.runLsu_wait hlsu]
    · cases h
    · cases h

/-- A fed bundle either leaves words and cores alone, or is marked done or refused, or still waits to run. -/
theorem Mach.feedRun_trace {m m' : Mach} (h : m.feedRun 0 = m') :
    (m'.regs = m.regs ∧ m'.reeds = m.reeds) ∨ m'.flg DBG_FEED_ST.DONE 0 = true ∨ m'.flg DBG_FEED_ST.REFUSED 0 = true ∨
      m'.dbg.feed = m.dbg.feed := by
  unfold Mach.feedRun at h
  extract_lets quit at h
  split at h
  · subst h
    exact .inl ⟨rfl, rfl⟩
  · rename_i c0 cs _
    have hdraw : (if cs.isEmpty = true then (0, m) else m.draw).2.dbg = m.dbg := by split <;> rfl
    split at h
    rename_i i m₁ hi
    rw [hi] at hdraw
    extract_lets c word bits k ms refused m₂ at h
    rcases ite_eq_iff.mp h with ⟨-, h⟩ | ⟨-, h⟩
    · subst h
      exact .inr (.inr (.inl (Mach.flg_raise_self _ _ _ rfl (by decide))))
    simp only [Nat.reduceEqDiff, decide_false, Bool.false_and, Bool.false_eq_true, if_false, ne_eq, not_true_eq_false] at h
    split at h
    · rename_i hrun
      subst h
      refine .inr (.inr (.inr ?_))
      rw [Mach.runBundle_waits hrun, ← hdraw]
      rfl
    · subst h
      refine .inr (.inl ?_)
      rw [Mach.flg, Mach.fld_setFld_disjoint _ DBG_FEED_ST.VEC DBG_FEED_ST.DONE _ _ _ (by decide) (by decide) (by decide) (by decide) rfl (by decide)]
      exact Mach.flg_raise_self _ _ _ rfl (by decide)
    · subst h
      exact .inr (.inl (Mach.flg_raise_self _ _ _ rfl (by decide)))

/-- Core `c` is halted or a halt is asked of it. -/
def Mach.HaltShows (m : Mach) (c : Nat) : Prop := m.coreHalted c = true ∨ (m.reed c).haltReq ≠ none

theorem Mach.HaltShows.congr {m m' : Mach} {c : Nat} (h : m.HaltShows c) (hr : m.regs = m'.regs) (hc : m.reeds = m'.reeds) :
    m'.HaltShows c := by
  rwa [Mach.HaltShows, Mach.coreHalted, Mach.flg_congr hr.symm, Mach.reed, ← hc]

theorem Mach.coreHalted_setFld (m : Mach) (f : Fld) (i v c : Nat) (hf : f.hi < 32) (h : f.addr i ≠ 0x110000000 + 4 * c) :
    (m.setFld f i v).coreHalted c = m.coreHalted c := by
  have ha : (DBG_CSTAT.HALTED.sh (4 * c)).addr 0 = 0x110000000 + 4 * c := by simp [Fld.addr, Blk.base]
  simp only [Mach.coreHalted, Mach.flg]
  rw [Mach.fld_setFld_ne m f _ i 0 v hf (by simp) (by omega)]

theorem Mach.coreHalted_setPState (m : Mach) (c v : Nat) : (m.setPState (c / 2) v).coreHalted c = m.coreHalted c :=
  m.coreHalted_setFld _ _ _ _ (by decide) (by simp only [Fld.addr, Blk.base]; omega)

/-- A watchdog's flag stands below the words of the halts. -/
theorem Mach.coreHalted_setWdFld (m : Mach) (p d : Fld) (w v c : Nat) (hp : p.blk = .sup ∧ p.hi < 32 ∧ p.off < 0x1000)
    (hd : d.blk = .sup ∧ d.hi < 32 ∧ d.off < 0x1000) : (m.setFld (wdFld p d w) 0 v).coreHalted c = m.coreHalted c := by
  obtain ⟨hpb, hph, hpo⟩ := hp
  obtain ⟨hdb, hdh, hdo⟩ := hd
  refine m.coreHalted_setFld _ _ _ _ ?_ ?_
  · unfold wdFld; split <;> assumption
  · unfold wdFld Fld.addr; split <;> simp only [hpb, hdb, Blk.base] <;> omega

theorem Mach.coreHalted_wdFreeze (m : Mach) (w c : Nat) : (m.wdFreeze w).coreHalted c = m.coreHalted c := by
  unfold Mach.wdFreeze
  split
  · rfl
  · simp only
    rw [Mach.coreHalted_setWdFld _ _ _ _ _ _ (by decide) (by decide), Mach.coreHalted_setWdFld _ _ _ _ _ _ (by decide) (by decide)]
    rfl

theorem Mach.coreHalted_wdThaw (m : Mach) (w c : Nat) : (m.wdThaw w).coreHalted c = m.coreHalted c := by
  unfold Mach.wdThaw Mach.wdStart
  split
  · rfl
  · rw [Mach.coreHalted_setWdFld _ _ _ _ _ _ (by decide) (by decide), Mach.coreHalted_setWdFld _ _ _ _ _ _ (by decide) (by decide),
      Mach.coreHalted_setWdFld _ _ _ _ _ _ (by decide) (by decide)]
    rfl

theorem Mach.coreHalted_dwdFollow (m : Mach) (c : Nat) : m.dwdFollow.coreHalted c = m.coreHalted c := by
  unfold Mach.dwdFollow
  split
  · rfl
  · split
    · exact m.coreHalted_wdFreeze 8 c
    · exact m.coreHalted_wdThaw 8 c

/-- One core's word as a halt writes it. -/
theorem Mach.coreHalted_setHalted (m : Mach) (n why : Nat) :
    ((m.setFlg (DBG_CSTAT.HALTED.sh (4 * n)) 0 true).setFld (DBG_CSTAT.WHY.sh (4 * n)) 0 why).coreHalted n = true := by
  rw [Mach.coreHalted, Mach.flg,
    Mach.fld_setFld_disjoint _ (DBG_CSTAT.WHY.sh (4 * n)) (DBG_CSTAT.HALTED.sh (4 * n)) 0 0 _ (by simp) (by simp) (by simp) (by simp) rfl (by simp)]
  exact Mach.flg_setFlg_self _ _ _ _ rfl (by simp)

theorem Mach.coreHalted_setCstat (m : Mach) (c why : Nat) : (m.setCstat c true why).coreHalted c = true := by
  unfold Mach.setCstat
  split
  · simp only [List.foldl_cons, List.foldl_nil]
    rw [Mach.coreHalted_setFld _ _ _ _ _ (by simp) (by simp [Fld.addr, Blk.base]), Mach.setFlg,
      Mach.coreHalted_setFld _ _ _ _ _ (by simp) (by simp [Fld.addr, Blk.base])]
    exact Mach.coreHalted_setHalted m c why
  · exact Mach.coreHalted_setHalted m c why

theorem Mach.haltTry_shows (m : Mach) (c : Nat) (h : (m.reed c).haltReq ≠ none) : (m.haltTry c).HaltShows c := by
  unfold Mach.haltTry
  extract_lets p r
  split
  · exact .inr h
  · split
    · exact .inr h
    · refine .inl ?_
      extract_lets mHalt mState mDogs
      have hHalt : mHalt.coreHalted c = true := by simp only [mHalt, Mach.coreHalted_setCstat]
      have hState : mState.coreHalted c = true := by rw [← hHalt]; exact mHalt.coreHalted_setPState c 3
      have hDogs : mDogs.coreHalted c = true := by
        rw [← hState]
        unfold mDogs
        split
        · exact mState.coreHalted_wdFreeze p c
        · rfl
      split
      · rw [Mach.coreHalted_dwdFollow]
        exact hDogs
      · exact hHalt

theorem Mach.haltAsk_shows (m : Mach) (c why : Nat) (link : Bool) : (m.haltAsk c why link).HaltShows c := by
  unfold Mach.haltAsk
  extract_lets r
  split
  · exact .inl ‹_›
  · exact Mach.haltTry_shows _ c (by simp [Mach.reed, Mach.setReed])

/-- A step of a core that was not halted has no effect; of one that was, the core is halted after it or is to halt. -/
theorem Mach.stepRun_trace (m : Mach) (c : Nat) : m.stepRun c = { m with dbg := { m.dbg with step := none } } ∨ (m.stepRun c).HaltShows c := by
  unfold Mach.stepRun
  extract_lets m₁
  split
  · exact .inl rfl
  · exact .inr (Mach.haltAsk_shows _ c 4 true)

/-! ### States that only commands without a sequel reach -/

/-- No trace of a step, a fed bundle or a context that was stepped to is left in this state. -/
structure Mach.Untraced (m : Mach) : Prop where
  halts : ∀ c, ¬ m.HaltShows c
  feed : m.dbg.feed = false
  done : m.flg DBG_FEED_ST.DONE 0 = false
  refused : m.flg DBG_FEED_ST.REFUSED 0 = false
  shown : ¬ m.Shown

/-- A state without traces has its register words from the effect of the command itself. -/
theorem Mach.regs_eq_of_settle {m t : Mach} (h : m.settle 0 = t) (ht : t.Untraced) : m.regs = t.regs := by
  unfold Mach.settle at h
  rcases ite_eq_iff.mp h with ⟨-, h⟩ | ⟨-, h⟩
  · rw [h]
  extract_lets m₁ at h
  have hstep : m₁.reeds = t.reeds → m₁.regs = t.regs → m.regs = t.regs := by
    unfold m₁
    split
    · rename_i c _
      intro hc hr
      rcases m.stepRun_trace c with hs | hs
      · rw [hs] at hr
        exact hr
      · exact absurd (hs.congr hr hc) (ht.halts c)
    · exact fun _ hr => hr
  obtain ⟨hr, hc, hd⟩ := (Mach.tapSettle_shown_or _).resolve_left fun hs => ht.shown (h ▸ hs)
  rw [h] at hr hc hd
  by_cases hfeed : m₁.dbg.feed = true
  · rw [if_pos hfeed] at hr hc hd
    rcases Mach.feedRun_trace (m := m₁) rfl with ⟨hr1, hc1⟩ | hdone | href | hf
    · exact hstep (hc1.symm.trans hc.symm) (hr1.symm.trans hr.symm)
    · exact absurd ((Mach.flg_congr hr _ _).trans hdone) (by simp [ht.done])
    · exact absurd ((Mach.flg_congr hr _ _).trans href) (by simp [ht.refused])
    · rw [← hd, ht.feed, hfeed] at hf
      cases hf
  · rw [if_neg hfeed] at hr hc
    exact hstep hc.symm hr.symm

/-! ### A mark past the mirror (R46) -/

theorem findCard_mem {cs : List Card} {o : Nat} {c : Card} (h : findCard cs o = some c) : c ∈ cs := by
  induction cs with
  | nil => cases h
  | cons d cs ih =>
    rw [findCard] at h
    rcases ite_eq_iff.mp h with ⟨-, h⟩ | ⟨-, h⟩
    · cases h
      exact List.mem_cons_self
    · exact List.mem_cons_of_mem _ (ih h)

theorem blkOf_of_dbgc {a : Nat} (h : 0x110000000 ≤ a) : blkOf a = none ∨ blkOf a = some (.dbgc, 0) := by
  unfold blkOf
  repeat rw [if_neg (by omega)]
  exact (ite_eq_or_eq _ _ _).symm

theorem resetWord_of_cards {a : Nat} {b : Blk} {i : Nat} (hblk : blkOf a = some (b, i)) (hb : b = .dbgc) (hrst : ∀ c ∈ cardsOf b i, c.rst = 0) :
    resetWord a = 0 := by
  simp only [resetWord, hblk]
  split
  case h_7 =>
    split
    · rfl
    · next c hc => exact hrst c (findCard_mem hc)
  all_goals cases hb

/-- The words from DBG_CSTAT_0 on reset to 0. -/
theorem resetWord_of_dbgc {a : Nat} (h : 0x110000000 ≤ a) : resetWord a = 0 := by
  rcases blkOf_of_dbgc h with hblk | hblk
  · rw [resetWord, hblk]
  · exact resetWord_of_cards hblk rfl (by decide)

theorem SMap.get_of_keys_lt {α : Type} (d : Nat → α) (m : SMap α) {k : Nat} (h : ∀ e ∈ m, e.1 < k) : SMap.get d m k = d k := by
  induction m with
  | nil => rfl
  | cons e m ih =>
    have he : k ≠ e.1 := (h e List.mem_cons_self).ne'
    rw [SMap.get, if_neg he]
    exact ih fun f hf => h f (List.mem_cons_of_mem _ hf)

/-- With no word at DBG_CSTAT and no core's record changed, no halt shows. -/
theorem Mach.not_haltShows {m : Mach} (hr : ∀ e ∈ m.regs, e.1 < 0x110000000) (hc : m.reeds = []) (c : Nat) : ¬ m.HaltShows c := by
  have hword : m.rg ((DBG_CSTAT.HALTED.sh (4 * c)).addr 0) = 0 := by
    have ha : 0x110000000 ≤ (DBG_CSTAT.HALTED.sh (4 * c)).addr 0 := by simp [Fld.addr, Blk.base]
    rw [Mach.rg, SMap.get_of_keys_lt _ _ fun e he => (hr e he).trans_le ha, resetWord_of_dbgc ha]
  simp [Mach.HaltShows, Mach.coreHalted, Mach.flg, Mach.fld, hword, bitsOf, Mach.reed, hc]

/-- Slices 0 and 1 in the running group 1, both closed and locked. The closed buffer of slice 1 is empty; that of slice 0 marks 0x18004, past
the end of its mirror, whose live offset 0x10004 is AX_CHAIN of slice 1. -/
def strayMark : Mach :=
  { (((Mach.reset.setFld TB_PG_CTRL.EN 1 1).setFld AX_CTRL.PG 0 1).setFld AX_CTRL.PG 1 1).setFld TAP_MC_VER.ACT 0 1 with
    stages := [(0, { closedW := [(0x18004, some 1)], closed := true, locked := true }), (1, { closed := true, locked := true })]
    groups := [(1, { kA := 1 })] }

theorem strayMark_applies : strayMark.pgOn 1 = true ∧ 1 ∈ strayMark.members 1 ∧
    strayMark.commitFirst 1 (strayMark.applyStamp 1 (strayMark.group 1).kA) = false := by decide +kernel

/-- The fence writes AX_CHAIN of slice 1. -/
theorem strayMark_writes : strayMark.rg (Blk.base .sl 1 + 4) = 0 ∧ (strayMark.applyFence 1).rg (Blk.base .sl 1 + 4) = 1 := by decide +kernel

theorem strayMark_quiet : (strayMark.applyFence 1).Quiet := by
  unfold Mach.Quiet
  decide +kernel

theorem strayMark_untraced : (strayMark.applyFence 1).Untraced where
  halts := Mach.not_haltShows (by decide +kernel) (by decide +kernel)
  feed := by decide +kernel
  done := by decide +kernel
  refused := by decide +kernel
  shown := by
    unfold Mach.Shown
    decide +kernel

theorem strayMark_held : strayMark.held = [] := rfl

/-- The state of which a row's completion speaks settles to the same state as the one the row makes. -/
theorem State.settle_eq_of_completes {s : State} {c : Instr} {f : Mach → Mach} {P : Mach → Prop} (h : s.m.held = []) (he : exec c s = s.act f)
    (hc : s.Completes c P) : ∃ m, (f s.m).settle 0 = m.settle 0 ∧ P m := by
  obtain ⟨m, hexec, hp⟩ := hc
  rw [he, State.act, if_neg (not_not.mpr h)] at hexec
  injection hexec with hstate
  injection hstate with hsettle
  exact ⟨m, hsettle, hp⟩

/-- Refutes O12: the statement speaks of every state, also of one in which the closed buffer of another member slice marks a word past its mirror.
In `strayMark` slice 0 marks 0x18004; its apply at the fence of group 1 writes AX_CHAIN of slice 1, a staged word of a slice whose own closed
buffer is empty. `Mach.mirrorPut`, through which every mark is made, makes no such mark; the statement has no premise that says so. -/
theorem not_emptyCloses : ¬ Obligations.EmptyCloses := by
  unfold Obligations.EmptyCloses
  intro h
  obtain ⟨hon, hmem, hfirst⟩ := strayMark_applies
  obtain ⟨hbefore, hafter⟩ := strayMark_writes
  obtain ⟨-, hfence⟩ := h { m := strayMark, pending := [] } (.tapster false) 1 1 0 rfl ⟨rfl, rfl, rfl, rfl⟩
  obtain ⟨m, hsettle, -, -, hkeeps⟩ :=
    State.settle_eq_of_completes (f := fun m => m.applyFence 1) strayMark_held rfl (hfence hon hmem rfl rfl rfl hfirst)
  have hregs : m.regs = (strayMark.applyFence 1).regs :=
    Mach.regs_eq_of_settle (hsettle.symm.trans (Mach.settle_quiet _ 0 strayMark_quiet)) strayMark_untraced
  have hword : m.rg (Blk.base .sl 1 + 4) = 1 := (Mach.rg_congr hregs _).trans hafter
  have hkept : m.rg (Blk.base .sl 1 + 4) = strayMark.rg (Blk.base .sl 1 + 4) := hkeeps 4 (by decide) _ rfl rfl (by decide)
  exact absurd (hword.symm.trans (hkept.trans hbefore)) (by decide)

end Sys2Proof.Machine

namespace Sys2Proof.Machine

/-! ### Guest reads of device registers (R375, R377) -/

/-- A supervisor of either world may read every register below the outside ports (R375). -/
theorem Mach.accessErr_supRead (m : Mach) {w : Who} (core : Option Nat) {a n : Nat} (hu : w.user = false) (hd : w.isDebug = false)
    (h : devAt a n = true) (ha : a < 0x35000000) : m.accessErr w core a n 0 = none := by
  obtain ⟨hlo, hhi⟩ := devAt_range h
  simp [Mach.accessErr, Mach.mayReach, memKey_dev core a hlo hhi, hu, hd, h, ha]

/-- A supervisor's 32-bit read below the outside ports is the read of that word, with its side effects. -/
theorem Mach.readBy_supRead (m : Mach) {r : Req} {a : Nat} (hu : (m.who r).user = false) (hd : (m.who r).isDebug = false)
    (hw : m.reqWaits r = false) (h : devAt a 4 = true) (ha : a < 0x35000000) :
    m.readBy r a 4 = { (m.readWord (m.who r) false a).2 with resp := .data ((m.readWord (m.who r) false a).1.setWidth 64) } := by
  have hlink : (m.who r).req ≠ .debug false := fun he => by simp [Who.isDebug, he] at hd
  simp [Mach.readBy, Mach.access, hw, Mach.busRead, m.accessErr_supRead _ hu hd h ha, m.memAt_dev _ h, hlink, Mach.readDev]

@[simp] theorem Mach.who_req (m : Mach) (r : Req) : (m.who r).req = r := by cases r <;> rfl

theorem Mach.readWord_guest (m : Mach) {w : Who} {a : Nat} (hg : w.guest = true) (h : rlPart a = .none) :
    m.readWord w false a = (m.readReg a, m) := by simp [Mach.readWord, h, hg]

theorem Mach.readWord_low (m : Mach) (w : Who) {a : Nat} (h : rlPart a = .low) :
    m.readWord w false a = (m.readReg a, m.latchHigh w.req (a + 4)) := by simp [Mach.readWord, h]

theorem Mach.readWord_high (m : Mach) (w : Who) {a : Nat} (h : rlPart a = .high) :
    m.readWord w false a = ((SMap.get noShadow m.shadow (Req.idx w.req)).getD 0, m) := by simp [Mach.readWord, h]

/-- The high half at `a` stands in the shadow of the requester it was latched for. -/
theorem Mach.get_latchHigh_shadow (m : Mach) (r : Req) (a : Nat) :
    SMap.get noShadow (m.latchHigh r a).shadow (Req.idx r) = some (m.readReg a) := by simp [Mach.latchHigh]

/-- A row that is a supervisor's read below the outside ports completes with the read of that word. -/
theorem State.completes_of_supRead {s : State} {c : Instr} {r : Req} {a : Nat} {P : Mach → Prop} (hheld : s.m.held = [])
    (hu : (s.m.who r).user = false) (hd : (s.m.who r).isDebug = false) (hw : s.m.reqWaits r = false) (h : devAt a 4 = true)
    (ha : a < 0x35000000) (he : exec c s = s.act fun m => m.readBy r a 4)
    (hp : P { (s.m.readWord (s.m.who r) false a).2 with resp := .data ((s.m.readWord (s.m.who r) false a).1.setWidth 64) }) :
    s.Completes c P :=
  State.completes_of_act hheld he (by rwa [s.m.readBy_supRead hu hd hw h ha])

/-- AX_STICKY is a word of every slice block. -/
theorem blkOf_sticky (x : Fin 72) : blkOf (AX_STICKY.DLMISS.addr x.val) = some (.sl, x.val) :=
  blkOf_sl x.val 0x8000 x.isLt (by decide)

theorem sticky_range (x : Fin 72) : 0x30000000 ≤ AX_STICKY.DLMISS.addr x.val ∧ AX_STICKY.DLMISS.addr x.val < 0x30480000 ∧
    AX_STICKY.DLMISS.addr x.val % 4 = 0 := by
  have haddr : AX_STICKY.DLMISS.addr x.val = 0x30000000 + 0x10000 * x.val + 0x8000 := rfl
  omega

theorem devAt_sticky (x : Fin 72) : devAt (AX_STICKY.DLMISS.addr x.val) 4 = true := by
  obtain ⟨hlo, hhi, h4⟩ := sticky_range x
  exact devAt_of_blk (blkOf_sticky x) hlo (by omega) h4

/-- AX_STICKY is no half of an RL pair. -/
theorem rlPart_sticky (x : Fin 72) : rlPart (AX_STICKY.DLMISS.addr x.val) = .none := by
  have hoff : AX_STICKY.DLMISS.addr x.val - Blk.base .sl x.val = 0x8000 := Nat.add_sub_cancel_left ..
  rw [rlPart, cardAt, blkOf_sticky]
  simp only [hoff]
  rcases cardsOf_sl x.val with h | h <;> rw [h] <;> decide +kernel

/-- Settles O10: a Guest supervisor may read every register below the outside ports, and what a read of a word does beside its answer turns on
the word's part in an RL pair alone, as a Guest's read clears no RC field. -/
theorem guestReadsClearNothing : Obligations.GuestReadsClearNothing := by
  unfold Obligations.GuestReadsClearNothing
  intro s r a hheld hg hu hd hw hdev ha
  refine ⟨fun hp => ?plain, fun hp => ?low, fun hp => ?high, fun x => ?sticky⟩
  case plain =>
    refine State.completes_of_supRead hheld hu hd hw hdev ha rfl ?_
    rw [s.m.readWord_guest hg hp]
  case low =>
    refine State.completes_of_supRead hheld hu hd hw hdev ha rfl ?_
    rw [s.m.readWord_low _ hp, s.m.who_req]
    exact ⟨rfl, s.m.get_latchHigh_shadow r (a + 4), rfl⟩
  case high =>
    refine State.completes_of_supRead hheld hu hd hw hdev ha rfl ?_
    rw [s.m.readWord_high _ hp, s.m.who_req]
  case sticky =>
    obtain ⟨-, hhi, -⟩ := sticky_range x
    refine State.completes_of_supRead hheld hu hd hw (devAt_sticky x) (by omega) rfl ?_
    rw [s.m.readWord_guest hg (rlPart_sticky x)]

end Sys2Proof.Machine
